-- ==== Sys2Proof/Word.lean ====
section
/-! DEFINITION. The word types of the Kelari K96 and their plainest arithmetic (R4, R5, R9). -/

namespace Sys2Proof

/-- A byte of memory. -/
abbrev Byte := BitVec 8
/-- A bundle word (R157) and a vector lane (R57). -/
abbrev W32 := BitVec 32
/-- A scalar register, a CSR, a plane word (R55, R82). -/
abbrev W64 := BitVec 64
/-- A vector register: 64 lanes of 32 bits (R55). -/
abbrev VReg := BitVec 2048
/-- A scalar register number. -/
abbrev XNum := BitVec 5
/-- A vector operand specifier (R174). -/
abbrev VSpec := BitVec 7

/-- Ceiling division of naturals. -/
def ceilDiv (a b : Nat) : Nat := (a + b - 1) / b

/-- ceil(log2 n), 0 for n ≤ 1 (R89). -/
def ceilLog2 (n : Nat) : Nat := if n ≤ 1 then 0 else Nat.log2 (n - 1) + 1

/-- `sat(x, lo, hi)` of R9. -/
def clampInt (x lo hi : Int) : Int := if x < lo then lo else if hi < x then hi else x

/-- `sext(x, n)` of R9 on a natural image: the low n bits read as two's complement. -/
def sextNat (n : Nat) (x : Nat) : Int :=
  let y := x % 2 ^ n
  if n = 0 then 0 else if y < 2 ^ (n - 1) then (y : Int) else (y : Int) - (2 ^ n : Nat)

/-- The low n bits of an integer as a natural (two's-complement image, R9). -/
def imageNat (n : Nat) (x : Int) : Nat := (x % ((2 ^ n : Nat) : Int)).toNat

/-- Bit n of a natural. -/
def bitOf (x n : Nat) : Bool := x.testBit n

/-- The field [hi:lo] of a natural image (R4). -/
def field (x hi lo : Nat) : Nat := (x >>> lo) % 2 ^ (hi + 1 - lo)

end Sys2Proof
end

