-- ==== Sys2Proof/Config.lean ====
section
/-! DEFINITION. What an implementation fixes and the spec leaves open. A constant with no body is a free value: no proof
can see what it is. -/

namespace Sys2Proof.Config

/-- What the spec gives no value for: reads of the device that it leaves open, applied to a counter of the state. -/
opaque freeWord : Nat → BitVec 64

/-- Flat base of the private area of a package for copies of parameter blocks (R32 gives the area no address): copy n lies
1 MiB · n above it. -/
opaque paramVa : Nat → BitVec 64

/-- Local physical base of that area, in units of 64 KiB (R32). -/
opaque paramPa : Nat → BitVec 30

/-- SHA-384 of some words, and the digest of the running firmware (R362): the spec names the function and does not give it. -/
opaque digest : List Nat → BitVec 384
opaque firmware : BitVec 384

/-- SHA-384 of the firmware image of a die that failed its verification (R464). -/
opaque heldFirmware : Nat → BitVec 384

/-- A signature by the identity key that is fused into a package (R362). -/
opaque signature : Nat → List Nat → BitVec 768

/-- The hash that picks one of the candidate ports of a line for another package (R339). -/
opaque portHash : Nat → Nat

/-- Nanoseconds that PTIME reads beside CYCLE are 4/9 per ck (R22, R358). -/
def ptimeNum : Nat := 4
def ptimeDen : Nat := 9

/-- Ticks of the milestone wheel, in ck (R323). -/
def tickCk : Nat := 144

end Sys2Proof.Config
end

