-- ==== Sys2Proof/Syntax.lean ====
section
/-! DEFINITION. The syntax of the K96: one structure per slot-word format (R173, R175 to R177) and ONE inductive `Instr`
with a constructor for every row of the opcode table: the encoded slot forms, and the part's whole and indivisible
events, which have no encoding (95_what_each_step_holds). -/

namespace Sys2Proof

/-- The six slots of a bundle in presence-mask order (R157, R158). -/
inductive Slot where
  | s | v0 | v1 | m | c0 | c1
deriving DecidableEq, Repr

/-- A short immediate or offset of n bits, or the 32-bit one of the extension word that replaces it (R173). -/
inductive Imm (n : Nat) where
  | short (v : BitVec n)
  | long (v : BitVec 32)
deriving DecidableEq, Repr

/-- Format S.R (R173). -/
structure FSR where
  d : XNum
  a : XNum
  b : XNum
  w : Bool
deriving DecidableEq, Repr

/-- Format S.R of the unary forms CLZ and POPC (xb zero). -/
structure FSR1 where
  d : XNum
  a : XNum
  w : Bool
deriving DecidableEq, Repr

/-- Format S.I (R173). -/
structure FSI where
  d : XNum
  a : XNum
  imm : Imm 14
deriving DecidableEq, Repr

/-- Format S.B (R173). -/
structure FSB where
  a : XNum
  b : XNum
  off : Imm 14
deriving DecidableEq, Repr

/-- The offset of S.M: OFF10, or LAND and OFF20 of the extension word (R173). -/
inductive MemOff where
  | short (off : BitVec 10)
  | long (land : BitVec 12) (off : BitVec 20)
deriving DecidableEq, Repr

/-- Format S.M (R173); `d` is xd of LD and xs of ST. -/
structure FSM where
  d : XNum
  a : XNum
  sz : BitVec 3
  bypass : Bool
  off : MemOff
deriving DecidableEq, Repr

/-- Format S.A (R173); `land` is present when there is an extension word. -/
structure FSA where
  d : XNum
  a : XNum
  b : XNum
  w : Bool
  land : Option (BitVec 12)
deriving DecidableEq, Repr

/-- CSRW, CSRS, CSRC of S.C (R173). -/
structure FSC where
  d : XNum
  a : XNum
  csr : BitVec 14
deriving DecidableEq, Repr

/-- Three-register forms of S.Q (R173). -/
structure FSQ where
  d : XNum
  a : XNum
  b : XNum
deriving DecidableEq, Repr

/-- The extension word of FADD, FSET and SIGNAL (R173). -/
structure RelExt where
  rel : Bool
  sce : Bool
  scope : BitVec 2
deriving DecidableEq, Repr

/-- FADD and FSET (R209, R210). -/
structure FFlag where
  a : XNum
  b : XNum
  flag : BitVec 9
  ext : Option RelExt
deriving DecidableEq, Repr

/-- Extension word of V.R (R175). -/
structure VExt where
  w : BitVec 2
  rm : BitVec 2
  sat : Bool
  cc : BitVec 3
  st : Bool
  im : Bool
  imm : BitVec 21
deriving DecidableEq, Repr

/-- Format V.R (R175). -/
structure FVR where
  d : VSpec
  a : VSpec
  b : VSpec
  k : BitVec 3
  ext : Option VExt
deriving DecidableEq, Repr

/-- Extension word of V.M (R175). -/
structure VMExt where
  land : BitVec 12
  off : BitVec 20
deriving DecidableEq, Repr

/-- Format V.M (R175), less TS, which the constructor says. -/
structure FVM where
  v : VSpec
  a : XNum
  bypass : Bool
  k : BitVec 3
  vi : VSpec
  ext : Option VMExt
deriving DecidableEq, Repr

/-- Extension word of format MMA (R176). -/
structure MMAExt where
  step : BitVec 8
  pb : BitVec 4
  pa : BitVec 4
deriving DecidableEq, Repr

/-- Format MMA (R176). -/
structure FMMA where
  acc : BitVec 3
  ta : BitVec 8
  lb : BitVec 2
  shp : BitVec 4
  n : Bool
  z : Bool
  af : BitVec 3
  ext : Option MMAExt
deriving DecidableEq, Repr

/-- Format LATCH (R176); `ext` holds the TB step. -/
structure FLatch where
  lb : BitVec 2
  tb : BitVec 8
  shp : BitVec 4
  bf : BitVec 4
  ext : Option (BitVec 8)
deriving DecidableEq, Repr

/-- Format EPI (R176); `ext` holds the TD step. -/
structure FEpi where
  acc : BitVec 3
  td : BitVec 8
  shp : BitVec 4
  df : BitVec 4
  rnd : BitVec 2
  ext : Option (BitVec 8)
deriving DecidableEq, Repr

/-- Extension word of format MA (R176). -/
structure MAExt where
  va : VSpec
  vb : VSpec
  gt : BitVec 6
deriving DecidableEq, Repr

/-- Format MA (R176). -/
structure FMA where
  acc : BitVec 3
  acs : BitVec 3
  t : BitVec 8
  shp : BitVec 4
  f : BitVec 4
  ext : Option MAExt
deriving DecidableEq, Repr

/-- Extension word of format SCAN (R176). -/
structure ScanExt where
  land : BitVec 12
  step : BitVec 8
  w16 : BitVec 8
deriving DecidableEq, Repr

/-- Format SCAN (R176). -/
structure FScan where
  h : BitVec 3
  tp : BitVec 8
  q : BitVec 3
  rev : Bool
  shp : BitVec 4
  ext : Option ScanExt
deriving DecidableEq, Repr

/-- Extension word of C.T (R177). -/
structure CTExt where
  tstep : BitVec 8
  rstep : BitVec 4
  cstep : BitVec 4
  land : BitVec 16
deriving DecidableEq, Repr

/-- Format C.T (R177). -/
structure FCT where
  t : BitVec 8
  xh : XNum
  xc : XNum
  md : BitVec 6
  ext : Option CTExt
deriving DecidableEq, Repr

/-- Format C.L (R177). -/
structure FCL where
  a : XNum
  b : XNum
deriving DecidableEq, Repr

/-- Format C.X (R177). -/
structure FCX where
  d : XNum
  a : XNum
  b : XNum
  fn : BitVec 9
deriving DecidableEq, Repr

/-- Extension word of C.N and C.Y (R177). -/
structure CNExt where
  tstep : BitVec 8
  land : BitVec 16
deriving DecidableEq, Repr

/-- Format C.N (R177). -/
structure FCN where
  t : BitVec 8
  dir : BitVec 2
  shp : BitVec 4
  a : XNum
  any : Bool
  ext : Option CNExt
deriving DecidableEq, Repr

/-- Format C.Y (R177). -/
structure FCY where
  h : BitVec 3
  t : BitVec 8
  a : XNum
  ext : Option CNExt
deriving DecidableEq, Repr

/-- A flag operation in flight (R209 to R211): FADD adds, FSET writes. -/
inductive FlagAct where
  | add (v : BitVec 16)
  | set (v : BitVec 16)
deriving DecidableEq, Repr

/-- A remote flag operation on physical flag `flag` of domain core `core`; `acc` is the sender's outstanding access,
`byTag` the group tag and lead package of an FSET by tag on its way to the lead dispatcher (R210, R452). -/
structure FlagMsg where
  src : Nat
  core : Nat
  flag : Nat
  act : FlagAct
  acc : Nat
  byTag : Option (Nat × Nat) := none
deriving DecidableEq, Repr

/-- One piece of an inbound remote write (R145): `words` are (byte offset in the destination image, 8 bytes),
`side` the sidecar words carried, `left` the pieces of the whole transfer for this destination, `flag` the carried
flag operation (R153). -/
structure InMsg where
  src : Nat
  acc : Nat
  core : Nat
  seat : Bool
  granule : Nat
  grans : Nat
  bytes : Nat
  words : List (Nat × BitVec 64)
  side : List (Nat × BitVec 64)
  fillSide : Bool
  flag : Option (Nat × FlagAct)
deriving DecidableEq, Repr

/-- A RACC arrival (R262, R298): the 32 KiB image as (byte offset, 8 bytes). -/
structure AccMsg where
  src : Nat
  seq : Nat
  acc : Nat
  core : Nat
  seat : Bool
  win : Nat
  words : List (Nat × BitVec 64)
  flag : Option (Nat × FlagAct)
deriving DecidableEq, Repr

/-- A neighbour message (R299): its rows, each row a 2,048-bit value. -/
structure NeighMsg where
  src : Nat
  acc : Nat
  core : Nat
  seat : Bool
  dir : Nat
  tag : Nat
  rows : List (BitVec 2048)
deriving DecidableEq, Repr

/-- A carry message (R307): the sending seat's key, the a and b rows of the slot, its sequence number (R458), the sender's
access. -/
structure CarryMsg where
  src : Nat
  core : Nat
  seat : Bool
  tag : Nat
  seq : Nat
  rowA : BitVec 2048
  rowB : BitVec 2048
  acc : Nat
deriving DecidableEq, Repr

/-- One submission to the scan network (R274, R276): lane values are (lane, a, b); `acc` the access whose landing takes the
result. -/
structure ScanMsg where
  seat : Nat
  tag : Nat
  lpkg : Nat
  round : Nat
  ord : Nat
  size : Nat
  prog : BitVec 128
  acc : Nat
  lanes : List (Nat × BitVec 32 × BitVec 32)
deriving DecidableEq, Repr

/-- A block carry on its way between die networks (R277); `leaves` that it comes up at the channel out of `die`. -/
structure BlockCarry where
  die : Nat
  tag : Nat
  lpkg : Nat
  round : Nat
  block : Nat
  lanes : List (Nat × BitVec 32 × BitVec 32)
  leaves : Bool := false
deriving DecidableEq, Repr

/-- A reduction packet (R333, R334) on its way to the router of domain cluster `cluster`: the combine of leaves `lo` to `hi`
of the leaves at clusters `leaves`, for elements (flat index in the tensor, image); `orig` is the cluster of rank 0, `members`
the engines of the phase, `dests` the ranks of `members` that receive the result. -/
structure RedMsg where
  cluster : Nat
  comm : Nat
  seq : Nat
  phase : Nat
  gtag : Nat
  inst : Nat
  orig : Nat
  tree : Nat
  red : Nat
  fmt : Nat
  leaves : List Nat
  lo : Nat
  hi : Nat
  members : List Nat
  dests : List Nat
  elems : List (Nat × Nat)
deriving DecidableEq, Repr

/-- A chunk delivered to a collective engine (R343, R348): (flat index in the tensor, image) pairs from the member of rank
`src`; chunk number 0 marks the result of a reduction, whose leaves stand at the clusters `leaves`; `wrote` that it is being written. -/
structure ChunkMsg where
  cluster : Nat
  comm : Nat
  seq : Nat
  phase : Nat
  gtag : Nat
  src : Nat
  chunk : Nat
  elems : List (Nat × Nat)
  leaves : List Nat := []
  wrote : Bool := false
deriving DecidableEq, Repr

/-- Where an owner command points: one seat or every seat of an instance (R46). -/
inductive OwnerTarget where
  | seat (k : Nat)
  | inst (k : Nat)
deriving DecidableEq, Repr

/-- What fuses, self-test and firmware verification give for a package (R8, R359, R360, R464): the cores (8·c + i), routers, stacks,
slices and Stehayth ports that do not work, which package and port a Stehayth port's link leads to (an unlisted port: whichever package the
domain table names it for, at the same port), the next package of the carry chain, the dies whose firmware fails its verification, and whether the
identity key fails its self-test. -/
structure PartConf where
  coresOff : List Nat := []
  rtrOff : List Nat := []
  stkOff : List Nat := []
  linkOff : List Nat := []
  slcOff : List Nat := []
  wires : List (Nat × Nat × Nat) := []
  chain : Option Nat := none
  held : List Nat := []
  keyBad : Bool := false
deriving DecidableEq, Repr

/-- What a detector of R375 finds at fault: a line of HBM; the word of structure `s` of R391 (0 to 4 or 7) that the seat's next form reads; a
latch's decode check (R412); the parity of what the seat fetches next; the landing data of an access; an entry of a seat's snapshot bank; an
entry of a core's translation cache (0), tensor table cache (1) or tile table cache (2), and whose lookup failed on it a second time; a slice's
line; a slice's set; a line in a memory-side unit; structure 8, 14 or 15 in an instance's use; the decompressor's self-check on an access's
granule; a frame write that is refused; an operation of a seat at a site of R392 (4 to 6); the residency engine's entry of a layer; an armed
milestone of a die's wheel; the crossbar of a cluster's router. -/
inductive FaultSite where
  | hbm (line : Nat)
  | word (s seat : Nat)
  | latch (seat b : Nat)
  | fetch (seat : Nat)
  | landing (acc : Nat)
  | snapshot (seat i : Nat)
  | cached (core cache i : Nat) (again : Option Nat)
  | sliceLine (cl line : Nat)
  | sliceSet (cl set : Nat)
  | memSide (line : Nat)
  | store (s inst : Nat)
  | decoder (acc : Nat)
  | frameWrite (acc : Nat)
  | operation (site seat : Nat)
  | engineTable (pkg layer : Nat)
  | milestone (die i : Nat)
  | router (pkg cl : Nat)
deriving DecidableEq, Repr

/-- The mechanical links a link failure names (R445, R446). -/
inductive LinkKind where
  | meshHop | dieBridge | neighbour | stehayth | lomoamo | carryHop | carryIn | carryOut
deriving DecidableEq, Repr

/-- A link: its kind, a cluster (or die, or port) number and a direction 0 to 3. -/
structure LinkId where
  kind : LinkKind
  unit : Nat
  dir : Nat
deriving DecidableEq, Repr

/-- Every operation and event of the part: one constructor per row of the opcode table. The encoded slot forms come
first, in the table's order, then what comes from outside the part, with its operands, then the part's own events, whose
operands stand in the state (the `Event` in flight) because the part itself makes them. -/
inductive Instr where
  | nop
  | add (f : FSR)
  | sub (f : FSR)
  | and_ (f : FSR)
  | or_ (f : FSR)
  | xor_ (f : FSR)
  | shl (f : FSR)
  | shr (f : FSR)
  | sra (f : FSR)
  | slt (f : FSR)
  | sltu (f : FSR)
  | min_ (f : FSR)
  | max_ (f : FSR)
  | minu (f : FSR)
  | maxu (f : FSR)
  | mul (f : FSR)
  | mulh (f : FSR)
  | mulhu (f : FSR)
  | div (f : FSR)
  | divu (f : FSR)
  | rem (f : FSR)
  | remu (f : FSR)
  | adds (f : FSR)
  | subs (f : FSR)
  | clz (f : FSR1)
  | popc (f : FSR1)
  | seq (f : FSR)
  | sne (f : FSR)
  | addx (f : FSR)
  | addi (f : FSI)
  | andi (f : FSI)
  | ori (f : FSI)
  | xori (f : FSI)
  | shli (f : FSI)
  | shri (f : FSI)
  | srai (f : FSI)
  | slti (f : FSI)
  | sltiu (f : FSI)
  | li (d : XNum) (imm : Imm 14)
  | lih (f : FSI)
  | beq (f : FSB)
  | bne (f : FSB)
  | blt (f : FSB)
  | bge (f : FSB)
  | bltu (f : FSB)
  | bgeu (f : FSB)
  | j (off : Imm 24)
  | jal (off : Imm 24)
  | jalr (f : FSI)
  | loop (e : BitVec 16) (count : BitVec 32)
  | loopr (a : XNum) (e : BitVec 16)
  | ld (f : FSM)
  | st (f : FSM)
  | amoadd (f : FSA)
  | amoand (f : FSA)
  | amoor (f : FSA)
  | amoxor (f : FSA)
  | amomin (f : FSA)
  | amomax (f : FSA)
  | amominu (f : FSA)
  | amomaxu (f : FSA)
  | amoswap (f : FSA)
  | amocas (f : FSA)
  | amofadd (f : FSA)
  | csrr (d : XNum) (csr : BitVec 14)
  | csrw (f : FSC)
  | csrs (f : FSC)
  | csrc (f : FSC)
  | shset (a : XNum) (n : BitVec 4)
  | shget (d : XNum) (n : BitVec 4)
  | qpush (f : FSQ)
  | qpop (f : FSQ)
  | qpeek (f : FSQ)
  | fadd (f : FFlag)
  | fset (f : FFlag)
  | ftest (d : XNum) (flag : BitVec 9)
  | fwait (f : FSQ) (flag : BitVec 9)
  | fclr (flag : BitVec 9)
  | signal (a : XNum) (ext : Option RelExt)
  | yield
  | sleepuntil (a : XNum)
  | msarm (a b : XNum)
  | drain (d : XNum) (scope : BitVec 2)
  | trap (n : BitVec 5)
  | eret
  | exit
  | brk
  | tlbinv (a b : XNum)
  | ttinv
  | wipe (d a : XNum)
  | vnop (ext : Option VExt)
  | vadd (f : FVR)
  | vsub (f : FVR)
  | vmul (f : FVR)
  | vmulh (f : FVR)
  | vand (f : FVR)
  | vor (f : FVR)
  | vxor (f : FVR)
  | vshl (f : FVR)
  | vshr (f : FVR)
  | vsra (f : FVR)
  | vmin (f : FVR)
  | vmax (f : FVR)
  | vabs (f : FVR)
  | vmad (f : FVR)
  | vfadd (f : FVR)
  | vfsub (f : FVR)
  | vfmul (f : FVR)
  | vfma (f : FVR)
  | vfmin (f : FVR)
  | vfmax (f : FVR)
  | vfneg (f : FVR)
  | vfrcp (f : FVR)
  | vfrsq (f : FVR)
  | vfexp2 (f : FVR)
  | vflog2 (f : FVR)
  | vfdiv (f : FVR)
  | vfsqrt (f : FVR)
  | vcmp (f : FVR)
  | vfcmp (f : FVR)
  | kand (f : FVR)
  | kor (f : FVR)
  | kxor (f : FVR)
  | knot (f : FVR)
  | kpopc (f : FVR)
  | vselk (f : FVR)
  | vcvt (f : FVR)
  | vpack (f : FVR)
  | vunpack (f : FVR)
  | vshuf (f : FVR)
  | vbcast (f : FVR)
  | vslide (f : FVR)
  | vradd (f : FVR)
  | vrmax (f : FVR)
  | vrmin (f : FVR)
  | vrfadd (f : FVR)
  | vpushc (f : FVR)
  | vpopc (f : FVR)
  | vrebal (f : FVR)
  | vscnt (f : FVR)
  | vld (f : FVM)
  | vldTs (f : FVM)
  | vldSc (f : FVM)
  | vst (f : FVM)
  | vstTs (f : FVM)
  | vstSc (f : FVM)
  | vldg (f : FVM)
  | vldgTs (f : FVM)
  | vsts (f : FVM)
  | vstsTs (f : FVM)
  | vplane (f : FVM)
  | vdeplane (f : FVM)
  | vmov (f : FVR)
  | vext (f : FVR)
  | mnop (ext : Option MAExt)
  | mma (f : FMMA)
  | mmas (f : FMMA)
  | latch (f : FLatch)
  | azero (f : FMA)
  | amov (f : FMA)
  | anorm (f : FMA)
  | agetx (f : FMA)
  | ascl (f : FMA)
  | aaddt (f : FMA)
  | epi (f : FEpi)
  | epix (f : FEpi)
  | awin (f : FMA)
  | acommit (f : FMA)
  | scan (f : FScan)
  | scanl (f : FScan)
  | scant (f : FScan)
  | scanc (f : FScan)
  | qset (f : FScan)
  | step (f : FScan)
  | stepy (f : FScan)
  | hld (f : FScan)
  | hst (f : FScan)
  | hzero (f : FScan)
  | cnop
  | tld (f : FCT)
  | tldm (f : FCT)
  | tldd (f : FCT)
  | tldg (f : FCT)
  | tst (f : FCT)
  | tsts (f : FCT)
  | tcpy (f : FCT)
  | racc (f : FCT)
  | tpf (f : FCT)
  | nsend (f : FCN)
  | nrecv (f : FCN)
  | lacq (a : XNum)
  | lrel (a : XNum)
  | lhint (a b : XNum)
  | creq (f : FCX)
  | cpoll (d a : XNum)
  | xplan (d a : XNum) (comm : BitVec 4)
  | xstep (d a : XNum)
  | xstatStatus (d a b : XNum)
  | xstatTake (d a b : XNum)
  | xstatReadA (d a b : XNum)
  | xstatReadB (d a b : XNum)
  | xstatComplete (d a b : XNum)
  | xstatFail (d a b : XNum)
  | xstatPlanStatus (d a b : XNum)
  | xabort (d a : XNum)
  | cysnd (f : FCY)
  | cyrcv (f : FCY)
  | kick (pkg node : Nat) (hdr : BitVec 64) (patches : List (BitVec 64 × BitVec 64))
  | ownerPreempt (pkg node : Nat) (target : OwnerTarget)
  | ownerReleaseSeat (pkg node seat : Nat)
  | patrolScrub (site : FaultSite) (uncorrectable : Bool)
  | arrivalFailure (pkg layer reason : Nat)
  | writeBackFailure (pkg layer : Nat)
  | poolParameterWrite (pkg node : Nat) (base : BitVec 64) (kns : BitVec 64)
  | resumeCommand (seat : Nat)
  | seatRetireCommand (seat : Nat)
  | instanceAbort (inst : Nat) (status : BitVec 64)
  | linkRetryRequest (link : LinkId) (acc : Nat)
  | routerAckTimeout (cluster : Nat)
  | linkTrainingLoss (link : LinkId)
  | partitionResume (pkg : Nat)
  | stehaythLinkFailure (pkg port : Nat)
  | claim (pkg port node : Nat) (valid : Bool)
  | ownershipHandover (pkg node succ : Nat)
  | portLinkLoss (pkg port : Nat)
  | imageUpload (pkg node handle : Nat) (bytes : List (Nat × BitVec 8)) (words : List (BitVec 64))
  | completionReportPop (pkg : Nat)
  | windowRegisterWrite (pkg node off : Nat) (data : BitVec 64)
  | ptimeSync (pkg : Nat) (ns : BitVec 64)
  | attestationRequest (pkg : Nat) (nonce : BitVec 384)
  | provisioningCommand (pkg : Nat) (valid : Bool)
  | deploymentCommand (pkg node : Nat)
  | returnCommand (pkg node : Nat)
  | temperatureWarning (pkg die : Nat)
  | temperatureTrip (pkg die : Nat)
  | powerStageFault (pkg die : Nat)
  | coolantFlowLow (pkg : Nat)
  | coolantTemperatureHigh (pkg : Nat)
  | inputUndervoltage (pkg : Nat)
  | inputOvercurrent (pkg : Nat)
  | modulePowerDown (pkg : Nat)
  | portLinkUp (pkg port : Nat)
  | carryInputLoss (pkg : Nat)
  | moduleEventCleared (pkg cause : Nat)
  | emptyBundle
  | instanceStart
  | dispatchRound
  | preemptionRequest
  | seatPlacement
  | spillStart
  | spillDone
  | restoreDone
  | seatRetired
  | nodeComplete
  | completionReportAppend
  | signalCounted
  | milestoneWheelTick
  | sleepWake
  | fwaitSatisfied
  | fwaitTimeout
  | drainComplete
  | releaseDrainComplete
  | remoteFlagArrival
  | lateDataArrival
  | pageWalkComplete
  | deferredCauseCharge
  | inboundRemoteWrite
  | accumulateArrival
  | neighbourMessageArrival
  | carryMessageArrival
  | granuleDecode
  | sliceRequest
  | atomicExecution
  | memoryControllerIssue
  | packetRoute
  | goldenEpoch
  | multicastAck
  | multicastAckTimeout
  | reductionPacketArrival
  | contributorTimeout
  | abortNotice
  | creditGrant
  | chunkArrival
  | chunkComplete
  | xplanDerivationComplete
  | collectiveCreditTimeout
  | collectivePeerTimeout
  | scanSubmission
  | blockCarryArrival
  | scanRoundTimeout
  | arrivalStart
  | arrivalComplete
  | evictionComplete
  | lacqTimeout
  | poolChangeComplete
  | landingOverdue
  | freezeWatchdog
  | drainLimit
  | holdWatchdog
  | acommitArrivalTimeout
  | phaseBoundExceeded
  | ownerLapse
  | reset
  | wipeComplete
  | invalidateAcknowledged
deriving DecidableEq, Repr

/-- An event with its operands, as it waits in the state or falls due: the part's own events, or one from outside. -/
inductive Event where
  | ext (i : Instr)
  | instanceStart (inst : Nat)
  | dispatchRound (pkg : Nat)
  | preemptionRequest (seat : Nat)
  | seatPlacement (seat inst node rank : Nat)
  | spillStart (seat : Nat)
  | spillDone (seat : Nat)
  | restoreDone (seat : Nat)
  | seatRetired (seat : Nat)
  | nodeComplete (inst node : Nat)
  | completionReportAppend (inst : Nat)
  | signalCounted (inst node acc : Nat)
  | milestoneWheelTick (die : Nat)
  | sleepWake (seat : Nat)
  | fwaitSatisfied (seat : Nat)
  | fwaitTimeout (seat : Nat)
  | drainComplete (seat : Nat)
  | releaseDrainComplete (seat : Nat)
  | remoteFlagArrival (m : FlagMsg)
  | lateDataArrival (acc part : Nat)
  | pageWalkComplete (acc part : Nat)
  | deferredCauseCharge (seat : Nat)
  | inboundRemoteWrite (m : InMsg)
  | accumulateArrival (m : AccMsg)
  | neighbourMessageArrival (m : NeighMsg)
  | carryMessageArrival (m : CarryMsg)
  | granuleDecode (cluster : Nat)
  | sliceRequest (cluster bank : Nat)
  | atomicExecution (acc part : Nat)
  | memoryControllerIssue (stack pc : Nat)
  | packetRoute (cluster : Nat)
  | goldenEpoch (pkg : Nat)
  | multicastAck (acc cluster : Nat)
  | multicastAckTimeout (acc : Nat)
  | reductionPacketArrival (m : RedMsg)
  | contributorTimeout (cluster : Nat) (m : RedMsg)
  | abortNotice (cluster comm seq peer gtag : Nat)
  | creditGrant (cluster comm seq phase peer gtag : Nat)
  | chunkArrival (m : ChunkMsg)
  | chunkComplete (cluster vc : Nat)
  | xplanDerivationComplete (seat : Nat)
  | collectiveCreditTimeout (cluster plan : Nat)
  | collectivePeerTimeout (cluster plan : Nat)
  | scanSubmission (die : Nat) (m : ScanMsg)
  | blockCarryArrival (m : BlockCarry)
  | scanRoundTimeout (die tag round block : Nat)
  | arrivalStart (pkg layer : Nat)
  | arrivalComplete (pkg layer : Nat)
  | evictionComplete (pkg layer : Nat)
  | lacqTimeout (seat : Nat)
  | poolChangeComplete (pkg : Nat)
  | landingOverdue (seat acc : Nat)
  | freezeWatchdog (core : Nat)
  | drainLimit (seat : Nat)
  | holdWatchdog (seat : Nat)
  | acommitArrivalTimeout (seat : Nat)
  | phaseBoundExceeded (seat : Nat)
  | ownerLapse (pkg : Nat)
  | reset (only : Option Nat) (parts : List PartConf)
  | wipeComplete (die : Nat)
  | invalidateAcknowledged (core : Nat)
deriving DecidableEq, Repr

/-- The constructor of `Instr` that an event runs. -/
def Event.instr : Event → Instr
  | .ext i => i
  | .instanceStart _ => .instanceStart
  | .dispatchRound _ => .dispatchRound
  | .preemptionRequest _ => .preemptionRequest
  | .seatPlacement _ _ _ _ => .seatPlacement
  | .spillStart _ => .spillStart
  | .spillDone _ => .spillDone
  | .restoreDone _ => .restoreDone
  | .seatRetired _ => .seatRetired
  | .nodeComplete _ _ => .nodeComplete
  | .completionReportAppend _ => .completionReportAppend
  | .signalCounted _ _ _ => .signalCounted
  | .milestoneWheelTick _ => .milestoneWheelTick
  | .sleepWake _ => .sleepWake
  | .fwaitSatisfied _ => .fwaitSatisfied
  | .fwaitTimeout _ => .fwaitTimeout
  | .drainComplete _ => .drainComplete
  | .releaseDrainComplete _ => .releaseDrainComplete
  | .remoteFlagArrival _ => .remoteFlagArrival
  | .lateDataArrival _ _ => .lateDataArrival
  | .pageWalkComplete _ _ => .pageWalkComplete
  | .deferredCauseCharge _ => .deferredCauseCharge
  | .inboundRemoteWrite _ => .inboundRemoteWrite
  | .accumulateArrival _ => .accumulateArrival
  | .neighbourMessageArrival _ => .neighbourMessageArrival
  | .carryMessageArrival _ => .carryMessageArrival
  | .granuleDecode _ => .granuleDecode
  | .sliceRequest _ _ => .sliceRequest
  | .atomicExecution _ _ => .atomicExecution
  | .memoryControllerIssue _ _ => .memoryControllerIssue
  | .packetRoute _ => .packetRoute
  | .goldenEpoch _ => .goldenEpoch
  | .multicastAck _ _ => .multicastAck
  | .multicastAckTimeout _ => .multicastAckTimeout
  | .reductionPacketArrival _ => .reductionPacketArrival
  | .contributorTimeout _ _ => .contributorTimeout
  | .abortNotice _ _ _ _ _ => .abortNotice
  | .creditGrant _ _ _ _ _ _ => .creditGrant
  | .chunkArrival _ => .chunkArrival
  | .chunkComplete _ _ => .chunkComplete
  | .xplanDerivationComplete _ => .xplanDerivationComplete
  | .collectiveCreditTimeout _ _ => .collectiveCreditTimeout
  | .collectivePeerTimeout _ _ => .collectivePeerTimeout
  | .scanSubmission _ _ => .scanSubmission
  | .blockCarryArrival _ => .blockCarryArrival
  | .scanRoundTimeout _ _ _ _ => .scanRoundTimeout
  | .arrivalStart _ _ => .arrivalStart
  | .arrivalComplete _ _ => .arrivalComplete
  | .evictionComplete _ _ => .evictionComplete
  | .lacqTimeout _ => .lacqTimeout
  | .poolChangeComplete _ => .poolChangeComplete
  | .landingOverdue _ _ => .landingOverdue
  | .freezeWatchdog _ => .freezeWatchdog
  | .drainLimit _ => .drainLimit
  | .holdWatchdog _ => .holdWatchdog
  | .acommitArrivalTimeout _ => .acommitArrivalTimeout
  | .phaseBoundExceeded _ => .phaseBoundExceeded
  | .ownerLapse _ => .ownerLapse
  | .reset _ _ => .reset
  | .wipeComplete _ => .wipeComplete
  | .invalidateAcknowledged _ => .invalidateAcknowledged

end Sys2Proof
end

