-- ==== Sys2Proof/Machine/VForms.lean ====
section
/-! DEFINITION. The form table of the vector slot (R228): what each field of a V.R form names, its widths, the modifiers
it uses, its write time and its occupancy. -/

namespace Sys2Proof.Machine

/-- What a D, A or B field of a V.R form names (R226, R228). -/
inductive FieldUse where
  | unused | src | dst | mask | stream | stream2 | cvtCode | unpackCode | scalar
deriving DecidableEq, Repr

/-- One row of R228. `third`: D is read as the third operand; `k`: the K field is read; `wr`: W is read; `w16`, `w8`:
widths listed beside 32; `rm`, `sat`, `cc`: modifiers used; `fp`: a float form (bit 27 selects BF16 in 16×2 mode);
`lat`: write ck after issue; `occ`: unit occupancy. -/
structure VForm where
  d : FieldUse
  a : FieldUse
  b : FieldUse
  third : Bool := false
  k : Bool := true
  wr : Bool := true
  w16 : Bool := false
  w8 : Bool := false
  rm : Bool := false
  sat : Bool := false
  cc : Bool := false
  fp : Bool := false
  lat : Nat
  occ : Nat := 1
deriving DecidableEq, Repr

/-- Rows whose D, A and B are vector operands, integer, all three widths. -/
def VForm.int (sat : Bool) (lat : Nat) : VForm :=
  { d := .dst, a := .src, b := .src, w16 := true, w8 := true, sat := sat, lat := lat }

/-- Rows of the float forms. -/
def VForm.flt (b : FieldUse) (rm : Bool) (lat occ : Nat) : VForm :=
  { d := .dst, a := .src, b := b, w16 := true, rm := rm, fp := true, lat := lat, occ := occ }

/-- Rows of the mask forms KAND to KNOT. -/
def VForm.kop (b : FieldUse) : VForm :=
  { d := .mask, a := .mask, b := b, k := false, wr := false, lat := 1 }

/-- A vector operation of the seat on D, A and B at 32 bits. -/
def VForm.w32 (b : FieldUse) (lat : Nat) : VForm := { d := .dst, a := .src, b := b, lat := lat }

/-- The row of R228 for a V.R form. -/
def vform : Instr → Option (FVR × VForm)
  | .vadd f => some (f, VForm.int true 1)
  | .vsub f => some (f, VForm.int true 1)
  | .vmul f => some (f, VForm.int true 3)
  | .vmulh f => some (f, VForm.int false 3)
  | .vand f => some (f, VForm.w32 .src 1)
  | .vor f => some (f, VForm.w32 .src 1)
  | .vxor f => some (f, VForm.w32 .src 1)
  | .vshl f => some (f, VForm.int true 1)
  | .vshr f => some (f, VForm.int false 1)
  | .vsra f => some (f, VForm.int false 1)
  | .vmin f => some (f, VForm.int false 1)
  | .vmax f => some (f, VForm.int false 1)
  | .vabs f => some (f, { VForm.int true 1 with b := .unused })
  | .vmad f => some (f, { VForm.int true 3 with third := true })
  | .vfadd f => some (f, VForm.flt .src true 3 1)
  | .vfsub f => some (f, VForm.flt .src true 3 1)
  | .vfmul f => some (f, VForm.flt .src true 3 1)
  | .vfma f => some (f, { VForm.flt .src true 3 1 with third := true })
  | .vfmin f => some (f, VForm.flt .src false 1 1)
  | .vfmax f => some (f, VForm.flt .src false 1 1)
  | .vfneg f => some (f, VForm.flt .unused false 1 1)
  | .vfrcp f => some (f, VForm.flt .unused true 9 1)
  | .vfrsq f => some (f, VForm.flt .unused true 9 1)
  | .vfexp2 f => some (f, VForm.flt .unused true 9 1)
  | .vflog2 f => some (f, VForm.flt .unused true 9 1)
  | .vfdiv f => some (f, VForm.flt .src true 15 4)
  | .vfsqrt f => some (f, VForm.flt .unused true 15 4)
  | .vcmp f => some (f, { d := .mask, a := .src, b := .src, cc := true, lat := 1 })
  | .vfcmp f => some (f, { d := .mask, a := .src, b := .src, cc := true, lat := 1, fp := true })
  | .kand f => some (f, VForm.kop .mask)
  | .kor f => some (f, VForm.kop .mask)
  | .kxor f => some (f, VForm.kop .mask)
  | .knot f => some (f, VForm.kop .unused)
  | .kpopc f => some (f, { VForm.kop .unused with d := .dst, lat := 2 })
  | .vselk f => some (f, VForm.w32 .src 1)
  | .vcvt f => some (f, { VForm.w32 .cvtCode 3 with rm := true })
  | .vpack f => some (f, { VForm.int false 3 with third := true })
  | .vunpack f => some (f, { VForm.int false 3 with b := .unpackCode })
  | .vshuf f => some (f, VForm.w32 .src 2)
  | .vbcast f => some (f, VForm.w32 .src 2)
  | .vslide f => some (f, VForm.w32 .src 2)
  | .vradd f => some (f, { VForm.int true 7 with b := .unused })
  | .vrmax f => some (f, { VForm.int false 7 with b := .unused })
  | .vrmin f => some (f, { VForm.int false 7 with b := .unused })
  | .vrfadd f => some (f, VForm.flt .unused true 7 1)
  | .vpushc f => some (f, { VForm.w32 .stream 1 with d := .unused })
  | .vpopc f => some (f, { VForm.w32 .stream 3 with a := .unused })
  | .vrebal f => some (f, { VForm.w32 .stream2 1 with d := .unused, a := .unused, k := false, wr := false })
  | .vscnt f => some (f, { VForm.w32 .stream 1 with a := .unused, k := false, wr := false })
  | .vmov f => some (f, VForm.int false 1)
  | .vext f => some (f, { VForm.w32 .src 2 with d := .scalar, k := false })
  | _ => none

/-- The extension word of a V.R form, zero when absent (R175). -/
def FVR.x (f : FVR) : VExt :=
  f.ext.getD { w := 0, rm := 0, sat := false, cc := 0, st := false, im := false, imm := 0 }

end Sys2Proof.Machine
end

