-- ==== Sys2Proof/Machine/Legal.lean ====
section
/-! DEFINITION. Which field values of an encoded form are legal (R178, R226, R253, R271, R290): `resW`, `resE` are the
unused fields of the slot word and the extension word (class 0, reason 1), `codW`, `codE` the coded fields (reason 2). -/

namespace Sys2Proof.Machine

/-- A source specifier is not reserved (R174). -/
def VSpecOk (v : VSpec) : Bool := v.toNat < 76 || 96 ≤ v.toNat

/-- An unused field is zero; a field of another meaning has only the bits that the form defines (R226). -/
def FieldUse.resOk (u : FieldUse) (v : VSpec) : Bool :=
  match u with
  | .unused => v.toNat == 0
  | .mask => v.toNat < 8
  | .stream => v.toNat < 4
  | .stream2 => v.toNat < 16
  | _ => true

/-- Coded values of a field: reserved specifiers, destinations, conversion codes (R174, R233). -/
def FieldUse.codOk (u : FieldUse) (v : VSpec) : Bool :=
  match u with
  | .src => VSpecOk v
  | .dst => v.toNat < 72
  | .cvtCode => v.toNat < 14
  | .scalar => 97 ≤ v.toNat
  | _ => true

/-- The B field of a V.R form: zero under IM (R226); VMOV reads A or the immediate (R243); VUNPACK code bits (R235). (DEDUCED, log 25) -/
def vrResW (f : FVR) (u : VForm) (mov unp : Bool) : Bool :=
  let x := FVR.x f
  u.d.resOk f.d && (u.k || f.k.toNat == 0) &&
  (if mov then (if x.im then f.a.toNat == 0 && f.b.toNat == 0 else f.b.toNat == 0)
   else u.a.resOk f.a && u.b.resOk f.b && (!x.im || u.b ≠ .src || f.b.toNat == 0)) &&
  (!unp || f.b.toNat < (if x.w = 1 then 4 else 8))

/-- Extension word of a V.R form: IM only with a B operand, W only where read, IMM21 only under ST or IM (R226). -/
def vrResE (f : FVR) (u : VForm) : Bool :=
  let x := FVR.x f
  (!x.im || u.b = .src) && (u.wr || x.w.toNat == 0) && (x.st || x.im || x.imm.toNat == 0)

/-- Coded fields of the slot word of a V.R form. -/
def vrCodW (f : FVR) (u : VForm) : Bool := u.d.codOk f.d && u.a.codOk f.a && u.b.codOk f.b

/-- Coded fields of the extension word: W = 3 is reserved, ST = IM = 1 is illegal (R175). -/
def vrCodE (f : FVR) : Bool := let x := FVR.x f; x.w.toNat != 3 && !(x.st && x.im)

/-- MA forms: unused fields zero, in the order ACC ACS T SHP F of R253. -/
def maRes (f : FMA) (acc acs t shp ff : Bool) : Bool :=
  (acc || f.acc.toNat == 0) && (acs || f.acs.toNat == 0) && (t || f.t.toNat == 0) &&
  (shp || f.shp.toNat == 0) && (ff || f.f.toNat == 0)

/-- Extension fields of MA forms: VA and VB, GT (R253). -/
def maResE (f : FMA) (v gt : Bool) : Bool :=
  match f.ext with
  | none => true
  | some x => (v || (x.va.toNat == 0 && x.vb.toNat == 0)) && (gt || x.gt.toNat == 0)

/-- VA and VB of an MA form, 0 without the extension word. -/
def FMA.va (f : FMA) : VSpec := match f.ext with | none => 0 | some x => x.va
def FMA.vb (f : FMA) : VSpec := match f.ext with | none => 0 | some x => x.vb
def FMA.gt (f : FMA) : Nat := match f.ext with | none => 0 | some x => x.gt.toNat

/-- SCAN forms: unused fields zero, in the order H TP Q REV SHP of R271. -/
def scRes (f : FScan) (h tp q rev shp : Bool) : Bool :=
  (h || f.h.toNat == 0) && (tp || f.tp.toNat == 0) && (q || f.q.toNat == 0) && (rev || !f.rev) &&
  (shp || f.shp.toNat == 0)

/-- Extension fields of SCAN forms: LAND, TP step, W16 (R271). -/
def scResE (f : FScan) (land step w16 : Bool) : Bool :=
  match f.ext with
  | none => true
  | some x => (land || x.land.toNat == 0) && (step || x.step.toNat == 0) && (w16 || x.w16.toNat == 0)

/-- W16 of a SCAN form. -/
def FScan.w16n (f : FScan) : Nat := match f.ext with | none => 0 | some x => x.w16.toNat

/-- Class 0, reason 1 on the slot word: an unused field is nonzero. (DEDUCED, log 25) -/
def resW (i : Instr) : Bool :=
  match vform i with
  | some (f, u) =>
    vrResW f u (match i with | .vmov _ => true | _ => false) (match i with | .vunpack _ => true | _ => false)
  | none =>
    match i with
    | .vld f => f.vi.toNat == 0
    | .vldTs f => f.vi.toNat == 0 && !f.bypass
    | .vldSc f => f.vi.toNat == 0 && f.bypass
    | .vst f => f.vi.toNat == 0
    | .vstTs f => f.vi.toNat == 0 && !f.bypass
    | .vstSc f => f.vi.toNat == 0 && f.bypass
    | .vplane f => f.vi.toNat < 16 && !f.bypass
    | .vdeplane f => f.vi.toNat < 16 && !f.bypass
    | .azero f => maRes f true false false false false
    | .amov f => maRes f true true false false false
    | .anorm f => maRes f true false false false false
    | .agetx f => maRes f true false false false false
    | .ascl f => maRes f true true false true false
    | .aaddt f => maRes f true false true true true
    | .awin f => maRes f true false true false true
    | .acommit f => maRes f true false false false false
    | .epix f => f.shp.toNat == 0 && f.df.toNat == 0 && f.rnd.toNat == 0
    | .scant f => scRes f true false true false false
    | .scanc f => scRes f true true true false true
    | .qset f => scRes f false true true false false
    | .step f => scRes f true true true false true
    | .stepy f => scRes f true true true false true
    | .hld f => scRes f true true false false false
    | .hst f => scRes f true true false false false
    | .hzero f => scRes f true false true false false
    | .tld f => f.md.toNat < 8
    | .tst f => f.md.toNat < 8
    | .tldm f => f.md.toNat < 16
    | .tldd f => f.md.toNat == 0
    | .tpf f => f.md.toNat == 0 && f.t.toNat == 0
    | .tcpy f => f.md.toNat < 8 && f.xc.toNat == 0
    | .racc f => f.md.toNat == 0 && f.xc.toNat == 0 && f.t.toNat < 8
    | .nsend f => !f.any
    | .nrecv f => f.a.toNat == 0
    | .cysnd f => f.t.toNat < 8
    | .cyrcv f => f.t.toNat < 8
    | _ => true

/-- Class 0, reason 1 on the extension word. -/
def resE (i : Instr) : Bool :=
  match vform i with
  | some (f, u) => vrResE f u
  | none =>
    match i with
    | .vnop x => match x with
      | none => true
      | some x => x.w.toNat == 0 && !x.im && (x.st || x.imm.toNat == 0)
    | .vplane f => match f.ext with
      | none => true
      | some x => x.land.toNat == 0
    | .vdeplane f => match f.ext with
      | none => true
      | some x => x.land.toNat == 0
    | .mnop x => match x with
      | none => true
      | some x => x.va.toNat == 0 && x.vb.toNat == 0 && x.gt.toNat == 0
    | .azero f => maResE f false false
    | .amov f => maResE f false false
    | .anorm f => maResE f false true
    | .agetx f => maResE f true false
    | .ascl f => maResE f true false
    | .aaddt f => maResE f false false
    | .awin f => maResE f false false
    | .acommit f => maResE f false false
    | .scan f => scResE f true true true
    | .scanl f => scResE f false true true
    | .scant f => scResE f true false true
    | .scanc f => scResE f false true true
    | .qset f => scResE f false true true
    | .step f => scResE f false true false
    | .stepy f => scResE f false true false
    | .hld f => scResE f false true false
    | .hst f => scResE f false true false
    | .hzero f => scResE f false false false
    | _ => true

/-- Class 0, reason 2 on the slot word: a reserved value in a coded field. -/
def codW (i : Instr) : Bool :=
  match vform i with
  | some (f, u) => vrCodW f u
  | none =>
    match i with
    | .loop e _ => e.toNat != 0
    | .loopr _ e => e.toNat != 0
    | .ld f => f.sz.toNat != 7
    | .st f => f.sz.toNat != 7
    | .vld f => f.v.toNat < 64
    | .vldTs f => f.v.toNat < 64
    | .vldSc f => f.v.toNat < 64
    | .vst f => f.v.toNat < 64
    | .vstTs f => f.v.toNat < 64
    | .vstSc f => f.v.toNat < 64
    | .vldg f => f.v.toNat < 64 && f.vi.toNat < 64
    | .vldgTs f => f.v.toNat < 64 && f.vi.toNat < 64 && !f.bypass
    | .vsts f => f.v.toNat < 64 && f.vi.toNat < 64
    | .vstsTs f => f.v.toNat < 64 && f.vi.toNat < 64 && !f.bypass
    | .vplane f => f.v.toNat < 64 && f.vi.toNat % 16 < 10
    | .vdeplane f => f.v.toNat < 64 && f.vi.toNat % 16 < 10
    | .latch f => f.bf.toNat < 9
    | .epi f => f.df.toNat < 10
    | .aaddt f => f.f.toNat < 10
    | .hzero f => f.q.toNat < 2
    | .tldm f => f.md.toNat < 8 || f.md.toNat % 8 == 0
    | _ => true

/-- Class 0, reason 2 on the extension word. -/
def codE (i : Instr) : Bool :=
  match vform i with
  | some (f, _) => vrCodE f
  | none =>
    match i with
    | .vnop x => match x with
      | none => true
      | some x => x.w.toNat != 3 && !(x.st && x.im)
    | .fadd f => match f.ext with
      | none => true
      | some x => x.rel || !x.sce
    | .fset f => match f.ext with
      | none => true
      | some x => x.rel || !x.sce
    | .signal _ e => match e with
      | none => true
      | some x => x.rel || !x.sce
    | .anorm f => FMA.gt f < 48
    | .agetx f => (FMA.va f).toNat < 64 && (FMA.vb f).toNat < 64 && FMA.va f ≠ FMA.vb f
    | .ascl f => VSpecOk (FMA.va f) && VSpecOk (FMA.vb f)
    | .scan f => FScan.w16n f % 32 == 0
    | .scanl f => FScan.w16n f % 32 == 0
    | .scant f => FScan.w16n f % 32 == 0
    | .scanc f => FScan.w16n f % 32 == 0
    | _ => true

end Sys2Proof.Machine
end

