-- ==== Sys2Proof/WellFormed.lean ====
section
/-! DEFINITION. Well-formed instructions: every unused field zero, no reserved value in a coded field (R178). -/

namespace Sys2Proof

/-- An instruction that is no illegal encoding. Events carry no encoding and are well formed. -/
def WellFormed (i : Instr) : Bool :=
  Machine.resW i && Machine.resE i && Machine.codW i && Machine.codE i

end Sys2Proof
end

