-- ==== Sys2Proof/Decode.lean ====
section
/-! DEFINITION. Decoding of slot words and bundle headers (R157, R158, R172 to R183), rejecting illegal encodings with
the reason of R388 and R404, and the encoder, written from the same tables. -/

namespace Sys2Proof

/-- An illegal encoding of a slot: the reason of R388 (0 reserved opcode, 1 reserved field, 2 reserved value, 3 X wrong)
and whether the first offending word is the extension word (R403). -/
structure Reject where
  reason : Nat
  ext : Bool
deriving DecidableEq, Repr

/-- A field of n bits at bit lo of a word. -/
def fldAt (n lo w : Nat) : BitVec n := BitVec.ofNat n (w / 2 ^ lo)

/-- One bit of a word. -/
def bitAt (lo w : Nat) : Bool := w / 2 ^ lo % 2 == 1

/-- The bits hi:lo of a word are zero. -/
def zeroAt (n lo w : Nat) : Bool := w / 2 ^ lo % 2 ^ n == 0

/-- What a format reads out of a slot word and its extension word: the instruction, whether the format's reserved bits
of the slot word and of the extension word are zero, whether X is right for the form, and a coded value that the
instruction cannot hold. -/
structure Parsed where
  instr : Instr
  zw : Bool := true
  ze : Bool := true
  xok : Bool := true
  cod : Bool := true

/-- A format's reader: slot word, extension word. -/
abbrev Parser := Nat → Option Nat → Parsed

def extVExt (e : Nat) : VExt :=
  { w := fldAt 2 30 e, rm := fldAt 2 28 e, sat := bitAt 27 e, cc := fldAt 3 24 e, st := bitAt 23 e, im := bitAt 22 e,
    imm := fldAt 21 0 e }
def extRel (e : Nat) : RelExt := { rel := bitAt 31 e, sce := bitAt 30 e, scope := fldAt 2 28 e }
def extMA (e : Nat) : MAExt := { va := fldAt 7 25 e, vb := fldAt 7 18 e, gt := fldAt 6 12 e }
def extCT (e : Nat) : CTExt :=
  { tstep := fldAt 8 24 e, rstep := fldAt 4 20 e, cstep := fldAt 4 16 e, land := fldAt 16 0 e }
def extCN (e : Nat) : CNExt := { tstep := fldAt 8 24 e, land := fldAt 16 0 e }

/-- Is an optional extension word's bit field zero (true when the word is absent)? -/
def zeroE (n lo : Nat) (e : Option Nat) : Bool :=
  match e with
  | none => true
  | some x => zeroAt n lo x

/-- An immediate: the short field at bit 0, or the extension word, the short field then being zero (R189). -/
def immOf (n : Nat) (w : Nat) (e : Option Nat) : Imm n :=
  match e with
  | none => .short (fldAt n 0 w)
  | some x => .long (fldAt 32 0 x)
def immZero (n : Nat) (w : Nat) (e : Option Nat) : Bool :=
  match e with
  | none => true
  | some _ => zeroAt n 0 w

/-- Forms with no field. -/
def pS0 (i : Instr) : Parser := fun w e => { instr := i, zw := zeroAt 24 0 w, xok := e.isNone }
def pSR (mk : FSR → Instr) : Parser := fun w e =>
  { instr := mk ⟨fldAt 5 19 w, fldAt 5 14 w, fldAt 5 9 w, bitAt 0 w⟩, zw := zeroAt 8 1 w, xok := e.isNone }
def pSR1 (mk : FSR1 → Instr) : Parser := fun w e =>
  { instr := mk ⟨fldAt 5 19 w, fldAt 5 14 w, bitAt 0 w⟩, zw := zeroAt 13 1 w, xok := e.isNone }
def pSI (mk : FSI → Instr) : Parser := fun w e =>
  { instr := mk ⟨fldAt 5 19 w, fldAt 5 14 w, immOf 14 w e⟩, zw := immZero 14 w e }
def pLI (mk : XNum → Imm 14 → Instr) : Parser := fun w e =>
  { instr := mk (fldAt 5 19 w) (immOf 14 w e), zw := zeroAt 5 14 w && immZero 14 w e }
def pSB (mk : FSB → Instr) : Parser := fun w e =>
  { instr := mk ⟨fldAt 5 19 w, fldAt 5 14 w, immOf 14 w e⟩, zw := immZero 14 w e }
def pSJ (mk : Imm 24 → Instr) : Parser := fun w e => { instr := mk (immOf 24 w e), zw := immZero 24 w e }
def pLOOP (mk : BitVec 16 → BitVec 32 → Instr) : Parser := fun w e =>
  { instr := mk (fldAt 16 0 w) (fldAt 32 0 (e.getD 0)), zw := zeroAt 8 16 w, xok := e.isSome }
def pLOOPR (mk : XNum → BitVec 16 → Instr) : Parser := fun w e =>
  { instr := mk (fldAt 5 19 w) (fldAt 16 0 w), zw := zeroAt 3 16 w, xok := e.isNone }
def pSM (mk : FSM → Instr) : Parser := fun w e =>
  { instr := mk ⟨fldAt 5 19 w, fldAt 5 14 w, fldAt 3 11 w, bitAt 10 w,
      (match e with | none => .short (fldAt 10 0 w) | some x => .long (fldAt 12 20 x) (fldAt 20 0 x))⟩,
    zw := immZero 10 w e }
def pSA (mk : FSA → Instr) : Parser := fun w e =>
  { instr := mk ⟨fldAt 5 19 w, fldAt 5 14 w, fldAt 5 9 w, bitAt 8 w, e.map (fldAt 12 20)⟩, zw := zeroAt 8 0 w,
    ze := zeroE 20 0 e }
def pCSRR (mk : XNum → BitVec 14 → Instr) : Parser := fun w e =>
  { instr := mk (fldAt 5 19 w) (fldAt 14 0 w), zw := zeroAt 5 14 w, xok := e.isNone }
def pSC (mk : FSC → Instr) : Parser := fun w e =>
  { instr := mk ⟨fldAt 5 19 w, fldAt 5 14 w, fldAt 14 0 w⟩, xok := e.isNone }
def pSHSET (mk : XNum → BitVec 4 → Instr) : Parser := fun w e =>
  { instr := mk (fldAt 5 14 w) (fldAt 4 0 w), zw := zeroAt 5 19 w && zeroAt 10 4 w, xok := e.isNone }
def pSHGET (mk : XNum → BitVec 4 → Instr) : Parser := fun w e =>
  { instr := mk (fldAt 5 19 w) (fldAt 4 0 w), zw := zeroAt 15 4 w, xok := e.isNone }
def pSQ (mk : FSQ → Instr) : Parser := fun w e =>
  { instr := mk ⟨fldAt 5 19 w, fldAt 5 14 w, fldAt 5 9 w⟩, zw := zeroAt 9 0 w, xok := e.isNone }
def pFF (mk : FFlag → Instr) : Parser := fun w e =>
  { instr := mk ⟨fldAt 5 14 w, fldAt 5 9 w, fldAt 9 0 w, e.map extRel⟩, zw := zeroAt 5 19 w, ze := zeroE 28 0 e }
def pFTEST (mk : XNum → BitVec 9 → Instr) : Parser := fun w e =>
  { instr := mk (fldAt 5 19 w) (fldAt 9 0 w), zw := zeroAt 10 9 w, xok := e.isNone }
def pFWAIT (mk : FSQ → BitVec 9 → Instr) : Parser := fun w e =>
  { instr := mk ⟨fldAt 5 19 w, fldAt 5 14 w, fldAt 5 9 w⟩ (fldAt 9 0 w), xok := e.isNone }
def pFCLR (mk : BitVec 9 → Instr) : Parser := fun w e =>
  { instr := mk (fldAt 9 0 w), zw := zeroAt 15 9 w, xok := e.isNone }
def pSIG (mk : XNum → Option RelExt → Instr) : Parser := fun w e =>
  { instr := mk (fldAt 5 14 w) (e.map extRel), zw := zeroAt 5 19 w && zeroAt 14 0 w, ze := zeroE 28 0 e }
def pSA1 (mk : XNum → Instr) : Parser := fun w e =>
  { instr := mk (fldAt 5 14 w), zw := zeroAt 5 19 w && zeroAt 14 0 w, xok := e.isNone }
def pSAB (mk : XNum → XNum → Instr) : Parser := fun w e =>
  { instr := mk (fldAt 5 14 w) (fldAt 5 9 w), zw := zeroAt 5 19 w && zeroAt 9 0 w, xok := e.isNone }
def pSDA (mk : XNum → XNum → Instr) : Parser := fun w e =>
  { instr := mk (fldAt 5 19 w) (fldAt 5 14 w), zw := zeroAt 14 0 w, xok := e.isNone }
def pDRAIN (mk : XNum → BitVec 2 → Instr) : Parser := fun w e =>
  { instr := mk (fldAt 5 19 w) (fldAt 2 0 w), zw := zeroAt 17 2 w, xok := e.isNone }
def pTRAP (mk : BitVec 5 → Instr) : Parser := fun w e =>
  { instr := mk (fldAt 5 0 w), zw := zeroAt 10 14 w, cod := w % 2 ^ 14 < 32, xok := e.isNone }
def pVN (mk : Option VExt → Instr) : Parser := fun w e =>
  { instr := mk (e.map extVExt), zw := zeroAt 24 0 w, ze := zeroE 1 21 e }
def pVR (mk : FVR → Instr) : Parser := fun w e =>
  { instr := mk ⟨fldAt 7 17 w, fldAt 7 10 w, fldAt 7 3 w, fldAt 3 0 w, e.map extVExt⟩, ze := zeroE 1 21 e }
def fvm (w : Nat) (e : Option Nat) : FVM :=
  ⟨fldAt 7 17 w, fldAt 5 12 w, bitAt 11 w, fldAt 3 7 w, fldAt 7 0 w,
    e.map (fun x => ⟨fldAt 12 20 x, fldAt 20 0 x⟩)⟩
/-- V.M with TS and BY choosing among the flat, tile-store and sidecar forms. -/
def pVMS (flat ts sc : FVM → Instr) : Parser := fun w e =>
  { instr := (if bitAt 10 w then (if bitAt 11 w then sc else ts) else flat) (fvm w e) }
def pVP (mk : FVM → Instr) : Parser := fun w e => { instr := mk (fvm w e), zw := zeroAt 1 10 w }
def pMN (mk : Option MAExt → Instr) : Parser := fun w e =>
  { instr := mk (e.map extMA), zw := zeroAt 24 0 w, ze := zeroE 12 0 e }
def pMMA (mk : FMMA → Instr) : Parser := fun w e =>
  { instr := mk ⟨fldAt 3 21 w, fldAt 8 13 w, fldAt 2 11 w, fldAt 4 7 w, bitAt 6 w, bitAt 5 w, fldAt 3 2 w,
      e.map (fun x => ⟨fldAt 8 8 x, fldAt 4 4 x, fldAt 4 0 x⟩)⟩, zw := zeroAt 2 0 w, ze := zeroE 16 16 e }
def pLT (mk : FLatch → Instr) : Parser := fun w e =>
  { instr := mk ⟨fldAt 2 22 w, fldAt 8 14 w, fldAt 4 10 w, fldAt 4 6 w, e.map (fldAt 8 8)⟩, zw := zeroAt 6 0 w,
    ze := zeroE 16 16 e && zeroE 8 0 e }
def pEP (mk : FEpi → Instr) : Parser := fun w e =>
  { instr := mk ⟨fldAt 3 21 w, fldAt 8 13 w, fldAt 4 9 w, fldAt 4 5 w, fldAt 2 3 w, e.map (fldAt 8 8)⟩,
    zw := zeroAt 3 0 w, ze := zeroE 16 16 e && zeroE 8 0 e }
def pMA (mk : FMA → Instr) : Parser := fun w e =>
  { instr := mk ⟨fldAt 3 21 w, fldAt 3 18 w, fldAt 8 10 w, fldAt 4 6 w, fldAt 4 2 w, e.map extMA⟩, zw := zeroAt 2 0 w,
    ze := zeroE 12 0 e }
def pSN (mk : FScan → Instr) : Parser := fun w e =>
  { instr := mk ⟨fldAt 3 21 w, fldAt 8 13 w, fldAt 3 10 w, bitAt 9 w, fldAt 4 5 w,
      e.map (fun x => ⟨fldAt 12 20 x, fldAt 8 8 x, fldAt 8 0 x⟩)⟩, zw := zeroAt 5 0 w, ze := zeroE 4 16 e }
def pCT (mk : FCT → Instr) : Parser := fun w e =>
  { instr := mk ⟨fldAt 8 16 w, fldAt 5 11 w, fldAt 5 6 w, fldAt 6 0 w, e.map extCT⟩ }
def pCN (mk : FCN → Instr) : Parser := fun w e =>
  { instr := mk ⟨fldAt 8 16 w, fldAt 2 14 w, fldAt 4 10 w, fldAt 5 5 w, bitAt 4 w, e.map extCN⟩, zw := zeroAt 4 0 w,
    ze := zeroE 8 16 e }
def pCY (mk : FCY → Instr) : Parser := fun w e =>
  { instr := mk ⟨fldAt 3 21 w, fldAt 8 13 w, fldAt 5 8 w, e.map extCN⟩, zw := zeroAt 8 0 w, ze := zeroE 8 16 e }
def pCL1 (mk : XNum → Instr) : Parser := fun w e =>
  { instr := mk (fldAt 5 19 w), zw := zeroAt 19 0 w, xok := e.isNone }
def pCL2 (mk : XNum → XNum → Instr) : Parser := fun w e =>
  { instr := mk (fldAt 5 19 w) (fldAt 5 14 w), zw := zeroAt 14 0 w, xok := e.isNone }
def pCX (mk : FCX → Instr) : Parser := fun w e =>
  { instr := mk ⟨fldAt 5 19 w, fldAt 5 14 w, fldAt 5 9 w, fldAt 9 0 w⟩, xok := e.isNone }
def pXPLAN (mk : XNum → XNum → BitVec 4 → Instr) : Parser := fun w e =>
  { instr := mk (fldAt 5 19 w) (fldAt 5 14 w) (fldAt 4 0 w), zw := zeroAt 10 4 w, xok := e.isNone }
/-- XSTAT: FN 0 to 6 select the action (R304); higher values are illegal encodings. -/
def pXSTAT : Parser := fun w e =>
  let d : XNum := fldAt 5 19 w
  let a : XNum := fldAt 5 14 w
  let b : XNum := fldAt 5 9 w
  let i := match w % 2 ^ 9 with
    | 0 => Instr.xstatStatus d a b
    | 1 => .xstatTake d a b
    | 2 => .xstatReadA d a b
    | 3 => .xstatReadB d a b
    | 4 => .xstatComplete d a b
    | 5 => .xstatFail d a b
    | _ => .xstatPlanStatus d a b
  { instr := i, cod := w % 2 ^ 9 < 7, xok := e.isNone }

def scalarMap0 : List (Nat × Parser) := [
  (0x00, pS0 .nop),
  (0x01, pSR .add),
  (0x02, pSR .sub),
  (0x03, pSR .and_),
  (0x04, pSR .or_),
  (0x05, pSR .xor_),
  (0x06, pSR .shl),
  (0x07, pSR .shr),
  (0x08, pSR .sra),
  (0x09, pSR .slt),
  (0x0A, pSR .sltu),
  (0x0B, pSR .min_),
  (0x0C, pSR .max_),
  (0x0D, pSR .minu),
  (0x0E, pSR .maxu),
  (0x0F, pSR .mul),
  (0x10, pSR .mulh),
  (0x11, pSR .mulhu),
  (0x12, pSR .div),
  (0x13, pSR .divu),
  (0x14, pSR .rem),
  (0x15, pSR .remu),
  (0x16, pSR .adds),
  (0x17, pSR .subs)]
def scalarMap1 : List (Nat × Parser) := [
  (0x18, pSR1 .clz),
  (0x19, pSR1 .popc),
  (0x1A, pSR .seq),
  (0x1B, pSR .sne),
  (0x1C, pSR .addx),
  (0x20, pSI .addi),
  (0x21, pSI .andi),
  (0x22, pSI .ori),
  (0x23, pSI .xori),
  (0x24, pSI .shli),
  (0x25, pSI .shri),
  (0x26, pSI .srai),
  (0x27, pSI .slti),
  (0x28, pSI .sltiu),
  (0x29, pLI .li),
  (0x2A, pSI .lih),
  (0x30, pSB .beq),
  (0x31, pSB .bne),
  (0x32, pSB .blt),
  (0x33, pSB .bge),
  (0x34, pSB .bltu),
  (0x35, pSB .bgeu),
  (0x36, pSJ .j),
  (0x37, pSJ .jal)]
def scalarMap2 : List (Nat × Parser) := [
  (0x38, pSI .jalr),
  (0x39, pLOOP .loop),
  (0x3A, pLOOPR .loopr),
  (0x40, pSM .ld),
  (0x41, pSM .st),
  (0x44, pSA .amoadd),
  (0x45, pSA .amoand),
  (0x46, pSA .amoor),
  (0x47, pSA .amoxor),
  (0x48, pSA .amomin),
  (0x49, pSA .amomax),
  (0x4A, pSA .amominu),
  (0x4B, pSA .amomaxu),
  (0x4C, pSA .amoswap),
  (0x4D, pSA .amocas),
  (0x4E, pSA .amofadd),
  (0x50, pCSRR .csrr),
  (0x51, pSC .csrw),
  (0x52, pSC .csrs),
  (0x53, pSC .csrc),
  (0x54, pSHSET .shset),
  (0x55, pSHGET .shget),
  (0x58, pSQ .qpush),
  (0x59, pSQ .qpop)]
def scalarMap3 : List (Nat × Parser) := [
  (0x5A, pSQ .qpeek),
  (0x5B, pFF .fadd),
  (0x5C, pFF .fset),
  (0x5D, pFTEST .ftest),
  (0x5E, pFWAIT .fwait),
  (0x5F, pFCLR .fclr),
  (0x60, pSIG .signal),
  (0x61, pS0 .yield),
  (0x62, pSA1 .sleepuntil),
  (0x63, pSAB .msarm),
  (0x64, pDRAIN .drain),
  (0x70, pTRAP .trap),
  (0x71, pS0 .eret),
  (0x72, pS0 .exit),
  (0x73, pS0 .brk),
  (0x74, pSAB .tlbinv),
  (0x75, pS0 .ttinv),
  (0x76, pSDA .wipe)]

/-- The opcode map of the scalar slot (R180). -/
def scalarMap : List (Nat × Parser) := scalarMap0 ++ scalarMap1 ++ scalarMap2 ++ scalarMap3

def vectorMap0 : List (Nat × Parser) := [
  (0x00, pVN .vnop),
  (0x01, pVR .vadd),
  (0x02, pVR .vsub),
  (0x03, pVR .vmul),
  (0x04, pVR .vmulh),
  (0x05, pVR .vand),
  (0x06, pVR .vor),
  (0x07, pVR .vxor),
  (0x08, pVR .vshl),
  (0x09, pVR .vshr),
  (0x0A, pVR .vsra),
  (0x0B, pVR .vmin),
  (0x0C, pVR .vmax),
  (0x0D, pVR .vabs),
  (0x0E, pVR .vmad),
  (0x10, pVR .vfadd),
  (0x11, pVR .vfsub),
  (0x12, pVR .vfmul),
  (0x13, pVR .vfma),
  (0x14, pVR .vfmin),
  (0x15, pVR .vfmax),
  (0x16, pVR .vfneg),
  (0x17, pVR .vfrcp),
  (0x18, pVR .vfrsq)]
def vectorMap1 : List (Nat × Parser) := [
  (0x19, pVR .vfexp2),
  (0x1A, pVR .vflog2),
  (0x1B, pVR .vfdiv),
  (0x1C, pVR .vfsqrt),
  (0x20, pVR .vcmp),
  (0x21, pVR .vfcmp),
  (0x22, pVR .kand),
  (0x23, pVR .kor),
  (0x24, pVR .kxor),
  (0x25, pVR .knot),
  (0x26, pVR .kpopc),
  (0x27, pVR .vselk),
  (0x28, pVR .vcvt),
  (0x29, pVR .vpack),
  (0x2A, pVR .vunpack),
  (0x30, pVR .vshuf),
  (0x31, pVR .vbcast),
  (0x32, pVR .vslide),
  (0x34, pVR .vradd),
  (0x35, pVR .vrmax),
  (0x36, pVR .vrmin),
  (0x37, pVR .vrfadd),
  (0x38, pVR .vpushc),
  (0x39, pVR .vpopc)]
def vectorMap2 : List (Nat × Parser) := [
  (0x3A, pVR .vrebal),
  (0x3B, pVR .vscnt),
  (0x40, pVMS .vld .vldTs .vldSc),
  (0x41, pVMS .vst .vstTs .vstSc),
  (0x42, pVMS .vldg .vldgTs .vldgTs),
  (0x43, pVMS .vsts .vstsTs .vstsTs),
  (0x48, pVP .vplane),
  (0x49, pVP .vdeplane),
  (0x4C, pVR .vmov),
  (0x4D, pVR .vext)]

/-- The opcode map of the vector slot (R181). -/
def vectorMap : List (Nat × Parser) := vectorMap0 ++ vectorMap1 ++ vectorMap2

def matrixMap0 : List (Nat × Parser) := [
  (0x00, pMN .mnop),
  (0x01, pMMA .mma),
  (0x02, pMMA .mmas),
  (0x08, pLT .latch),
  (0x10, pMA .azero),
  (0x11, pMA .amov),
  (0x12, pMA .anorm),
  (0x13, pMA .agetx),
  (0x14, pMA .ascl),
  (0x15, pMA .aaddt),
  (0x18, pEP .epi),
  (0x1A, pEP .epix),
  (0x1C, pMA .awin),
  (0x1D, pMA .acommit),
  (0x20, pSN .scan),
  (0x21, pSN .scanl),
  (0x22, pSN .scant),
  (0x23, pSN .scanc),
  (0x24, pSN .qset),
  (0x28, pSN .step),
  (0x29, pSN .stepy),
  (0x2C, pSN .hld),
  (0x2D, pSN .hst),
  (0x2E, pSN .hzero)]

/-- The opcode map of the matrix slot (R182). -/
def matrixMap : List (Nat × Parser) := matrixMap0

def copyMap0 : List (Nat × Parser) := [
  (0x00, pS0 .cnop),
  (0x01, pCT .tld),
  (0x02, pCT .tldm),
  (0x03, pCT .tldd),
  (0x04, pCT .tldg),
  (0x08, pCT .tst),
  (0x09, pCT .tsts),
  (0x0C, pCT .tcpy),
  (0x0D, pCT .racc),
  (0x10, pCT .tpf),
  (0x14, pCN .nsend),
  (0x15, pCN .nrecv),
  (0x18, pCL1 .lacq),
  (0x19, pCL1 .lrel),
  (0x1A, pCL2 .lhint),
  (0x1C, pCX .creq),
  (0x1D, pSDA .cpoll),
  (0x20, pXPLAN .xplan),
  (0x21, pSDA .xstep),
  (0x22, pXSTAT),
  (0x23, pSDA .xabort),
  (0x28, pCY .cysnd),
  (0x29, pCY .cyrcv)]

/-- The opcode map of the copy slot (R183). -/
def copyMap : List (Nat × Parser) := copyMap0

/-- The parser of an opcode, if the map lists it. -/
def opFind : List (Nat × Parser) → Nat → Option Parser
  | [], _ => none
  | (k, p) :: r, op => if k = op then some p else opFind r op

/-- The opcode map of a slot. -/
def slotMap : Slot → List (Nat × Parser)
  | .s => scalarMap
  | .v0 => vectorMap
  | .v1 => vectorMap
  | .m => matrixMap
  | .c0 => copyMap
  | .c1 => copyMap

/-- Test a parsed slot in the order of R404: reserved fields, reserved values, X. -/
def Parsed.check (p : Parsed) : Except Reject Instr :=
  if !(p.zw && Machine.resW p.instr) then .error ⟨1, false⟩
  else if !(p.ze && Machine.resE p.instr) then .error ⟨1, true⟩
  else if !(p.cod && Machine.codW p.instr) then .error ⟨2, false⟩
  else if !(Machine.codE p.instr) then .error ⟨2, true⟩
  else if !p.xok then .error ⟨3, false⟩
  else .ok p.instr

/-- Decode a slot word and its extension word (present exactly when X = 1) in a slot (R172, R178, R404). -/
def decodeSlot (sl : Slot) (w : Nat) (e : Option Nat) : Except Reject Instr :=
  match opFind (slotMap sl) (w / 2 ^ 25 % 128) with
  | none => .error ⟨0, false⟩
  | some p => (p w e).check

/-- A bundle header (R158). -/
structure Header where
  pm : BitVec 6
  rr : Bool
  rpt : BitVec 5
  stall : BitVec 4
  sclr : Bool
deriving DecidableEq, Repr

/-- Decode a header word; reasons 0 (MARK) and 1 (bits 10:0) of class 0, header (R388). -/
def decodeHeader (w : Nat) : Except Reject Header :=
  if w / 2 ^ 28 % 16 ≠ 11 then .error ⟨0, false⟩
  else if w % 2 ^ 11 ≠ 0 then .error ⟨1, false⟩
  else .ok { pm := fldAt 6 22 w, rr := bitAt 21 w, rpt := fldAt 5 16 w, stall := fldAt 4 12 w, sclr := bitAt 11 w }

/-- The header word of a header. -/
def encodeHeader (h : Header) : Nat :=
  11 * 2 ^ 28 + h.pm.toNat * 2 ^ 22 + h.rr.toNat * 2 ^ 21 + h.rpt.toNat * 2 ^ 16 + h.stall.toNat * 2 ^ 12 +
    h.sclr.toNat * 2 ^ 11

/-- The slots in presence-mask order (R157). -/
def allSlots : List Slot := [.s, .v0, .v1, .m, .c0, .c1]

/-- Bit of a slot in PM and in TCAUSE.SLOTS. -/
def Slot.idx : Slot → Nat
  | .s => 0
  | .v0 => 1
  | .v1 => 2
  | .m => 3
  | .c0 => 4
  | .c1 => 5

/-- One slot of a bundle as fetched: slot, word, extension word. -/
structure RawSlot where
  slot : Slot
  word : Nat
  ext : Option Nat
deriving DecidableEq, Repr

/-- Split the words after a header into slots by PM (R157); none when words are missing. Answers the number of words
used. -/
def splitSlots : List Slot → List Nat → Option (List RawSlot × Nat)
  | [], _ => some ([], 0)
  | sl :: r, w :: ws =>
    if bitAt 24 w then
      match ws with
      | [] => none
      | e :: ws' => match splitSlots r ws' with
        | none => none
        | some (l, n) => some (⟨sl, w, some e⟩ :: l, n + 2)
    else match splitSlots r ws with
      | none => none
      | some (l, n) => some (⟨sl, w, none⟩ :: l, n + 1)
  | _ :: _, [] => none

/-- The slots that a header says are present. -/
def Header.present (h : Header) : List Slot := allSlots.filter (fun sl => h.pm.getLsbD sl.idx)

def w0 (op : Nat) (x : Bool) : Nat := op * 2 ^ 25 + x.toNat * 2 ^ 24
def eRel (x : RelExt) : Nat := x.rel.toNat * 2 ^ 31 + x.sce.toNat * 2 ^ 30 + x.scope.toNat * 2 ^ 28
def eVExt (x : VExt) : Nat :=
  x.w.toNat * 2 ^ 30 + x.rm.toNat * 2 ^ 28 + x.sat.toNat * 2 ^ 27 + x.cc.toNat * 2 ^ 24 + x.st.toNat * 2 ^ 23 +
    x.im.toNat * 2 ^ 22 + x.imm.toNat
def eMAExt (x : MAExt) : Nat := x.va.toNat * 2 ^ 25 + x.vb.toNat * 2 ^ 18 + x.gt.toNat * 2 ^ 12
/-- Whether an immediate takes the extension word, its slot-word field and its extension word. -/
def Imm.isLong {n : Nat} : Imm n → Bool
  | .short _ => false
  | .long _ => true
def Imm.low {n : Nat} : Imm n → Nat
  | .short v => v.toNat
  | .long _ => 0
def Imm.ext {n : Nat} : Imm n → Option Nat
  | .short _ => none
  | .long v => some v.toNat
def eSR (op : Nat) (f : FSR) : Nat × Option Nat :=
  (w0 op false + f.d.toNat * 2 ^ 19 + f.a.toNat * 2 ^ 14 + f.b.toNat * 2 ^ 9 + f.w.toNat, none)
def eSR1 (op : Nat) (f : FSR1) : Nat × Option Nat :=
  (w0 op false + f.d.toNat * 2 ^ 19 + f.a.toNat * 2 ^ 14 + f.w.toNat, none)
def eSI (op : Nat) (f : FSI) : Nat × Option Nat :=
  (w0 op f.imm.isLong + f.d.toNat * 2 ^ 19 + f.a.toNat * 2 ^ 14 + f.imm.low, f.imm.ext)
def eSB (op : Nat) (f : FSB) : Nat × Option Nat :=
  (w0 op f.off.isLong + f.a.toNat * 2 ^ 19 + f.b.toNat * 2 ^ 14 + f.off.low, f.off.ext)
def eSJ (op : Nat) (off : Imm 24) : Nat × Option Nat := (w0 op off.isLong + off.low, off.ext)
def eSM (op : Nat) (f : FSM) : Nat × Option Nat :=
  let base := f.d.toNat * 2 ^ 19 + f.a.toNat * 2 ^ 14 + f.sz.toNat * 2 ^ 11 + f.bypass.toNat * 2 ^ 10
  match f.off with
  | .short o => (w0 op false + base + o.toNat, none)
  | .long l o => (w0 op true + base, some (l.toNat * 2 ^ 20 + o.toNat))
def eSA (op : Nat) (f : FSA) : Nat × Option Nat :=
  (w0 op f.land.isSome + f.d.toNat * 2 ^ 19 + f.a.toNat * 2 ^ 14 + f.b.toNat * 2 ^ 9 + f.w.toNat * 2 ^ 8,
    f.land.map (fun l => l.toNat * 2 ^ 20))
def eSC (op : Nat) (f : FSC) : Nat × Option Nat :=
  (w0 op false + f.d.toNat * 2 ^ 19 + f.a.toNat * 2 ^ 14 + f.csr.toNat, none)
def eSQ (op : Nat) (f : FSQ) : Nat × Option Nat :=
  (w0 op false + f.d.toNat * 2 ^ 19 + f.a.toNat * 2 ^ 14 + f.b.toNat * 2 ^ 9, none)
def eFF (op : Nat) (f : FFlag) : Nat × Option Nat :=
  (w0 op f.ext.isSome + f.a.toNat * 2 ^ 14 + f.b.toNat * 2 ^ 9 + f.flag.toNat, f.ext.map eRel)
def eVR (op : Nat) (f : FVR) : Nat × Option Nat :=
  (w0 op f.ext.isSome + f.d.toNat * 2 ^ 17 + f.a.toNat * 2 ^ 10 + f.b.toNat * 2 ^ 3 + f.k.toNat, f.ext.map eVExt)
def eVM (op : Nat) (ts : Bool) (f : FVM) : Nat × Option Nat :=
  (w0 op f.ext.isSome + f.v.toNat * 2 ^ 17 + f.a.toNat * 2 ^ 12 + f.bypass.toNat * 2 ^ 11 + ts.toNat * 2 ^ 10 +
    f.k.toNat * 2 ^ 7 + f.vi.toNat, f.ext.map (fun x => x.land.toNat * 2 ^ 20 + x.off.toNat))
def eMMA (op : Nat) (f : FMMA) : Nat × Option Nat :=
  (w0 op f.ext.isSome + f.acc.toNat * 2 ^ 21 + f.ta.toNat * 2 ^ 13 + f.lb.toNat * 2 ^ 11 + f.shp.toNat * 2 ^ 7 +
    f.n.toNat * 2 ^ 6 + f.z.toNat * 2 ^ 5 + f.af.toNat * 2 ^ 2,
    f.ext.map (fun x => x.step.toNat * 2 ^ 8 + x.pb.toNat * 2 ^ 4 + x.pa.toNat))
def eLT (op : Nat) (f : FLatch) : Nat × Option Nat :=
  (w0 op f.ext.isSome + f.lb.toNat * 2 ^ 22 + f.tb.toNat * 2 ^ 14 + f.shp.toNat * 2 ^ 10 + f.bf.toNat * 2 ^ 6,
    f.ext.map (fun x => x.toNat * 2 ^ 8))
def eEP (op : Nat) (f : FEpi) : Nat × Option Nat :=
  (w0 op f.ext.isSome + f.acc.toNat * 2 ^ 21 + f.td.toNat * 2 ^ 13 + f.shp.toNat * 2 ^ 9 + f.df.toNat * 2 ^ 5 +
    f.rnd.toNat * 2 ^ 3, f.ext.map (fun x => x.toNat * 2 ^ 8))
def eMA (op : Nat) (f : FMA) : Nat × Option Nat :=
  (w0 op f.ext.isSome + f.acc.toNat * 2 ^ 21 + f.acs.toNat * 2 ^ 18 + f.t.toNat * 2 ^ 10 + f.shp.toNat * 2 ^ 6 +
    f.f.toNat * 2 ^ 2, f.ext.map eMAExt)
def eSN (op : Nat) (f : FScan) : Nat × Option Nat :=
  (w0 op f.ext.isSome + f.h.toNat * 2 ^ 21 + f.tp.toNat * 2 ^ 13 + f.q.toNat * 2 ^ 10 + f.rev.toNat * 2 ^ 9 +
    f.shp.toNat * 2 ^ 5, f.ext.map (fun x => x.land.toNat * 2 ^ 20 + x.step.toNat * 2 ^ 8 + x.w16.toNat))
def eCT (op : Nat) (f : FCT) : Nat × Option Nat :=
  (w0 op f.ext.isSome + f.t.toNat * 2 ^ 16 + f.xh.toNat * 2 ^ 11 + f.xc.toNat * 2 ^ 6 + f.md.toNat,
    f.ext.map (fun x => x.tstep.toNat * 2 ^ 24 + x.rstep.toNat * 2 ^ 20 + x.cstep.toNat * 2 ^ 16 + x.land.toNat))
def eCNExt (x : CNExt) : Nat := x.tstep.toNat * 2 ^ 24 + x.land.toNat
def eCN (op : Nat) (f : FCN) : Nat × Option Nat :=
  (w0 op f.ext.isSome + f.t.toNat * 2 ^ 16 + f.dir.toNat * 2 ^ 14 + f.shp.toNat * 2 ^ 10 + f.a.toNat * 2 ^ 5 +
    f.any.toNat * 2 ^ 4, f.ext.map eCNExt)
def eCX (op : Nat) (f : FCX) : Nat × Option Nat :=
  (w0 op false + f.d.toNat * 2 ^ 19 + f.a.toNat * 2 ^ 14 + f.b.toNat * 2 ^ 9 + f.fn.toNat, none)
def eCY (op : Nat) (f : FCY) : Nat × Option Nat :=
  (w0 op f.ext.isSome + f.h.toNat * 2 ^ 21 + f.t.toNat * 2 ^ 13 + f.a.toNat * 2 ^ 8, f.ext.map eCNExt)

/-- The slot word and extension word of an instruction (R172 to R177); events have none. -/
def encode : Instr → Option (Nat × Option Nat)
  | .nop => some (w0 0x00 false, none)
  | .add f => some (eSR 0x01 f)
  | .sub f => some (eSR 0x02 f)
  | .and_ f => some (eSR 0x03 f)
  | .or_ f => some (eSR 0x04 f)
  | .xor_ f => some (eSR 0x05 f)
  | .shl f => some (eSR 0x06 f)
  | .shr f => some (eSR 0x07 f)
  | .sra f => some (eSR 0x08 f)
  | .slt f => some (eSR 0x09 f)
  | .sltu f => some (eSR 0x0A f)
  | .min_ f => some (eSR 0x0B f)
  | .max_ f => some (eSR 0x0C f)
  | .minu f => some (eSR 0x0D f)
  | .maxu f => some (eSR 0x0E f)
  | .mul f => some (eSR 0x0F f)
  | .mulh f => some (eSR 0x10 f)
  | .mulhu f => some (eSR 0x11 f)
  | .div f => some (eSR 0x12 f)
  | .divu f => some (eSR 0x13 f)
  | .rem f => some (eSR 0x14 f)
  | .remu f => some (eSR 0x15 f)
  | .adds f => some (eSR 0x16 f)
  | .subs f => some (eSR 0x17 f)
  | .clz f => some (eSR1 0x18 f)
  | .popc f => some (eSR1 0x19 f)
  | .seq f => some (eSR 0x1A f)
  | .sne f => some (eSR 0x1B f)
  | .addx f => some (eSR 0x1C f)
  | .addi f => some (eSI 0x20 f)
  | .andi f => some (eSI 0x21 f)
  | .ori f => some (eSI 0x22 f)
  | .xori f => some (eSI 0x23 f)
  | .shli f => some (eSI 0x24 f)
  | .shri f => some (eSI 0x25 f)
  | .srai f => some (eSI 0x26 f)
  | .slti f => some (eSI 0x27 f)
  | .sltiu f => some (eSI 0x28 f)
  | .li d imm => some (eSI 0x29 ⟨d, 0, imm⟩)
  | .lih f => some (eSI 0x2A f)
  | .beq f => some (eSB 0x30 f)
  | .bne f => some (eSB 0x31 f)
  | .blt f => some (eSB 0x32 f)
  | .bge f => some (eSB 0x33 f)
  | .bltu f => some (eSB 0x34 f)
  | .bgeu f => some (eSB 0x35 f)
  | .j off => some (eSJ 0x36 off)
  | .jal off => some (eSJ 0x37 off)
  | .jalr f => some (eSI 0x38 f)
  | .loop e n => some (w0 0x39 true + e.toNat, some n.toNat)
  | .loopr a e => some (w0 0x3A false + a.toNat * 2 ^ 19 + e.toNat, none)
  | .ld f => some (eSM 0x40 f)
  | .st f => some (eSM 0x41 f)
  | .amoadd f => some (eSA 0x44 f)
  | .amoand f => some (eSA 0x45 f)
  | .amoor f => some (eSA 0x46 f)
  | .amoxor f => some (eSA 0x47 f)
  | .amomin f => some (eSA 0x48 f)
  | .amomax f => some (eSA 0x49 f)
  | .amominu f => some (eSA 0x4A f)
  | .amomaxu f => some (eSA 0x4B f)
  | .amoswap f => some (eSA 0x4C f)
  | .amocas f => some (eSA 0x4D f)
  | .amofadd f => some (eSA 0x4E f)
  | .csrr d csr => some (w0 0x50 false + d.toNat * 2 ^ 19 + csr.toNat, none)
  | .csrw f => some (eSC 0x51 f)
  | .csrs f => some (eSC 0x52 f)
  | .csrc f => some (eSC 0x53 f)
  | .shset a n => some (w0 0x54 false + a.toNat * 2 ^ 14 + n.toNat, none)
  | .shget d n => some (w0 0x55 false + d.toNat * 2 ^ 19 + n.toNat, none)
  | .qpush f => some (eSQ 0x58 f)
  | .qpop f => some (eSQ 0x59 f)
  | .qpeek f => some (eSQ 0x5A f)
  | .fadd f => some (eFF 0x5B f)
  | .fset f => some (eFF 0x5C f)
  | .ftest d n => some (w0 0x5D false + d.toNat * 2 ^ 19 + n.toNat, none)
  | .fwait f n => some ((eSQ 0x5E f).1 + n.toNat, none)
  | .fclr n => some (w0 0x5F false + n.toNat, none)
  | .signal a x => some (w0 0x60 x.isSome + a.toNat * 2 ^ 14, x.map eRel)
  | .yield => some (w0 0x61 false, none)
  | .sleepuntil a => some (w0 0x62 false + a.toNat * 2 ^ 14, none)
  | .msarm a b => some (w0 0x63 false + a.toNat * 2 ^ 14 + b.toNat * 2 ^ 9, none)
  | .drain d sc => some (w0 0x64 false + d.toNat * 2 ^ 19 + sc.toNat, none)
  | .trap n => some (w0 0x70 false + n.toNat, none)
  | .eret => some (w0 0x71 false, none)
  | .exit => some (w0 0x72 false, none)
  | .brk => some (w0 0x73 false, none)
  | .tlbinv a b => some (w0 0x74 false + a.toNat * 2 ^ 14 + b.toNat * 2 ^ 9, none)
  | .ttinv => some (w0 0x75 false, none)
  | .wipe d a => some (w0 0x76 false + d.toNat * 2 ^ 19 + a.toNat * 2 ^ 14, none)
  | .vnop x => some (w0 0x00 x.isSome, x.map eVExt)
  | .vadd f => some (eVR 0x01 f)
  | .vsub f => some (eVR 0x02 f)
  | .vmul f => some (eVR 0x03 f)
  | .vmulh f => some (eVR 0x04 f)
  | .vand f => some (eVR 0x05 f)
  | .vor f => some (eVR 0x06 f)
  | .vxor f => some (eVR 0x07 f)
  | .vshl f => some (eVR 0x08 f)
  | .vshr f => some (eVR 0x09 f)
  | .vsra f => some (eVR 0x0A f)
  | .vmin f => some (eVR 0x0B f)
  | .vmax f => some (eVR 0x0C f)
  | .vabs f => some (eVR 0x0D f)
  | .vmad f => some (eVR 0x0E f)
  | .vfadd f => some (eVR 0x10 f)
  | .vfsub f => some (eVR 0x11 f)
  | .vfmul f => some (eVR 0x12 f)
  | .vfma f => some (eVR 0x13 f)
  | .vfmin f => some (eVR 0x14 f)
  | .vfmax f => some (eVR 0x15 f)
  | .vfneg f => some (eVR 0x16 f)
  | .vfrcp f => some (eVR 0x17 f)
  | .vfrsq f => some (eVR 0x18 f)
  | .vfexp2 f => some (eVR 0x19 f)
  | .vflog2 f => some (eVR 0x1A f)
  | .vfdiv f => some (eVR 0x1B f)
  | .vfsqrt f => some (eVR 0x1C f)
  | .vcmp f => some (eVR 0x20 f)
  | .vfcmp f => some (eVR 0x21 f)
  | .kand f => some (eVR 0x22 f)
  | .kor f => some (eVR 0x23 f)
  | .kxor f => some (eVR 0x24 f)
  | .knot f => some (eVR 0x25 f)
  | .kpopc f => some (eVR 0x26 f)
  | .vselk f => some (eVR 0x27 f)
  | .vcvt f => some (eVR 0x28 f)
  | .vpack f => some (eVR 0x29 f)
  | .vunpack f => some (eVR 0x2A f)
  | .vshuf f => some (eVR 0x30 f)
  | .vbcast f => some (eVR 0x31 f)
  | .vslide f => some (eVR 0x32 f)
  | .vradd f => some (eVR 0x34 f)
  | .vrmax f => some (eVR 0x35 f)
  | .vrmin f => some (eVR 0x36 f)
  | .vrfadd f => some (eVR 0x37 f)
  | .vpushc f => some (eVR 0x38 f)
  | .vpopc f => some (eVR 0x39 f)
  | .vrebal f => some (eVR 0x3A f)
  | .vscnt f => some (eVR 0x3B f)
  | .vld f => some (eVM 0x40 false f)
  | .vldTs f => some (eVM 0x40 true f)
  | .vldSc f => some (eVM 0x40 true f)
  | .vst f => some (eVM 0x41 false f)
  | .vstTs f => some (eVM 0x41 true f)
  | .vstSc f => some (eVM 0x41 true f)
  | .vldg f => some (eVM 0x42 false f)
  | .vldgTs f => some (eVM 0x42 true f)
  | .vsts f => some (eVM 0x43 false f)
  | .vstsTs f => some (eVM 0x43 true f)
  | .vplane f => some (eVM 0x48 false f)
  | .vdeplane f => some (eVM 0x49 false f)
  | .vmov f => some (eVR 0x4C f)
  | .vext f => some (eVR 0x4D f)
  | .mnop x => some (w0 0x00 x.isSome, x.map eMAExt)
  | .mma f => some (eMMA 0x01 f)
  | .mmas f => some (eMMA 0x02 f)
  | .latch f => some (eLT 0x08 f)
  | .azero f => some (eMA 0x10 f)
  | .amov f => some (eMA 0x11 f)
  | .anorm f => some (eMA 0x12 f)
  | .agetx f => some (eMA 0x13 f)
  | .ascl f => some (eMA 0x14 f)
  | .aaddt f => some (eMA 0x15 f)
  | .epi f => some (eEP 0x18 f)
  | .epix f => some (eEP 0x1A f)
  | .awin f => some (eMA 0x1C f)
  | .acommit f => some (eMA 0x1D f)
  | .scan f => some (eSN 0x20 f)
  | .scanl f => some (eSN 0x21 f)
  | .scant f => some (eSN 0x22 f)
  | .scanc f => some (eSN 0x23 f)
  | .qset f => some (eSN 0x24 f)
  | .step f => some (eSN 0x28 f)
  | .stepy f => some (eSN 0x29 f)
  | .hld f => some (eSN 0x2C f)
  | .hst f => some (eSN 0x2D f)
  | .hzero f => some (eSN 0x2E f)
  | .cnop => some (w0 0x00 false, none)
  | .tld f => some (eCT 0x01 f)
  | .tldm f => some (eCT 0x02 f)
  | .tldd f => some (eCT 0x03 f)
  | .tldg f => some (eCT 0x04 f)
  | .tst f => some (eCT 0x08 f)
  | .tsts f => some (eCT 0x09 f)
  | .tcpy f => some (eCT 0x0C f)
  | .racc f => some (eCT 0x0D f)
  | .tpf f => some (eCT 0x10 f)
  | .nsend f => some (eCN 0x14 f)
  | .nrecv f => some (eCN 0x15 f)
  | .lacq a => some (w0 0x18 false + a.toNat * 2 ^ 19, none)
  | .lrel a => some (w0 0x19 false + a.toNat * 2 ^ 19, none)
  | .lhint a b => some (w0 0x1A false + a.toNat * 2 ^ 19 + b.toNat * 2 ^ 14, none)
  | .creq f => some (eCX 0x1C f)
  | .cpoll d a => some (w0 0x1D false + d.toNat * 2 ^ 19 + a.toNat * 2 ^ 14, none)
  | .xplan d a n => some (w0 0x20 false + d.toNat * 2 ^ 19 + a.toNat * 2 ^ 14 + n.toNat, none)
  | .xstep d a => some (w0 0x21 false + d.toNat * 2 ^ 19 + a.toNat * 2 ^ 14, none)
  | .xstatStatus d a b => some (eCX 0x22 ⟨d, a, b, 0⟩)
  | .xstatTake d a b => some (eCX 0x22 ⟨d, a, b, 1⟩)
  | .xstatReadA d a b => some (eCX 0x22 ⟨d, a, b, 2⟩)
  | .xstatReadB d a b => some (eCX 0x22 ⟨d, a, b, 3⟩)
  | .xstatComplete d a b => some (eCX 0x22 ⟨d, a, b, 4⟩)
  | .xstatFail d a b => some (eCX 0x22 ⟨d, a, b, 5⟩)
  | .xstatPlanStatus d a b => some (eCX 0x22 ⟨d, a, b, 6⟩)
  | .xabort d a => some (w0 0x23 false + d.toNat * 2 ^ 19 + a.toNat * 2 ^ 14, none)
  | .cysnd f => some (eCY 0x28 f)
  | .cyrcv f => some (eCY 0x29 f)
  | _ => none

/-- The slot class of an encoded form: 0 scalar, 1 vector, 2 matrix, 3 copy (R180 to R183). -/
def slotClass : Instr → Nat
  | .nop => 0
  | .add _ => 0
  | .sub _ => 0
  | .and_ _ => 0
  | .or_ _ => 0
  | .xor_ _ => 0
  | .shl _ => 0
  | .shr _ => 0
  | .sra _ => 0
  | .slt _ => 0
  | .sltu _ => 0
  | .min_ _ => 0
  | .max_ _ => 0
  | .minu _ => 0
  | .maxu _ => 0
  | .mul _ => 0
  | .mulh _ => 0
  | .mulhu _ => 0
  | .div _ => 0
  | .divu _ => 0
  | .rem _ => 0
  | .remu _ => 0
  | .adds _ => 0
  | .subs _ => 0
  | .clz _ => 0
  | .popc _ => 0
  | .seq _ => 0
  | .sne _ => 0
  | .addx _ => 0
  | .addi _ => 0
  | .andi _ => 0
  | .ori _ => 0
  | .xori _ => 0
  | .shli _ => 0
  | .shri _ => 0
  | .srai _ => 0
  | .slti _ => 0
  | .sltiu _ => 0
  | .li _ _ => 0
  | .lih _ => 0
  | .beq _ => 0
  | .bne _ => 0
  | .blt _ => 0
  | .bge _ => 0
  | .bltu _ => 0
  | .bgeu _ => 0
  | .j _ => 0
  | .jal _ => 0
  | .jalr _ => 0
  | .loop _ _ => 0
  | .loopr _ _ => 0
  | .ld _ => 0
  | .st _ => 0
  | .amoadd _ => 0
  | .amoand _ => 0
  | .amoor _ => 0
  | .amoxor _ => 0
  | .amomin _ => 0
  | .amomax _ => 0
  | .amominu _ => 0
  | .amomaxu _ => 0
  | .amoswap _ => 0
  | .amocas _ => 0
  | .amofadd _ => 0
  | .csrr _ _ => 0
  | .csrw _ => 0
  | .csrs _ => 0
  | .csrc _ => 0
  | .shset _ _ => 0
  | .shget _ _ => 0
  | .qpush _ => 0
  | .qpop _ => 0
  | .qpeek _ => 0
  | .fadd _ => 0
  | .fset _ => 0
  | .ftest _ _ => 0
  | .fwait _ _ => 0
  | .fclr _ => 0
  | .signal _ _ => 0
  | .yield => 0
  | .sleepuntil _ => 0
  | .msarm _ _ => 0
  | .drain _ _ => 0
  | .trap _ => 0
  | .eret => 0
  | .exit => 0
  | .brk => 0
  | .tlbinv _ _ => 0
  | .ttinv => 0
  | .wipe _ _ => 0
  | .vnop _ => 1
  | .vadd _ => 1
  | .vsub _ => 1
  | .vmul _ => 1
  | .vmulh _ => 1
  | .vand _ => 1
  | .vor _ => 1
  | .vxor _ => 1
  | .vshl _ => 1
  | .vshr _ => 1
  | .vsra _ => 1
  | .vmin _ => 1
  | .vmax _ => 1
  | .vabs _ => 1
  | .vmad _ => 1
  | .vfadd _ => 1
  | .vfsub _ => 1
  | .vfmul _ => 1
  | .vfma _ => 1
  | .vfmin _ => 1
  | .vfmax _ => 1
  | .vfneg _ => 1
  | .vfrcp _ => 1
  | .vfrsq _ => 1
  | .vfexp2 _ => 1
  | .vflog2 _ => 1
  | .vfdiv _ => 1
  | .vfsqrt _ => 1
  | .vcmp _ => 1
  | .vfcmp _ => 1
  | .kand _ => 1
  | .kor _ => 1
  | .kxor _ => 1
  | .knot _ => 1
  | .kpopc _ => 1
  | .vselk _ => 1
  | .vcvt _ => 1
  | .vpack _ => 1
  | .vunpack _ => 1
  | .vshuf _ => 1
  | .vbcast _ => 1
  | .vslide _ => 1
  | .vradd _ => 1
  | .vrmax _ => 1
  | .vrmin _ => 1
  | .vrfadd _ => 1
  | .vpushc _ => 1
  | .vpopc _ => 1
  | .vrebal _ => 1
  | .vscnt _ => 1
  | .vld _ => 1
  | .vldTs _ => 1
  | .vldSc _ => 1
  | .vst _ => 1
  | .vstTs _ => 1
  | .vstSc _ => 1
  | .vldg _ => 1
  | .vldgTs _ => 1
  | .vsts _ => 1
  | .vstsTs _ => 1
  | .vplane _ => 1
  | .vdeplane _ => 1
  | .vmov _ => 1
  | .vext _ => 1
  | .mnop _ => 2
  | .mma _ => 2
  | .mmas _ => 2
  | .latch _ => 2
  | .azero _ => 2
  | .amov _ => 2
  | .anorm _ => 2
  | .agetx _ => 2
  | .ascl _ => 2
  | .aaddt _ => 2
  | .epi _ => 2
  | .epix _ => 2
  | .awin _ => 2
  | .acommit _ => 2
  | .scan _ => 2
  | .scanl _ => 2
  | .scant _ => 2
  | .scanc _ => 2
  | .qset _ => 2
  | .step _ => 2
  | .stepy _ => 2
  | .hld _ => 2
  | .hst _ => 2
  | .hzero _ => 2
  | .cnop => 3
  | .tld _ => 3
  | .tldm _ => 3
  | .tldd _ => 3
  | .tldg _ => 3
  | .tst _ => 3
  | .tsts _ => 3
  | .tcpy _ => 3
  | .racc _ => 3
  | .tpf _ => 3
  | .nsend _ => 3
  | .nrecv _ => 3
  | .lacq _ => 3
  | .lrel _ => 3
  | .lhint _ _ => 3
  | .creq _ => 3
  | .cpoll _ _ => 3
  | .xplan _ _ _ => 3
  | .xstep _ _ => 3
  | .xstatStatus _ _ _ => 3
  | .xstatTake _ _ _ => 3
  | .xstatReadA _ _ _ => 3
  | .xstatReadB _ _ _ => 3
  | .xstatComplete _ _ _ => 3
  | .xstatFail _ _ _ => 3
  | .xstatPlanStatus _ _ _ => 3
  | .xabort _ _ => 3
  | .cysnd _ => 3
  | .cyrcv _ => 3
  | _ => 4

/-- The first slot of a class. -/
def classSlot : Nat → Slot
  | 0 => .s
  | 1 => .v0
  | 2 => .m
  | _ => .c0

/-- The slot in which a table word is read: the opcode maps of the four classes overlap and a word does not say its
slot, so the scalar, vector, matrix and copy maps are tried in that order (R180 to R183). -/
def tableSlot (w : Nat) (e : Option Nat) : Option (Slot × Instr) :=
  match decodeSlot .s w e with
  | .ok i => some (.s, i)
  | .error _ => match decodeSlot .v0 w e with
    | .ok i => some (.v0, i)
    | .error _ => match decodeSlot .m w e with
      | .ok i => some (.m, i)
      | .error _ => match decodeSlot .c0 w e with
        | .ok i => some (.c0, i)
        | .error _ => none

/-- The extension word of a table word: present when X = 1; its bits are the table's bits above 31, else zero. -/
def tableExt (w : Nat) : Option Nat := if bitAt 24 (w % 2 ^ 32) then some (w / 2 ^ 32 % 2 ^ 32) else none

/-- The instruction that the decoder reads from a table word of `nbits` bits, the bits above being zero. -/
def decodeTableWord (nbits w : Nat) : Option Instr :=
  (tableSlot (w % 2 ^ nbits % 2 ^ 32) (tableExt (w % 2 ^ nbits))).map (·.2)

end Sys2Proof
end

