-- ==== Sys2Proof/Machine/Maps.lean ====
section
/-! DEFINITION. Sparse maps in one canonical form: a list of (key, value) pairs with keys strictly rising and no entry
equal to the default, so that equal maps are equal data. Registers, banks, units and memory are kept so. -/

namespace Sys2Proof.Machine

/-- A sparse map from naturals; an unlisted key holds the default its reader names. -/
abbrev SMap (α : Type) := List (Nat × α)

/-- The value at a key, `d` when unlisted. -/
def SMap.get {α : Type} (d : α) : SMap α → Nat → α
  | [], _ => d
  | (k, v) :: r, n => if k = n then v else SMap.get d r n

/-- Is the key listed? -/
def SMap.has {α : Type} : SMap α → Nat → Bool
  | [], _ => false
  | (k, _) :: r, n => if k = n then true else SMap.has r n

/-- The value at a key, if listed. -/
def SMap.find {α : Type} : SMap α → Nat → Option α
  | [], _ => none
  | (k, v) :: r, n => if k = n then some v else SMap.find r n

/-- Drop every entry of a key. -/
def SMap.erase {α : Type} : SMap α → Nat → SMap α
  | [], _ => []
  | (k, v) :: r, n => if k = n then SMap.erase r n else (k, v) :: SMap.erase r n

/-- Put a value at a key, in order. -/
def SMap.insert {α : Type} : SMap α → Nat → α → SMap α
  | [], n, v => [(n, v)]
  | (k, w) :: r, n, v =>
    if n < k then (n, v) :: (k, w) :: r
    else if n = k then (n, v) :: r
    else (k, w) :: SMap.insert r n v

/-- Write a key: writing the default removes the entry, so the canonical form is kept. -/
def SMap.set {α : Type} [DecidableEq α] (d : α) (m : SMap α) (n : Nat) (v : α) : SMap α :=
  if v = d then SMap.erase m n else SMap.insert m n v

/-- Write several keys in order. -/
def SMap.setAll {α : Type} [DecidableEq α] (d : α) (m : SMap α) (l : List (Nat × α)) : SMap α :=
  l.foldl (fun acc p => SMap.set d acc p.1 p.2) m

/-- Change the value at a key. -/
def SMap.modify {α : Type} [DecidableEq α] (d : α) (m : SMap α) (n : Nat) (f : α → α) : SMap α :=
  SMap.set d m n (f (SMap.get d m n))

/-- Keep the entries whose key satisfies p. -/
def SMap.keep {α : Type} (m : SMap α) (p : Nat → Bool) : SMap α := m.filter (fun e => p e.1)

/-- Every key is above `lo`, keys rise strictly, and no value is the default. -/
def SMap.okFrom {α : Type} [DecidableEq α] (d : α) : Option Nat → SMap α → Bool
  | _, [] => true
  | lo, (k, v) :: r =>
    (match lo with | none => true | some b => decide (b < k)) && decide (v ≠ d) && SMap.okFrom d (some k) r

/-- The canonical form: keys strictly rising, no entry equal to the default. -/
def SMap.wf {α : Type} [DecidableEq α] (d : α) (m : SMap α) : Bool := SMap.okFrom d none m

/-- `List.range` from lo, n long. -/
def rangeFrom (lo n : Nat) : List Nat := (List.range n).map (lo + ·)

/-- Fold bits of a function into a natural: bit i is `f i`. -/
def bitsOf (n : Nat) (f : Nat → Bool) : Nat :=
  (List.range n).foldl (fun acc i => if f i then acc ||| (1 <<< i) else acc) 0

end Sys2Proof.Machine
end

