-- ==== Sys2Proof/Machine/State.lean ====
section
/-! DEFINITION. The state of a K96 domain as plain data: seats, cores, clusters, dies, packages, instances, remote
accesses, packets and memory. One field for every piece of state the spec names (INVENTORY, ## State). Times called
core time are ck of the core's own clock, which a freeze stops (R142, R281). -/

namespace Sys2Proof.Machine

/-- Why a step stops the machine. Both are raised by `step` alone. -/
inductive Fault where
  /-- Raised when a module without power (R465) has nothing left to come: the machine does nothing until a reset. Safe:
  the hardware does nothing either. -/
  | poweredDown
deriving DecidableEq, Repr

/-- What the model refuses. -/
inductive Refusal where
  /-- Raised by an arm of `exec` whose instruction has no meaning yet. Safe: the model stops. -/
  | notModelled (mnemonic : String)
deriving DecidableEq, Repr

/-- The life-cycle state of a seat (R49). -/
inductive SeatSt where
  | free | placed | run | parked | saving | saved | restoring | retiring
deriving DecidableEq, Repr

/-- A phase of a seat (R48). -/
inductive Phase where
  | prologue | kernel | epilogue
deriving DecidableEq, Repr

/-- A loop record (R40). -/
structure LoopRec where
  prol : Nat := 0
  kern : Nat := 0
  epil : Nat := 0
  argp : Nat := 0
  trip : Nat := 0
  ibnd : Nat := 0
  xn : Nat := 0
  vn : Nat := 0
  gn : Nat := 0
  an : Nat := 0
  bn : Nat := 0
  hn : Nat := 0
  ln : Nat := 0
  fbase : Nat := 0
  fcnt : Nat := 0
  pri : Nat := 0
  spri : Nat := 0
deriving DecidableEq, Repr

/-- A hardware loop level (R65, R168). -/
structure LoopLvl where
  start : Nat
  stop : Nat
  count : Nat
deriving DecidableEq, Repr

/-- A sticky record (R65, R164, R165): operation word, extension word, accumulated offsets, sticky-idle bit. -/
structure Sticky where
  word : Nat := 0
  ext : Option Nat := none
  o1 : Int := 0
  o2 : Int := 0
  o3 : Int := 0
  idle : Bool := true
deriving DecidableEq, Repr

/-- The register file a result port writes (R385). -/
inductive Port where
  | x | v | o | k | y
deriving DecidableEq, Repr

/-- A result on its way to a register: an exposed-pipeline result or a landing (R141, R142, R385). `val` is the full
result, `lmask` the lanes written, `yu` the vector unit whose last-result register also receives it (R59); `due` is the
write ck in core time (an offset once captured); `order` the issue order; `acc` the access whose data has not arrived;
`stays` that a save keeps it beside the image because its data has not come; `load` says that it counts among the seat's pending loads (R190, R239): 0 no, 1 scalar load or atomic, 2 flat vector; 3 marks
a VPOPC, whose last-result register receives what the register then holds (R59). -/
structure Pend where
  port : Port
  reg : Nat
  val : BitVec 2048
  lmask : W64
  yu : Option Nat
  due : Nat
  order : Nat
  acc : Option Nat := none
  load : Nat := 0
  stays : Bool := false
deriving DecidableEq, Repr

/-- A cause: code (R387), TVAL (R403), slots that raised it (R71). `due` is the core time from which a deferred cause is
charged (R386). -/
structure Cause where
  code : Nat
  tval : W64
  slots : Nat
  due : Nat := 0
deriving DecidableEq, Repr

/-- What a release issues when its drain ends (R148, R150, R214, R302, R304). -/
inductive RelOp where
  | flagAdd (loc : Bool) (core flag : Nat) (v : BitVec 16)
  | flagSet (cores : List Nat) (flag : Nat) (v : BitVec 16)
  | flagTag (tag lpkg flag : Nat) (v : BitVec 16)
  | signal (node : Nat)
  | queuePush (cluster queue place : Nat)
  | creq (cluster ticket xd : Nat)
  | xdone (cluster ticket xd : Nat) (result : W32) (order : Nat)
deriving DecidableEq, Repr

/-- What a seat waits for (R213, R216, R218, R134, R148). -/
inductive Wait where
  | none
  | fwait (flag thr start tmo xd ra rb : Nat)
  | drain (xd scope start before : Nat)
  | release (start : Nat)
  | sup (xd : Nat) (wipe : Bool)
  | lacq (model layer start : Nat)
  | sleep (target : Nat)
  | xplan (xd xa comm : Nat)
deriving DecidableEq, Repr

/-- A release whose drain has not ended (R148): its scope, its ck, the accesses it covers (numbers below `before`), what it
issues then, and whether the seat waits for it. -/
structure Rel where
  scope : Nat
  start : Nat
  before : Nat
  op : RelOp
deriving DecidableEq, Repr

/-- The trap shadow (R381). -/
structure Shadow where
  sticky : List Sticky := []
  repOn : Bool := false
  repJ : Nat := 0
  repN : Nat := 0
  mpc : W64 := 0
deriving DecidableEq, Repr

/-- Why a seat is frozen for its supervisor (R398, R422): nothing, or the cause it reported. -/
structure Frozen where
  on : Bool := false
  cause : Cause := ⟨0, 0, 0, 0⟩
  toOwner : Bool := false
deriving DecidableEq, Repr

/-- A landing of a core (R281): its access, first core time, length in ck, tags, whether it books a tile-store interval, and
once the seat that owns it is captured, `held` with `due` an offset (R379); `done` the ck of
its interval already past when it was held. -/
structure Landing where
  acc : Nat
  seat : Bool
  due : Nat
  len : Nat
  tags : Nat
  held : Bool := false
  book : Bool := true
  done : Nat := 0
deriving DecidableEq, Repr

/-- A seat (R16, R47, R55, R65, R67). Register files are sparse; an unlisted register is zero. `preReq` says that the dispatcher
has sent a pre-emption request, `preempt` that it has arrived; `claimed` that a saved seat is on its way back; `spilled` the
granules that its private window holds and `kept` its landings while it is saved; `capCause` the causes of poisoned data that was
captured, with offsets (R386), `toReplay` that the captured entries wait for the first bundle after a restore (R52). A seat in
state FREE with an instance is one that a placement still under way will take. -/
structure Seat where
  st : SeatSt := .free
  inst : Nat := 0
  node : Nat := 0
  rank : Nat := 0
  ordI : Nat := 0
  ordJ : Nat := 0
  ordK : Nat := 0
  tag : Nat := 0
  img : Nat := 0
  lrec : LoopRec := {}
  phase : Phase := .prologue
  iter : Nat := 0
  boundAt : Nat := 0
  boundLeft : Nat := 0
  win : Nat := 0
  parBase : W64 := 0
  x : SMap W64 := []
  v : SMap VReg := []
  o : SMap W64 := []
  y : SMap VReg := []
  k : SMap W64 := []
  d : SMap W64 := []
  q : SMap (BitVec 128) := []
  pc : W64 := 0
  mpc : W64 := 0
  loops : List LoopLvl := []
  sticky : List Sticky := [{}, {}, {}, {}, {}]
  repOn : Bool := false
  repJ : Nat := 0
  repN : Nat := 0
  streams : SMap (List W32) := []
  seatpri : Nat := 0
  chkmode : Bool := false
  warn : BitVec 8 := 0
  lddef : Nat := 6
  cpdef : Nat := 64
  scangrp : W64 := 0
  tvec : W64 := 0
  tcause : W64 := 0
  tpc : W64 := 0
  tval : W64 := 0
  accev : SMap Nat := []
  acctr : SMap Nat := []
  lastLayer : Option (Nat × Nat) := none
  pend : List Pend := []
  nextIssue : Nat := 0
  stallW : Nat := 0
  loss : Nat := 0
  divUntil : Nat := 0
  wait : Wait := .none
  rels : List Rel := []
  brk : Bool := false
  holdFrom : Nat := 0
  holdWhy : Nat := 0
  handler : Bool := false
  shadow : Shadow := {}
  captured : List Pend := []
  capCause : List Cause := []
  toReplay : Bool := false
  savedWait : Wait := .none
  frozen : Frozen := {}
  stalledPin : Option (Nat × Nat) := none
  pinDone : List (Nat × Nat) := []
  pendCause : List Cause := []
  preempt : Bool := false
  ownerHeld : Bool := false
  saveKind : Nat := 0
  relTime : Nat := 0
  raccSeq : SMap Nat := []
  scanRound : SMap Nat := []
  carrySeq : SMap Nat := []
  issueNo : Nat := 0
  faults : List (Nat × Nat) := []
  preReq : Bool := false
  claimed : Bool := false
  spilled : List Nat := []
  kept : List Landing := []
deriving DecidableEq, Repr

/-- An accumulator element (R88): mantissa, residue, special code (0 FIN, 1 +INF, 2 −INF, 3 NAN). -/
structure AElem where
  m : Int := 0
  res : Nat := 0
  code : Nat := 0
deriving DecidableEq, Repr

/-- An accumulator row (R88); unlisted columns are zero. -/
structure ARow where
  e : Int := 0
  el : SMap AElem := []
  start : Bool := true
  satr : Bool := false
deriving DecidableEq, Repr

/-- A latch (R62, R252): format code (TERN when never filled) and element images by 64·row + column. -/
structure Latch where
  fmt : Nat := 0
  el : SMap Nat := []
deriving DecidableEq, Repr

/-- An open accumulate window (R261, R262): arrivals are (source core, place of their issue, staging slot); `here` counts those
whose bytes have all been written, `opens` is the ck from which it is open (R245). -/
structure Window where
  seat : Bool
  acc : Nat
  e : Nat
  gran : Nat
  arr : List (Nat × Nat × Nat) := []
  here : Nat := 0
  opens : Nat := 0
deriving DecidableEq, Repr

/-- An L1 line (R114): tag (line of the physical address), image handle and virtual line, and its 64 bytes. -/
structure L1Line where
  va : Nat
  img : Nat
  data : List Byte
deriving DecidableEq, Repr

/-- A cached translation (R120): image handle, page base and size (log2), leaf entry and its address. -/
structure TlbEnt where
  img : Nat
  base : Nat
  bits : Nat
  leaf : W64
  ent : Nat
deriving DecidableEq, Repr

/-- A cached table entry (R124): the key (tensor id, or the entry's address), its words, whether it has come, and whether its read
failed. -/
structure TabEnt where
  img : Nat
  key : Nat
  words : List W64 := []
  here : Bool := true
  bad : Bool := false
deriving DecidableEq, Repr

/-- A message on its way into a core's tile store (R142, R145, R313): source core, the access that sent it, the writes of
its 256-byte blocks still to come (address of an 8-byte word, value) and how many have been written, the ck of the next block's request
and the ck between two blocks, the beats that bring it through the mesh (0: none to wait for); then its sidecar writes, its flag
operation (R153), and the accumulate window (seat, accumulator) that it arrives at. -/
structure Inbound where
  src : Nat
  order : Nat
  blocks : List (List (Nat × W64))
  side : List (Nat × W64)
  flag : Option (Nat × FlagAct) := none
  win : Option (Bool × Nat) := none
  next : Nat := 0
  gap : Nat := 1
  beats : Nat := 0
  written : Nat := 0
deriving DecidableEq, Repr

/-- A form's requests at the banks of its core's tile store (R313): class, vector unit or copy channel, seat, core time of
the next request, requests left and served, and the banks (bit b for bank b) that they take in turn; `run` the ck in a row that it lost. What a
lost ck moves (R314): busy marks (item, core time), its path, its results by their place in the issue order, its access. -/
structure BankUse where
  cls : Nat
  sub : Nat := 0
  seat : Bool
  next : Nat
  left : Nat
  done : Nat := 0
  masks : List Nat
  run : Nat := 0
  rd : List (Nat × Nat) := []
  wr : List (Nat × Nat) := []
  mma : List (Nat × Nat) := []
  path : List (Nat × Nat) := []
  order : Option Nat := none
  acc : Option Nat := none
deriving DecidableEq, Repr

/-- A flag operation of this ck in the order of R64: key 0 local seat 0, 1 local seat 1, 2 + source core. -/
structure FlagOp where
  key : Nat
  flag : Nat
  act : FlagAct
deriving DecidableEq, Repr

/-- A core (R15, R62): `tile` holds 8-byte words at 512·granule + word, `side` sidecar words, `acc` rows at
64·accumulator + row, `ht` state-tile lanes at 4096·tile + 64·row + lane. `rd` and `wr` are the busy bits: the first
core time at which no read, or no write, of an item is in flight (items: granule g, 256 + accumulator, 264 + latch, 268 + state
tile, 276 + 8·seat + q); `mma` the part of an accumulator's write time that is a product's (R246); `path` the first core
time at which a path or unit takes its next form (0 array, 1 fill, 2 accumulate, 3 epilogue, 4 scan, 5 V0, 6 V1, 7 C0, 8 C1). `lost`
counts the ck in which its clock stood still; `banks` are the requests under way at its tile store's banks. -/
structure Core where
  lost : Nat := 0
  frzTo : Nat := 0
  frzFrom : Nat := 0
  tile : SMap W64 := []
  side : SMap W64 := []
  touched : List Nat := []
  acc : SMap ARow := []
  latch : SMap Latch := []
  ht : SMap W32 := []
  flags : SMap (BitVec 16) := []
  flagOps : List FlagOp := []
  rd : SMap Nat := []
  wr : SMap Nat := []
  mma : SMap Nat := []
  path : SMap Nat := []
  landings : List Landing := []
  windows : List Window := []
  inbound : List Inbound := []
  banks : List BankUse := []
  l1 : SMap (List L1Line) := []
  tlb : List TlbEnt := []
  tens : List TabEnt := []
  tabs : List TabEnt := []
  carry : List CarryMsg := []
  snapshot : Nat := 0
  spillSeat : Nat := 2
  spillAt : Nat := 0
  carryExp : SMap Nat := []
deriving DecidableEq, Repr

/-- A record place of a hardware queue (R208): poppable once its release has performed. -/
structure Place where
  id : Nat
  ready : Bool
  data : List W64
deriving DecidableEq, Repr

/-- A hardware queue (R39): bound to an instance (0: none), capacity in records, places oldest first. -/
structure Queue where
  inst : Nat := 0
  cap : Nat := 0
  places : List Place := []
  next : Nat := 0
deriving DecidableEq, Repr

/-- A junction mailbox entry (R302): state 0 reserved by an unfinished release, `ticket` being 2^16 plus the place of its CREQ in
the seat's issue order until it is posted, 1 POSTED, 2 TAKEN, 3 DONE, 4 FAILED. -/
structure MEntry where
  ticket : Nat
  core : Nat
  seat : Bool
  inst : Nat
  fn : Nat
  a : W64
  b : W64
  st : Nat
  result : W32 := 0
deriving DecidableEq, Repr

/-- A communicator bound on an engine (R341). -/
structure Comm where
  bound : Bool := false
  inst : Nat := 0
  kmask : Nat := 0
  tree : Nat := 0
  cpri : Nat := 0
  gtag : Nat := 0
  members : List Nat := []
  nextSeq : Nat := 0
  lastChunk : Nat := 0
deriving DecidableEq, Repr

/-- A plan block as read (R305). -/
structure PlanBlock where
  fmt : Nat := 0
  srct : Nat := 0
  dstt : Nat := 0
  flay : List Nat := []
  tlay : List Nat := []
  fpart : Nat := 0
  tpart : Nat := 0
  ax : List Nat := []
  ext : List Nat := []
  chunk : Nat := 65536
  red : Nat := 0
deriving DecidableEq, Repr

/-- One phase of a plan (R347): the layout before and after it (masks per dimension, partial axes). -/
structure PhaseRec where
  flay : List Nat
  fpart : Nat
  tlay : List Nat
  tpart : Nat
deriving DecidableEq, Repr

/-- A plan of a collective engine (R305, R306, R343, R344): `done` phases have completed; while one runs, `out` holds its
chunks still to be sent (pairs of destination rank and flat index in the tensor), `undone` its deliveries not yet performed, `want` the
elements still to come, `snap` the source images as they stood when the phase started (R348), `credit` the ranks that granted
credit for the next chunk since ck `creditFrom`, `heardAt` the last delivery. -/
structure Plan where
  comm : Nat
  seq : Nat
  inst : Nat
  img : Nat
  block : PlanBlock
  phases : List PhaseRec
  done : Nat := 0
  running : Bool := false
  startCk : Nat := 0
  out : List (List (Nat × Nat)) := []
  chunksDone : Nat := 0
  total : Nat := 0
  undone : Nat := 0
  want : List Nat := []
  snap : List (Nat × Nat) := []
  credit : List Nat := []
  creditFrom : Nat := 0
  heardAt : Nat := 0
  aborting : Bool := false
deriving DecidableEq, Repr

/-- A chunk in transmission on a virtual channel (R320): its plan, and the ck in which it is complete. -/
structure ChunkTx where
  plan : Nat
  doneAt : Nat
deriving DecidableEq, Repr

/-- A reduction node holding a child's packet (R334, R451). -/
structure RedNode where
  msg : RedMsg
  since : Nat
deriving DecidableEq, Repr

/-- A slice request (R315): port, arrival ck, source core, seat; the access and its part. -/
structure SliceReq where
  port : Nat
  arrived : Nat
  src : Nat
  seat : Bool
  acc : Nat
  part : Nat
  line : Nat
deriving DecidableEq, Repr

/-- What a packet does when its destination unit takes it. -/
inductive Deliver where
  | slice (r : SliceReq)
  | event (e : Event)
deriving DecidableEq, Repr

/-- A mesh packet (R328) at the router of a cluster from ck `ready` on, or, not yet injected, at its unit, which injects it from
that ck on; `inDir` the input it stands at (0 west, 1 east, 2 north, 3 south, 4 local). `delay` is the destination unit's own time
before the delivery, `born` the whole CYCLE of its injection, `line` the memory line it accesses, if any (R330). One of `beats`
packets of message `msg` (R327); `subs` the destinations of a multicast replica (R332), `dst` being the lowest of them; `begun` that
other replicas of it have been injected. On its way to another package (R339) it goes to Stehayth port `port`, and `out` are the clusters
beyond it and what they receive, at unit `outDu`; `legs` the ck of the mesh legs that its link crossing counts in. -/
structure Packet where
  dst : Nat
  du : Nat
  src : Nat
  su : Nat
  tag : Nat := 0
  lpkg : Nat := 0
  tree : Nat := 0
  node : Nat := 0
  icyc : Nat
  seq : Nat
  kind : Nat := 0
  len : Nat := 0
  line : Option Nat := none
  deliver : Deliver
  delay : Nat
  ready : Nat
  inDir : Nat := 4
  acc : Nat := 0
  born : Nat := 0
  msg : Nat := 0
  beats : Nat := 1
  subs : List (Nat × Deliver) := []
  begun : Bool := false
  port : Nat := 0
  out : List (Nat × Deliver) := []
  outDu : Nat := 0
  legs : Nat := 0
deriving DecidableEq, Repr

/-- A Stehayth port (R338): the beats that wait, the queue served next, the ck from which the link takes a beat, and the beats on
the link, `ready` in the ck in which they are there. -/
structure LinkPort where
  q : List Packet := []
  rr : Nat := 0
  free : Nat := 0
  fly : List Packet := []
deriving DecidableEq, Repr

/-- A granule waiting for the inline decompressor (R129): access, granule index, header arrival, core. -/
structure DecJob where
  acc : Nat
  gran : Nat
  hdrAt : Nat
  ready : Bool
  core : Nat
deriving DecidableEq, Repr

/-- A message in a neighbour receive buffer (R300); `at` is the ck its last byte has arrived. -/
structure NbrMsg where
  core : Nat
  seat : Bool
  dir : Nat
  tag : Nat
  rows : List (BitVec 2048)
deriving DecidableEq, Repr

/-- A line of a cache slice (R116); of a dirty one, `was` is what HBM still holds (empty: the line is clean). `bad`: the slice's copy is
poisoned, HBM's is not (R435). -/
structure SliceLine where
  line : Nat
  dirty : Bool
  was : List Byte := []
  bad : Bool := false
deriving DecidableEq, Repr

/-- A cluster's shared units (R17). -/
structure Cluster where
  queues : SMap Queue := []
  ticket : Nat := 0
  mbox : List MEntry := []
  comms : SMap Comm := []
  plans : SMap Plan := []
  tx : SMap ChunkTx := []
  nodes : List RedNode := []
  pkts : List Packet := []
  inj : List Packet := []
  held : List Packet := []
  seq : Nat := 0
  injRR : Nat := 0
  routedAt : Nat := 0
  asm : SMap Nat := []
  slice : SMap (List SliceLine) := []
  sliceQ : List SliceReq := []
  sliceRR : SMap Nat := []
  sliceAt : SMap Nat := []
  nbuf : List NbrMsg := []
  nres : List (Nat × Nat × Nat) := []
  nfree : SMap Nat := []
  dec : List DecJob := []
  decBusy : Nat := 0
deriving DecidableEq, Repr

/-- An armed milestone (R38, R217). -/
structure Milestone where
  inst : Nat
  node : Nat
  time : Nat
  abs : Bool
deriving DecidableEq, Repr

/-- A round of the scan network (R276): submissions of one block of one round; `cb` the block carry. -/
structure ScanRnd where
  tag : Nat
  lpkg : Nat
  round : Nat
  block : Nat
  subs : List ScanMsg := []
  cb : Option (List (Nat × W32 × W32)) := none
  cbAt : Nat := 0
  lastAt : Nat := 0
  first : Nat := 0
  bad : Bool := false
  sent : Bool := false
deriving DecidableEq, Repr

/-- A die (R19): milestone wheel (`wheelAt` ticks so far, `tickNo` the PTIME of the last one in 64 ns), page walkers (`walks` the accesses and parts that hold one, `walkQ` those that wait), scan network, carry channel (`chanQ` what waits on it for a full buffer, and
`chanOpen` that its head comes next), error ring (`recs` its records that the supervisor has not passed, `recNew` those of
them written in this ck), supervisor state. -/
structure Die where
  wheel : List Milestone := []
  wheelAt : Nat := 0
  tickNo : Nat := 0
  walks : List (Nat × Nat) := []
  walkQ : List (Nat × Nat) := []
  rounds : List ScanRnd := []
  doneRounds : List (Nat × Nat × Nat) := []
  chanFree : Nat := 0
  chanQ : List Event := []
  chanOpen : Bool := false
  prod : Nat := 0
  cons : Nat := 0
  recs : Nat := 0
  recNew : Nat := 0
  rseq : Nat := 0
  lostRec : Bool := false
  lastRec : Option (Nat × Nat × Nat × Nat) := none
  fwHeld : Bool := false
  hot : Bool := false
  power : Bool := false
  supWait : Nat := 0
deriving DecidableEq, Repr

/-- An image table entry (R355): its doublewords as written, and V. -/
structure Img where
  words : SMap W64 := []
  valid : Bool := false
deriving DecidableEq, Repr

/-- A layer entry's state (R133). -/
inductive LayerSt where
  | absent | arriving | resident | evicting
deriving DecidableEq, Repr

/-- A layer entry of the residency engine (R133, R441, R442): `pins` are (seat key, pins held), `dirty`
the frames with D = 1 and the addresses of their tile table entries; `absentAt` the ck after the one in which it last became ABSENT. -/
structure Layer where
  home : Nat := 0
  size : Nat := 0
  st : LayerSt := .absent
  pins : List (Nat × Nat) := []
  inflight : Nat := 0
  rel : Nat := 0
  slots : List Nat := []
  dirty : List (Nat × Nat) := []
  demandAt : Option Nat := none
  cand : Bool := false
  failed : Bool := false
  lost : Bool := false
  evictNow : Bool := false
  absentAt : Nat := 0
deriving DecidableEq, Repr

/-- A model context's definition and prefetch window (R474, R136). -/
structure Model where
  defined : Bool := false
  mpri : Nat := 0
  pfw : Nat := 0
  nl : Nat := 0
  win : Nat := 0
deriving DecidableEq, Repr

/-- The lifecycle of a package (R361). -/
inductive Life where
  | manufacture | provisioned | deployed | returned
deriving DecidableEq, Repr

/-- An attestation report (R362). -/
structure Attest where
  nonce : BitVec 384
  firmware : BitVec 384
  record : BitVec 384
  life : Life
  owner : Nat
  signature : BitVec 768
deriving DecidableEq, Repr

/-- A package: configuration record (R360; `wires` says where Stehayth links lead, as port, package and port there), register window (R354), lead dispatcher (`roundAt` the CYCLE after its last
round), residency engine, time. The fields named off list what does not work (cores as 8·c + i; a unit not listed works);
`carryOff` lists failed carry channels: 0 to 3 out of a die, 4 the external output, 5 the external input; `tabOff` what the
routing tables leave out, `failedRtr` failed routers until their partition resumes, `fenced` stack groups under reset
(12·package + stack) until ck `resetTo` at least, `linkDown` ports marked down in the domain table (R460). `retries` holds for a link
the packet last resent and how often (R445). `claimAt` is the ck after the election of the owner, `later` what waits for a
claim (R466), `replies` what the ports have answered; `keyBad` says that the identity key failed its self-test (R464). -/
structure Pkg where
  cycleBase : Nat := 0
  ptimeAdd : Int := 0
  synced : Bool := false
  coresOff : List Nat := []
  rtrOff : List Nat := []
  stkOff : List Nat := []
  linkOff : List Nat := []
  slcOff : List Nat := []
  wires : List (Nat × Nat × Nat) := []
  chain : Option Nat := none
  tabOff : List Nat := []
  fenced : List Nat := []
  failedRtr : List Nat := []
  linkDown : List Nat := []
  nbrOff : List (Nat × Nat) := []
  carryOff : List Nat := []
  owner : Nat := 0
  ownv : Bool := false
  oport : Nat := 0
  succ : Nat := 0
  succv : Bool := false
  up : List Nat := []
  lapseAt : Nat := 0
  claimAt : Nat := 0
  later : List Nat := []
  images : SMap Img := []
  poolBase : Nat := 0
  poolK : Nat := 0
  poolNs : Nat := 0
  poolNew : Option (Nat × Nat × Nat) := none
  privBase : Nat := 0
  ch : Nat := 48
  cl : Nat := 32
  domTab : SMap W64 := []
  policy : SMap Nat := []
  reports : List (W64 × W64) := []
  life : Life := .manufacture
  keyBad : Bool := false
  wipeUntil : Nat := 0
  instCount : Nat := 0
  tagFresh : Nat := 0
  tagFree : List (Nat × Nat) := []
  tagGen : SMap Nat := []
  tagLive : List (Nat × Nat × Nat) := []
  winUsed : List Nat := []
  roundAt : Nat := 0
  retries : SMap Nat := []
  models : SMap Model := []
  layers : SMap Layer := []
  streams : Nat := 0
  events : List Nat := []
  off : Bool := false
  resetTo : Nat := 0
  golden : Nat := 0
  links : SMap LinkPort := []
  attest : List Attest := []
  replies : List (Nat × Nat) := []
deriving DecidableEq, Repr

/-- The dispatcher's record of a node of an instance (R35, R36): `seats` the seats it was placed on, `live` those that have not
retired. -/
structure NodeRec where
  count : Nat := 0
  readyAt : Option Nat := none
  placed : Bool := false
  seats : List Nat := []
  live : Nat := 0
  done : Bool := false
  tag : Nat := 0
deriving DecidableEq, Repr

/-- A graph instance (R32, R33): `slot` the place of its parameter block; `fail`
the unit and code of its first failure (R397); `mpkgs` the packages whose contexts its `models` name (R474); `st` 0 waiting to start, 1 running, 2 ended (report waiting), 3 ended; `codeWas` the bytes of executable pages as they stood before
they were written while it runs (R114, R405). -/
structure Inst where
  pkg : Nat := 0
  num : Nat := 0
  ktag : Nat := 0
  img : Nat := 0
  slot : Nat := 0
  st : Nat := 0
  nodes : SMap NodeRec := []
  status : W64 := 0
  fail : Option (Nat × Nat) := none
  models : List Nat := []
  mpkgs : List Nat := []
  codeWas : SMap Byte := []
deriving DecidableEq, Repr

/-- The state of one line-sized part of a remote access: 0 waiting for its translation, 1 on its way to its point of
coherence, 3 at memory, 4 on its way back, 5 performed, 6 failed with cause `why` (a retry entry, R424), 7 translated and
ready or held in the core (R425), 8 dropped. `redo`: an invalidation discarded its walk (R426); `wl` the table entries that its walk has asked for; `code` that its leaf lets it be
executed (R114). A residency stream has one part for each frame (`pa` its HOME, `off` its number), and `put` counts the lines of it that
have been written (R473). -/
structure Part where
  va : Nat := 0
  pa : Nat := 0
  off : Nat := 0
  len : Nat := 0
  wdata : List (Nat × Byte) := []
  rdata : List Byte := []
  st : Nat := 0
  ms : Bool := false
  fill : Bool := false
  poison : Bool := false
  why : Nat := 0
  redo : Bool := false
  wl : Nat := 0
  code : Bool := false
  put : Nat := 0
deriving DecidableEq, Repr

/-- The atomic operations (R203). -/
inductive AmoOp where
  | add | and | or | xor | min | max | minu | maxu | swap | cas | fadd
deriving DecidableEq, Repr

/-- Where a TLDM also delivers (R288, R293): domain cores, granule name after the step, seat, carried flag operation. -/
structure McWord where
  cores : List Nat
  dt : Nat
  dseat : Bool
  flag : Option (Nat × FlagAct)
deriving DecidableEq, Repr

/-- What an access is for. `tload` lands `bytes` at sub-granule `sgo` of physical granule `gran`, `zeros` the 8-byte words
that padding entries make zero (R292, R294); `table` reads a line of a tensor or tile table for a core's caches (R124): the entries that
wait for it: image handle (none for a tile table), key and address; `tdec` decodes the granules whose table entries stand at `ents` with the code
tables at `ctb` (R292); `nrecv` lands rows of a message from `dir` with the tag (any when none); `cyrcv` and `scanRes` land
in rows of a state tile. -/
inductive AccKind where
  | load (order size : Nat) (sgn : Bool)
  | store
  | amo (op : AmoOp) (order : Nat) (w : Bool) (b e : W64)
  | vload (order : Nat) (lanes : List (Nat × Nat))
  | vstore
  | tload (gran sgo bytes : Nat) (zeros : List Nat) (mc : Option McWord)
  | tdec (gran : Nat) (ents : List Nat) (ctb : Nat) (mc : Option McWord)
  | tstore
  | prefetch
  | table (core : Nat) (ents : List (Option Nat × Nat × Nat))
  | copy
  | racc
  | nsend
  | nrecv (gran dir : Nat) (tag : Option Nat) (rows : List Nat)
  | flag
  | signal
  | cysnd
  | cyrcv (tile row tag : Nat)
  | scanRes (tile row : Nat) (m : ScanMsg)
deriving DecidableEq, Repr

/-- A remote access of a seat (R138, R147). `sc` is the home of its location for scopes: cluster (if any), stack group,
package. `fail` collects the DRAIN status bits it would report (R437); `left` counts deliveries not yet performed; `layer`
the layer it counts in while `counted` (R135); `data` what will land, by word; `arrived` says that all of it is there; `gst`
the granules of a decode (0 header awaited, 1 payload awaited, 2 ready, 3 decoded, 4 failed, 5 landed), `gfail` their
causes; `sent` that a scan submission has left; `due` the core time at which it leaves; `overdue` that a
seat was charged for it (R432); `rep` the distance in bytes from a granule's entry to its entry in a replica table (R444);
`asked` the lines that a residency stream has asked for (R473); `dests` the cores of an FSET by group tag, each its own location, and
`reached` those where it has performed. -/
structure Access where
  seat : Nat
  kind : AccKind
  img : Nat := 0
  cls : Nat := 2
  bypass : Bool := false
  parts : List Part := []
  scCluster : Option Nat := none
  scStack : Option Nat := none
  scPkg : Nat := 0
  left : Nat := 0
  fail : Nat := 0
  nfail : Nat := 0
  layer : Option Nat := none
  counted : Bool := false
  data : List (Nat × W64) := []
  arrived : Bool := false
  gst : List Nat := []
  gfail : List (Nat × Nat × W64) := []
  sent : Bool := false
  due : Nat := 0
  overdue : Bool := false
  rep : Nat := 0
  asked : Nat := 0
  dests : List Nat := []
  reached : List Nat := []
deriving DecidableEq, Repr

/-- An entry of a pseudo-channel queue (R316): class 0 the patrol scrub, 1 atomics, 2 compute, 3 communication, 4 residency. -/
structure MemReq where
  cls : Nat
  acc : Nat
  part : Nat
  line : Nat
  slice : Nat
  at_ : Nat
deriving DecidableEq, Repr

/-- What belongs to no single unit. `now` is the ck; `agenda` holds events that fall due, by ck; `free` counts
the free values drawn (the model's own field). `mcq` holds the pseudo-channel queues, `mcAt` the ck after their last issue, `mcHi`
those whose communication class ranks above compute (R317); `mcWait` what the sources of a full queue hold; `poison` are the poisoned lines, `poisonBy` for each the structure of R391 that first found
it (12 if not listed, R435); `seatKey` is the seat at which the pass over the seats
of this ck stands, `seatAt` the ck after the last complete pass, `merged` one more than the core whose seat 1 has lost
the merge of this ck. -/
structure Glob where
  now : Nat := 0
  npkg : Nat := 1
  nextId : Nat := 1
  agenda : List (Nat × Event) := []
  free : Nat := 0
  mcq : SMap (List MemReq) := []
  mcAt : SMap Nat := []
  mcHi : SMap Nat := []
  mcWait : SMap (List MemReq) := []
  poison : List Nat := []
  poisonBy : SMap Nat := []
  seatAt : Nat := 0
  seatKey : Nat := 0
  merged : Nat := 0
deriving DecidableEq, Repr

/-- The hardware of the domain. Seat key 2·core + seat; cores by domain core number (the system core of domain die δ is
73,728 + δ); clusters by 144·package + c; dies by 4·package + d; instances by 2^32·package + number. -/
structure Hw where
  mem : List Host.Cell := []
  seats : SMap Seat := []
  cores : SMap Core := []
  clusters : SMap Cluster := []
  dies : SMap Die := []
  pkgs : SMap Pkg := []
  insts : SMap Inst := []
  accs : SMap Access := []
  glob : Glob := {}
deriving DecidableEq, Repr

/-- One operation of the bundle in flight: its slot, whether it is a sticky re-issue, the words of its record, and the
instruction. -/
structure SlotOp where
  slot : Slot
  instr : Instr
  re : Bool := false
  word : Nat := 0
  ext : Option Nat := none
deriving DecidableEq, Repr

/-- The repetition being issued (R159): its seat, what is left of it in slot order, its causes so far, and what it does
to the sequencer when all slots have run: `len` the bundle's length in bytes, `stall`, `target` of a taken branch; `mpcSet` that its scalar
slot has written MPC (R170); `counts` the records that its stream operations leave, whether or not they stand (R408). -/
structure Issue where
  seat : Nat := 0
  slots : List SlotOp := []
  on : Bool := false
  pc : Nat := 0
  len : Nat := 0
  stall : Nat := 0
  target : Option Nat := none
  last : Bool := true
  causes : List Cause := []
  stallPin : Option (Nat × Nat) := none
  after : Nat := 0
  trapN : Nat := 0
  push : Option LoopLvl := none
  acq : List Nat := []
  mpcSet : Bool := false
  counts : SMap Nat := []
deriving DecidableEq, Repr

/-- The machine: the hardware, the hardware as it stood before the repetition in flight (what every slot of it reads,
R141, and what a precise fault goes back to, R379), the repetition in flight, and the event in flight with its operands. -/
structure State where
  hw : Hw
  pre : Option Hw
  cur : Issue
  ev : Event
deriving DecidableEq, Repr

/-- The hardware right after reset and bring-up (R359): every unit working, memories wiped, nobody owns the device, no port has link (R356). (DESIGN CHOICE, log 2) -/
def Hw.reset : Hw := { pkgs := [(0, {})] }

/-- The machine right after reset. (DESIGN CHOICE, log 3) -/
def State.reset : State := { hw := Hw.reset, pre := none, cur := {}, ev := .ext .nop }

end Sys2Proof.Machine
end

