-- ==== Sys2Proof/Machine/Ops.lean ====
section
/-! DEFINITION. The named operations over the state: effects as data and their application, access to units, registers
and memory, the agenda, causes and their recovery (R378, R387 to R394), error records (R395, R396), and taking an
exception and returning from one (R379 to R384). -/

namespace Sys2Proof.Machine

/-! ### Effects -/

/-- One change of the hardware, as data. -/
inductive Eff where
  | seat (k : Nat) (v : Seat)
  | seatDel (k : Nat)
  | core (k : Nat) (v : Core)
  | cluster (k : Nat) (v : Cluster)
  | die (k : Nat) (v : Die)
  | pkg (k : Nat) (v : Pkg)
  | inst (k : Nat) (v : Inst)
  | acc (k : Nat) (v : Access)
  | accDel (k : Nat)
  | mem (l : List (Nat × Byte))
  | memDrop (lo hi : Nat)
  | glob (v : Glob)

/-- Memory in its one canonical form: addresses rising, no zero byte listed (an unlisted byte reads 0, R361). -/
def Memory.wf (m : List Host.Cell) : Bool := SMap.wf (0 : Byte) m

/-- One byte of memory. (DEDUCED, log 4) -/
def Memory.read (m : List Host.Cell) (a : Nat) : Byte := SMap.get (0 : Byte) m a

/-- Write bytes; addresses are physical, 52 bits (R111). -/
def Memory.write (m : List Host.Cell) (l : List (Nat × Byte)) : List Host.Cell :=
  l.foldl (fun acc p => SMap.set (0 : Byte) acc (p.1 % 2 ^ 52) p.2) m

/-- Zero a range of memory (R361). -/
def Memory.drop (m : List Host.Cell) (lo hi : Nat) : List Host.Cell :=
  SMap.keep m (fun a => decide (a < lo) || decide (hi ≤ a))

/-- Apply one effect. -/
def Hw.apply (h : Hw) : Eff → Hw
  | .seat k v => { h with seats := SMap.insert h.seats k v }
  | .seatDel k => { h with seats := SMap.erase h.seats k }
  | .core k v => { h with cores := SMap.insert h.cores k v }
  | .cluster k v => { h with clusters := SMap.insert h.clusters k v }
  | .die k v => { h with dies := SMap.insert h.dies k v }
  | .pkg k v => { h with pkgs := SMap.insert h.pkgs k v }
  | .inst k v => { h with insts := SMap.insert h.insts k v }
  | .acc k v => { h with accs := SMap.insert h.accs k v }
  | .accDel k => { h with accs := SMap.erase h.accs k }
  | .mem l => { h with mem := Memory.write h.mem l }
  | .memDrop lo hi => { h with mem := Memory.drop h.mem lo hi }
  | .glob v => { h with glob := v }

/-- Apply effects in order. -/
def Hw.applyAll (h : Hw) : List Eff → Hw
  | [] => h
  | e :: r => (h.apply e).applyAll r

/-- What a unit does, given the hardware: the effects it has. -/
abbrev Act := Hw → List Eff

/-- No effect. -/
def Act.nil : Act := fun _ => []

/-- One after the other, each seeing what the ones before it did. -/
def Act.all : List Act → Act
  | [] => fun _ => []
  | a :: r => fun h => let e := a h; e ++ Act.all r (h.applyAll e)

/-- Do an act when a condition holds. -/
def Act.when (b : Bool) (a : Act) : Act := if b then a else Act.nil

/-- Look at the hardware, then act. -/
def Act.look (f : Hw → Act) : Act := fun h => f h h

/-- One act per element, in order. -/
def Act.each {α : Type} (l : List α) (f : α → Act) : Act := Act.all (l.map f)

/-- The hardware after an act. -/
def Hw.run (h : Hw) (a : Act) : Hw := h.applyAll (a h)

/-! ### Units -/

def Hw.seat (h : Hw) (k : Nat) : Seat := SMap.get {} h.seats k
def Hw.core (h : Hw) (k : Nat) : Core := SMap.get {} h.cores k
def Hw.cluster (h : Hw) (k : Nat) : Cluster := SMap.get {} h.clusters k
def Hw.die (h : Hw) (k : Nat) : Die := SMap.get {} h.dies k
def Hw.pkg (h : Hw) (k : Nat) : Pkg := SMap.get {} h.pkgs k
def Hw.inst (h : Hw) (k : Nat) : Inst := SMap.get {} h.insts k
def Hw.acc? (h : Hw) (k : Nat) : Option Access := SMap.find h.accs k

def modSeat (k : Nat) (f : Seat → Seat) : Act := fun h => [.seat k (f (h.seat k))]
/-- Change a seat that is still there: what an access brings back to a seat that is gone is lost. -/
def modOwner (k : Nat) (f : Seat → Seat) : Act := fun h => if SMap.has h.seats k then [.seat k (f (h.seat k))] else []
def modCore (k : Nat) (f : Core → Core) : Act := fun h => [.core k (f (h.core k))]
def modCluster (k : Nat) (f : Cluster → Cluster) : Act := fun h => [.cluster k (f (h.cluster k))]
def modDie (k : Nat) (f : Die → Die) : Act := fun h => [.die k (f (h.die k))]
def modPkg (k : Nat) (f : Pkg → Pkg) : Act := fun h => [.pkg k (f (h.pkg k))]
def modInst (k : Nat) (f : Inst → Inst) : Act := fun h => [.inst k (f (h.inst k))]
def modGlob (f : Glob → Glob) : Act := fun h => [.glob (f h.glob)]
/-- Change an access that is still outstanding. -/
def modAcc (k : Nat) (f : Access → Access) : Act := fun h =>
  match h.acc? k with
  | none => []
  | some a => [.acc k (f a)]
def putAcc (k : Nat) (a : Access) : Act := fun _ => [.acc k a]
def dropAcc (k : Nat) : Act := fun _ => [.accDel k]
def dropSeat (k : Nat) : Act := fun _ => [.seatDel k]
def writeMem (l : List (Nat × Byte)) : Act := fun _ => [.mem l]

/-- A fresh number for an access. -/
def withId (f : Nat → Act) : Act := fun h =>
  Act.all [modGlob (fun g => { g with nextId := g.nextId + 1 }), f h.glob.nextId] h

/-- Insert an event into the agenda, after the events of the same ck. -/
def agendaAdd : List (Nat × Event) → Nat → Event → List (Nat × Event)
  | [], t, i => [(t, i)]
  | (u, j) :: r, t, i => if t < u then (t, i) :: (u, j) :: r else (u, j) :: agendaAdd r t i

/-- An event falls due at a ck. -/
def schedule (t : Nat) (i : Event) : Act := modGlob (fun g => { g with agenda := agendaAdd g.agenda t i })

/-- An event falls due d ck from now. -/
def after (d : Nat) (i : Event) : Act := fun h => schedule (h.glob.now + d) i h

/-- A free value: an opaque constant of the configuration applied to a counter that advances. (DESIGN CHOICE, log 5) -/
def withFree (f : W64 → Act) : Act := fun h =>
  Act.all [modGlob (fun g => { g with free := g.free + 1 }), f (Config.freeWord h.glob.free)] h

/-! ### Numbering (R14, R476) -/

/-- The first system core number; the system core of domain die δ is this plus δ. -/
def sysBase : Nat := 73728
/-- Package of a domain core. -/
def pkgOfCore (c : Nat) : Nat := if c < sysBase then c / 1152 else (c - sysBase) / 4
/-- Domain cluster of a domain core; a system core attaches at its die's cluster (R476). -/
def dieOfCl (c : Nat) : Nat :=
  let x := c % 12; let y := c / 12 % 12
  if y < 6 then (if x < 6 then 0 else 1) else (if x < 6 then 3 else 2)
/-- Die-local cluster of a package cluster. -/
def localOfCl (c : Nat) : Nat := 6 * (c / 12 % 12 % 6) + c % 12 % 6
/-- Package cluster of die-local cluster l of die d. -/
def clOfLocal (d l : Nat) : Nat :=
  let x := l % 6 + (if d = 1 ∨ d = 2 then 6 else 0)
  let y := l / 6 + (if d = 2 ∨ d = 3 then 6 else 0)
  12 * y + x
/-- The package cluster at which a die's own units attach (R476). -/
def attachCl (d : Nat) : Nat := clOfLocal d 14
/-- Package cluster of a core. -/
def clOfCore (c : Nat) : Nat := if c < sysBase then c % 1152 / 8 else attachCl ((c - sysBase) % 4)
/-- Domain cluster of a core. -/
def domCl (c : Nat) : Nat := 144 * pkgOfCore c + clOfCore c
/-- Stack group of a package cluster (R14). -/
def stackOfCl (c : Nat) : Nat := 3 * dieOfCl c + localOfCl c / 12
/-- Domain die of a core. -/
def domDie (c : Nat) : Nat := 4 * pkgOfCore c + dieOfCl (clOfCore c)
/-- Core of a seat key, and which of its two seats. Key 2^18·n + k names what is kept of a seat that left key k: a saved
seat, or the accesses of one that is gone. -/
def coreOf (k : Nat) : Nat := k % 2 ^ 18 / 2
def isSeat1 (k : Nat) : Bool := k % 2 == 1
def seatKey (core : Nat) (s1 : Bool) : Nat := 2 * core + (if s1 then 1 else 0)
/-- Package cluster at package mesh coordinates. -/
def isSys (c : Nat) : Bool := sysBase ≤ c

/-- Does a core, a router, a stack of the package work (R21, R360)? -/
def rtrWorks (p : Pkg) (cl : Nat) : Bool := !p.rtrOff.contains cl
def coreWorks (p : Pkg) (pc : Nat) : Bool := !p.coresOff.contains pc && rtrWorks p (pc / 8)
/-- The clusters of a stack group of a package, ascending in the die (R14). -/
def stackCls (s : Nat) : List Nat := (List.range 12).map (fun i => clOfLocal (s / 3) (12 * (s % 3) + i))
def stkWorks (p : Pkg) (s : Nat) : Bool := !p.stkOff.contains s && (stackCls s).any (rtrWorks p)
/-- The junction core of a package cluster: the working core of lowest index (R359). -/
def junctionOf (p : Pkg) (cl : Nat) : Nat :=
  ((List.range 8).find? (fun i => coreWorks p (8 * cl + i))).getD 0
/-- COREID.JCT of a core. -/
def isJct (h : Hw) (c : Nat) : Bool :=
  !isSys c && junctionOf (h.pkg (pkgOfCore c)) (clOfCore c) == c % 8

/-! ### Time -/

/-- A core's own clock (R142). -/
def Hw.coreT (h : Hw) (c : Nat) : Nat := h.glob.now - (h.core c).lost
/-- CYCLE of a package (R23). -/
def Hw.cycle (h : Hw) (p : Nat) : Nat := h.glob.now - (h.pkg p).cycleBase
/-- PTIME of a package in ns (R358). -/
def Hw.ptime (h : Hw) (p : Nat) : Nat :=
  ((h.cycle p * Config.ptimeNum / Config.ptimeDen : Nat) + (h.pkg p).ptimeAdd).toNat

/-! ### Registers (R55 to R59) -/

/-- Lane n of a vector value. -/
def lane (v : BitVec 2048) (n : Nat) : Nat := v.toNat >>> (32 * n) % 2 ^ 32
/-- A vector value from its lanes. -/
def ofLanes (f : Nat → Nat) : BitVec 2048 :=
  BitVec.ofNat 2048 ((List.range 64).foldr (fun n acc => acc <<< 32 ||| f n % 2 ^ 32) 0)
/-- Every lane the same. -/
def splat (x : Nat) : BitVec 2048 := ofLanes (fun _ => x)
/-- The lanes under a mask from one value, the others from another. -/
def mergeLanes (m : W64) (new old : BitVec 2048) : BitVec 2048 :=
  if m = BitVec.allOnes 64 then new else ofLanes (fun n => if m.getLsbD n then lane new n else lane old n)

def allLanes : W64 := BitVec.allOnes 64

def Seat.xr (s : Seat) (n : Nat) : W64 := if n = 0 then 0 else SMap.get 0 s.x n
def Seat.vr (s : Seat) (n : Nat) : VReg := SMap.get 0 s.v n
def Seat.or (s : Seat) (n : Nat) : W64 := SMap.get 0 s.o n
def Seat.yr (s : Seat) (n : Nat) : VReg := SMap.get 0 s.y n
def Seat.kr (s : Seat) (n : Nat) : W64 := if n = 0 then allLanes else SMap.get 0 s.k n
def Seat.dr (s : Seat) (n : Nat) : W64 := SMap.get 0 s.d n
def Seat.qr (s : Seat) (n : Nat) : BitVec 128 := SMap.get 0 s.q n

/-- Write a scalar register; x0 discards (R56). -/
def Seat.setX (s : Seat) (n : Nat) (v : W64) : Seat := { s with x := if n = 0 then s.x else SMap.set 0 s.x n v }
/-- Write a lane mask; k0 discards (R57). -/
def Seat.setK (s : Seat) (n : Nat) (v : W64) : Seat := { s with k := if n = 0 then s.k else SMap.set 0 s.k n v }

/-- The o image of lanes 0 and 1 (R58). -/
def oOf (v : BitVec 2048) : W64 := BitVec.ofNat 64 (v.toNat % 2 ^ 64)
/-- An o register with the lanes of a mask replaced. -/
def oMerge (m : W64) (new old : W64) : W64 :=
  BitVec.ofNat 64 ((if m.getLsbD 1 then new.toNat / 2 ^ 32 else old.toNat / 2 ^ 32) * 2 ^ 32 +
    (if m.getLsbD 0 then new.toNat % 2 ^ 32 else old.toNat % 2 ^ 32))

/-- What the last-result register receives: the full result, or after a VPOPC (`load` 3) what the register then holds: `v` and `o`
are the vector and o registers once it is written. -/
def Pend.yVal (p : Pend) (v : SMap VReg) (o : SMap W64) : VReg :=
  if p.load = 3 then
    (match p.port with
      | .v => SMap.get 0 v p.reg
      | _ => let x := (SMap.get 0 o p.reg).toNat
        ofLanes (fun n => if n % 2 = 0 then x % 2 ^ 32 else x / 2 ^ 32))
  else p.val

/-- The vector registers after a result. -/
def Seat.landV (s : Seat) (p : Pend) : SMap VReg :=
  if p.port = .v then SMap.set 0 s.v p.reg (mergeLanes p.lmask p.val (s.vr p.reg)) else s.v

/-- The o registers after a result. -/
def Seat.landO (s : Seat) (p : Pend) : SMap W64 :=
  if p.port = .o then SMap.set 0 s.o p.reg (oMerge p.lmask (oOf p.val) (s.or p.reg)) else s.o

/-- A result reaches its register, and the unit's last-result register with it (R59). -/
def Seat.land (s : Seat) (p : Pend) : Seat := { s with
  x := if p.port = .x then (s.setX p.reg (oOf p.val)).x else s.x
  v := s.landV p
  o := s.landO p
  k := if p.port = .k then (s.setK p.reg (oOf p.val)).k else s.k
  y := match p.yu with
    | none => s.y
    | some u => SMap.set 0 s.y u (p.yVal (s.landV p) (s.landO p)) }

/-- Insert by write ck, then issue order. -/
def pendAdd : List Pend → Pend → List Pend
  | [], p => [p]
  | q :: r, p => if p.due < q.due ∨ (p.due = q.due ∧ p.order < q.order) then p :: q :: r else q :: pendAdd r p

/-- Write every result that is due at core time t and has its data (R142). -/
def Seat.flush (s : Seat) (t : Nat) : Seat :=
  let due := s.pend.filter (fun p => decide (p.due ≤ t) && p.acc.isNone)
  due.foldl (fun acc p => acc.land p)
    { s with pend := s.pend.filter (fun p => !(decide (p.due ≤ t) && p.acc.isNone)) }

def Seat.addPend (s : Seat) (p : Pend) : Seat := { s with pend := pendAdd s.pend p }

/-- A scalar result. -/
def xPend (reg : Nat) (v : W64) (due order : Nat) : Pend :=
  { port := .x, reg := reg, val := BitVec.ofNat 2048 v.toNat, lmask := allLanes, yu := none, due := due, order := order }

/-! ### Memory words -/

def readBytes (h : Hw) (a n : Nat) : List Byte := (List.range n).map (fun i => Memory.read h.mem (a + i))
/-- Little-endian value of bytes (R4). -/
def leVal : List Byte → Nat
  | [] => 0
  | b :: r => b.toNat + 256 * leVal r
/-- The n little-endian bytes of a value. -/
def leBytes : Nat → Nat → List Byte
  | 0, _ => []
  | n + 1, v => BitVec.ofNat 8 v :: leBytes n (v / 256)
def readNat (h : Hw) (a n : Nat) : Nat := leVal (readBytes h a n)
def read64 (h : Hw) (a : Nat) : W64 := BitVec.ofNat 64 (readNat h a 8)
def writeNat (a n v : Nat) : List (Nat × Byte) := (leBytes n v).zipIdx.map (fun p => (a + p.2, p.1))

/-- A local address of a package as a physical address (R111). -/
def paOf (pkg a : Nat) : Nat := pkg * 2 ^ 46 + a % 2 ^ 46
/-- Is a physical address an address of HBM (R111)? -/
def hbmOk (pa : Nat) : Bool := pa / 2 ^ 36 % 1024 < 12 && pa % 2 ^ 36 < 48000000000
/-- The package and the stack of a physical address. -/
def pkgOfPa (pa : Nat) : Nat := pa / 2 ^ 46
def stackOfPa (pa : Nat) : Nat := pa / 2 ^ 36 % 1024
/-- Does an address lie in a partition under reset (R399)? -/
def paFenced (h : Hw) (pa : Nat) : Bool := (h.pkg (pkgOfPa pa)).fenced.contains (12 * pkgOfPa pa + stackOfPa pa)
/-- Is a physical address used: one of HBM whose stack works (R111, R112, R360)? -/
def memOk (h : Hw) (pa : Nat) : Bool :=
  hbmOk pa && (decide (h.glob.npkg ≤ pkgOfPa pa) || stkWorks (h.pkg (pkgOfPa pa)) (stackOfPa pa))

/-! ### Causes -/

/-- Recovery classes (R378). -/
inductive Recov where
  | c | n | t | s | a | p
deriving DecidableEq, Repr

def Recov.code : Recov → Nat
  | .c => 0 | .n => 1 | .t => 2 | .s => 3 | .a => 4 | .p => 5

/-- The recovery class of a cause code (R388 to R394, R416). -/
def recov (code : Nat) : Recov :=
  let d := code % 32
  match code / 32 with
  | 0 => if d = 29 then .s else .t
  | 1 => if 28 ≤ d then .n else .t
  | 2 => if d = 24 ∨ d = 25 then .t else if (16 ≤ d ∧ d < 24) ∨ d = 31 then .n else .a
  | 3 => if d < 10 then .t else if d < 17 then .s else if d < 20 then .n else if d < 30 then .s else .n
  | 4 => if d % 4 = 3 then .a else .s
  | 5 => if d < 3 ∨ (5 ≤ d ∧ d < 9) then .t
         else if d = 3 ∨ d = 4 ∨ d = 9 ∨ d = 10 then .s
         else if d < 16 then .a else if d = 28 then .a else if d = 29 then .n else .s
  | 6 => let r := d % 16
         if 16 ≤ d then (if r < 4 ∨ r = 14 then .n else .a)
         else if 5 ≤ r ∧ r < 8 then .t else if r < 3 ∨ r = 14 then .s else .a
  | 7 => if d % 2 = 1 then .a else .c
  | 8 => if d % 4 < 2 then .t else if d % 4 = 2 then .s else .a
  | 9 => if d = 17 then .n else if d % 4 = 3 ∨ 20 ≤ d then .a else .t
  | 10 => let r := d / 8; let f := d % 8
          if r < 2 then (if f < 3 then .p else if 6 ≤ f then .a else .s) else if r = 2 then .n else .s
  | 11 => if d % 2 = 0 then .t else .a
  | 12 => if d % 4 = 0 then .t else .a
  | 13 => if d < 5 then .t else if d = 5 then .s else if d < 20 then .n else if d < 28 then .p else .a
  | 14 => if d < 8 then .t else .s
  | _ => .t

/-- Position of a slot in the details of classes 0 and 1 (R388). -/
def slotDetail (sl : Slot) (reason : Nat) : Nat := 4 * (sl.idx + 1) + reason

/-- A cause raised by a slot. -/
def mkCause (code : Nat) (tval : Nat) (sl : Slot) : Cause :=
  { code := code, tval := BitVec.ofNat 64 tval, slots := 2 ^ sl.idx }

/-- An operand fault of class 1 (R388, R406). -/
def operandFault (sl : Slot) (reason tval : Nat) : Cause := mkCause (32 + slotDetail sl reason) tval sl

/-- The cause that is reported: the lowest code, with the slots that raised it (R380). -/
def lowest (cs : List Cause) : Cause :=
  match cs with
  | [] => ⟨0, 0, 0, 0⟩
  | c :: r =>
    let m := r.foldl (fun b x => if x.code < b.code then x else b) c
    { m with slots := cs.foldl (fun a x => if x.code = m.code then a ||| x.slots else a) 0 }

/-- Bits of an error record (R395). -/
structure ErrRec where
  code : Nat
  tval : W64 := 0
  slots : Nat := 0
  ridx : Nat := 0
  tpc : W64 := 0
  unitk : Nat := 0
  seat : Bool := false
  unit : Nat := 0
  inst : Nat := 0
  tag : Nat := 0
  nest : Bool := false

/-- The 64 bytes of an error record. -/
def ErrRec.image (r : ErrRec) (cyc ptime rseq count : Nat) (lost : Bool) : Nat :=
  r.code + r.slots * 2 ^ 10 + r.ridx % 2 ^ 16 * 2 ^ 16 + lost.toNat * 2 ^ 34 + r.nest.toNat * 2 ^ 35 +
    (recov r.code).code * 2 ^ 36 + count % 256 * 2 ^ 40 + rseq % 2 ^ 16 * 2 ^ 48 + cyc % 2 ^ 64 * 2 ^ 64 +
    r.tval.toNat * 2 ^ 128 + r.tpc.toNat % 2 ^ 56 * 2 ^ 192 + r.unit % 2 ^ 17 * 2 ^ 278 + r.seat.toNat * 2 ^ 295 +
    r.unitk % 16 * 2 ^ 296 + r.tag % 2 ^ 16 * 2 ^ 300 + r.inst % 2 ^ 32 * 2 ^ 320 + ptime % 2 ^ 64 * 2 ^ 384

/-- Physical address of record i of a die's error ring (R396). -/
def ringPa (die i : Nat) : Nat := paOf (die / 4) (3 * (die % 4) * 2 ^ 36) + 64 * i

/-- Has a cause recovery class C or N: the supervisor needs do nothing (R378, R396)? -/
def isSoft (code : Nat) : Bool := decide ((recov code).code < 2)

/-- Write an error record to a die's ring, or merge it into the last one (R396). Producer and consumer count entries
0 to 1,022, entry i being record i + 1. (DEDUCED, log 45) -/
def record (die : Nat) (r : ErrRec) : Act := fun h =>
  let d := h.die die
  let cyc := h.cycle (die / 4)
  let same := match d.lastRec with
    | some (c, u, at_, _) => isSoft r.code && c == r.code && u == r.unit + 2 ^ 17 * r.unitk && decide (cyc ≤ at_ + 1024)
    | none => false
  if same then
    let n := match d.lastRec with | some (_, _, _, n) => n | none => 0
    let i := (d.prod + 1022) % 1023
    Act.all [writeMem [(ringPa die (i + 1) + 5, BitVec.ofNat 8 (min 255 (n + 1)))],
      modDie die (fun d => { d with lastRec := d.lastRec.map (fun x => (x.1, x.2.1, x.2.2.1, min 255 (n + 1))) })] h
  else if 1023 ≤ d.recs then modDie die (fun d => { d with lostRec := true }) h
  else
    let p' := (d.prod + 1) % 1023
    Act.all [writeMem (writeNat (ringPa die (d.prod + 1)) 64 (r.image cyc (h.ptime (die / 4)) d.rseq 1 d.lostRec)),
      writeMem (writeNat (ringPa die 0) 2 p'),
      modDie die (fun d => { d with prod := p', recs := d.recs + 1, recNew := d.recNew + 1, rseq := (d.rseq + 1) % 2 ^ 16, lostRec := false,
                                    lastRec := some (r.code, r.unit + 2 ^ 17 * r.unitk, cyc, 1) })] h

/-- The records of a die's ring that the supervisor passes in this ck (R396): those of earlier ck in order, up to the first of
class T, S, A or P while nobody owns the package. -/
def passedRecs (h : Hw) (die : Nat) : List Nat :=
  let d := h.die die
  ((List.range (d.recs - d.recNew)).map (fun j => ringPa die ((d.cons + j) % 1023 + 1))).takeWhile
    (fun a => (h.pkg (die / 4)).ownv || isSoft (readNat h a 2 % 512))

/-- The supervisors of a package pass the records of their rings: the consumer index goes on, and each record of class T, S, A or P is
forwarded to the owner, oldest first (R396, R461). (DEDUCED, log 45) -/
def passRings (pk : Nat) : Act := fun h =>
  let dies := (List.range 4).map (fun i => 4 * pk + i)
  let fwd := (dies.flatMap (passedRecs h)).filter (fun a => !isSoft (readNat h a 2 % 512))
  let old := fun (l : List Nat) (a : Nat) => l.takeWhile (fun b => decide (readNat h (b + 8) 8 ≤ readNat h (a + 8) 8)) ++ a ::
    l.dropWhile (fun b => decide (readNat h (b + 8) 8 ≤ readNat h (a + 8) 8))
  Act.all [
    Act.when (!fwd.isEmpty) (modPkg pk (fun p => { p with replies := p.replies ++ (fwd.foldl old []).map (fun a => (3, readNat h a 64)) })),
    Act.each (dies.filter (fun d => (h.die d).recs != 0)) (fun d =>
      let n := (passedRecs h d).length
      let c := ((h.die d).cons + n) % 1023
      Act.all [writeMem (writeNat (ringPa d 0 + 4) 2 c), modDie d (fun x => { x with cons := c, recs := x.recs - n, recNew := 0 })])] h

/-- A record that names a seat. -/
def seatRec (h : Hw) (k : Nat) (c : Cause) (ridx : Nat) (tpc : W64) : ErrRec :=
  let s := h.seat k
  { code := c.code, tval := c.tval, slots := c.slots, ridx := ridx, tpc := tpc, seat := isSeat1 k, unit := coreOf k,
    inst := (h.inst s.inst).num, tag := s.tag }

/-- A cause of class N (or C) at a seat: a record only (R378). -/
def noteSeat (k : Nat) (c : Cause) : Act := fun h => record (domDie (coreOf k)) (seatRec h k c 0 0) h

/-- The status word of an aborted instance (R397). -/
def abortStatus (unit code : Nat) : W64 :=
  BitVec.ofNat 64 (2 ^ 63 + unit % 2 ^ 17 * 2 ^ 32 + (recov code).code * 2 ^ 12 + code)

/-- The first failure of an instance is kept for its report (R397). (DEDUCED, log 46) -/
def noteFail (inst unit code : Nat) : Act := fun h =>
  match SMap.find h.insts inst with
  | none => []
  | some i => [.inst inst { i with fail := some (i.fail.getD (unit, code)) }]

/-! ### Taking an exception, and returning from one -/

/-- What capture leaves of a seat at core time t (R379): results written before t have written; each later one is an
entry with its offset; the bank holds 96 entries for the core (R380), `room` of them free; the rest stay on their way. -/
def Seat.capture (s : Seat) (t room : Nat) : Seat :=
  { s with captured := s.captured ++ (s.pend.take room).map (fun p => { p with due := p.due - t }),
           pend := s.pend.drop room,
           capCause := s.capCause ++ (s.pendCause.filter (fun c => decide (t < c.due))).map (fun c => { c with due := c.due - t }),
           pendCause := s.pendCause.filter (fun c => decide (c.due ≤ t)) }

/-- The results of an access that will not come leave a seat, captured ones the snapshot bank too (R380). -/
def loseResult (k id : Nat) : Act := fun h =>
  let n := ((h.seat k).captured.filter (fun p => p.acc == some id)).length
  Act.all [
    modOwner k (fun s => { s with
      pend := s.pend.filter (fun p => p.acc != some id), captured := s.captured.filter (fun p => p.acc != some id) }),
    Act.when (decide (0 < n) && decide (k < 2 ^ 18)) (modCore (coreOf k) (fun c => { c with snapshot := c.snapshot - n }))] h

/-- Poisoned data of access id reaches seat k (R386): its cause is charged from the ck in which the data would have been written. -/
def poisonResult (k id code : Nat) : Act := Act.look (fun h =>
  let s := h.seat k
  let at_ := fun (l : List Pend) => (l.find? (fun p => p.acc == some id)).map (fun p => p.due)
  let c : Cause := { code := code, tval := 0, slots := 0 }
  Act.all [
    loseResult k id,
    modOwner k (fun s' => match at_ s.pend, at_ s.captured with
      | none, some d => { s' with capCause := s'.capCause ++ [{ c with due := d }] }
      | d, _ => { s' with pendCause := s'.pendCause ++ [{ c with due := d.getD 0 }] })])

/-- Hold the landings of a seat that begin at or after t in the landing buffer with their offsets (R379). -/
def Core.holdLandings (c : Core) (s1 : Bool) (t : Nat) : Core :=
  { c with landings := c.landings.map (fun l => if l.seat == s1 && !l.held && decide (t ≤ l.due) then { l with held := true, due := l.due - t } else l) }

/-- Release them against a new base (R383). -/
def Core.releaseLandings (c : Core) (s1 : Bool) (t : Nat) : Core :=
  { c with landings := c.landings.map (fun l => if l.seat == s1 && l.held then { l with held := false, due := l.due + t } else l) }

/-- TCAUSE (R71). -/
def tcauseOf (ridx : Nat) (c : Cause) : W64 :=
  BitVec.ofNat 64 (ridx % 2 ^ 16 * 2 ^ 48 + c.slots % 64 * 2 ^ 40 + c.code % 512)

/-- Policy byte of a cause (R475). -/
def policyOf (h : Hw) (p code : Nat) : Nat := SMap.get 0 (h.pkg p).policy code % 8

/-- What the supervisor does by default with a cause that reached it (R422, R444, R466): 1 abort, 2 keep the seat frozen
and report, 5 resume once then abort, 6 TLBINV, wait 4,096 ck and resume, once for an address, 7 replica table, 8 resume once the
unit works or after 2^24 ck. -/
def supDefault (code : Nat) : Nat :=
  if 0x60 ≤ code ∧ code < 0x6A then 2
  else if 0x6A ≤ code ∧ code ≤ 0x70 then 5
  else if 0x74 ≤ code ∧ code ≤ 0x7D then 1
  else if 0x80 ≤ code ∧ code < 0xA0 then 6
  else if code = 0xA3 ∨ code = 0xA4 ∨ code = 0xA9 ∨ code = 0xAA then 2
  else if (0xB0 ≤ code ∧ code ≤ 0xBB) ∨ code = 0xBE ∨ code = 0xBF then 7
  else if code = 0x11E ∨ (0x100 ≤ code ∧ code < 0x120 ∧ code % 4 = 2) then 8
  else if code = 0xC0 ∨ code = 0xC1 ∨ code = 0xC2 ∨ code = 0xCE then 5
  else if code = 0x1CC ∨ code = 0x1CD ∨ code = 0x1D4 ∨ code = 0x1D5 then 5
  else if code = 0x1A5 then 2
  else match recov code with
    | .s => if code = 0x1DB ∨ (0x1DC ≤ code ∧ code ≤ 0x1DE) ∨ code = 0x145 ∨ code = 0x15B ∨ code = 0x15C then 1 else 2
    | _ => 1

/-- What makes a second cause of a seat the same: the code; the address in class 4, any of 0x06A to 0x070, the layer in
class 6 (R444). -/
def faultKey (s : Seat) (c : Cause) : Nat × Nat :=
  if 0x80 ≤ c.code ∧ c.code < 0xA0 then (c.code, c.tval.toNat)
  else if 0x6A ≤ c.code ∧ c.code ≤ 0x70 then (0x6A, 0)
  else if 0xC0 ≤ c.code ∧ c.code < 0xE0 then (0xC0, match s.stalledPin with | none => 0 | some (m, l) => 1024 * m + l + 1)
  else (c.code, 0)

/-- The mark that a policy of one resumption leaves (R475). -/
def policyKey (c : Cause) : Nat × Nat := (c.code, 2 ^ 70)

/-- The entries of the granules that failed for seat k, with the distance to their replicas (R444). -/
def failedEnts (h : Hw) (k : Nat) : List (Nat × Nat) :=
  (h.accs.filter (fun a => a.2.seat == k)).flatMap (fun a => match a.2.kind with
    | .tdec _ ents _ _ => (ents.zipIdx.filter (fun e => a.2.gst.getD e.2 0 == 6)).map (fun e => (e.1, a.2.rep))
    | _ => [])

/-- Can replicas stand in for failed entries: V = 1, and not already there? -/
def replicaOk (h : Hw) (l : List (Nat × Nat)) : Bool :=
  !l.isEmpty && l.all (fun e => (read64 h (e.1 + e.2)).getLsbD 0 && read64 h (e.1 + e.2) != read64 h e.1)

/-- TTINV as the supervisor issues it: the table caches of every core of the package are empty (R221, R444). -/
def dropTables (pk : Nat) : Act := fun h => Act.each (h.cores.map (·.1)) (fun n =>
  Act.when (pkgOfCore n == pk) (modCore n (fun co => { co with tens := [], tabs := [] }))) h

/-- TLBINV as the supervisor issues it: no core of the package keeps a leaf of the address (R221, R444). -/
def dropLeaf (pk img va : Nat) : Act := fun h => Act.each (h.cores.map (·.1)) (fun n =>
  Act.when (pkgOfCore n == pk) (modCore n (fun co => { co with
    tlb := co.tlb.filter (fun e => !(e.img == img && va / 2 ^ e.bits == e.base / 2 ^ e.bits)) }))) h

/-- Write the replica entries into the primary table, and drop the package's cached table entries (TTINV). -/
def useReplicas (core : Nat) (l : List (Nat × Nat)) : Act := fun h => Act.all [
  writeMem (l.flatMap (fun e => writeNat e.1 8 (read64 h (e.1 + e.2)).toNat)), dropTables (pkgOfCore core)] h

/-- The supervisor acts on a seat's cause in the next ck (R398, R422, R475). -/
def supervise (k : Nat) (c : Cause) : Act := fun h =>
  let s := h.seat k
  let pol := policyOf h (pkgOfCore (coreOf k)) c.code
  let a := if pol = 0 ∨ 4 < pol then supDefault c.code else pol
  let key := if a = 3 then policyKey c else faultKey s c
  let again := s.faults.contains key
  let abort : Act := after 1 (.ext (.instanceAbort s.inst (abortStatus (coreOf k) c.code)))
  let note : Act := modSeat k (fun s => { s with faults := key :: s.faults })
  let tell : Act := modSeat k (fun s => { s with frozen := { s.frozen with toOwner := true } })
  match a with
  | 1 => abort h
  | 3 => if again then abort h else Act.all [note, after 1 (.ext (.resumeCommand k))] h
  | 4 => after 1 (.ext (.seatRetireCommand k)) h
  | 5 => if again then abort h else Act.all [note, after 1 (.ext (.resumeCommand k))] h
  | 6 => if again then tell h else
      Act.all [note, dropLeaf (pkgOfCore (coreOf k)) s.img c.tval.toNat,
        after 4097 (.ext (.resumeCommand k))] h
  | 8 => if again then abort h else Act.all [note, after (2 ^ 24) (.ext (.resumeCommand k))] h
  | 7 => let l := failedEnts h k
    if replicaOk h l then Act.all [useReplicas (coreOf k) l, after 1 (.ext (.resumeCommand k))] h else abort h
  | _ => tell h

/-- The wait saved with a seat at a trap (R425); an LACQ waits again when its bundle issues again (R440). -/
def keptWait (s : Seat) : Wait :=
  match s.wait with
  | .none => s.savedWait
  | .lacq _ _ _ => .none
  | w => w

/-- A saved wait taken up again at core time t, ck n, access number nid (R425): FWAIT reads its operands anew. -/
def restartWait (s : Seat) (t n nid : Nat) : Wait :=
  match s.savedWait with
  | .fwait f _ _ _ xd ra rb => .fwait f ((s.xr rb).toNat % 2 ^ 16) t ((s.xr ra).toNat % 2 ^ 32) xd ra rb
  | .drain xd sc _ _ => .drain xd sc n nid
  | .release _ => .release n
  | w => w

/-- Does a capture's freeze hold the core's clock in this ck (R379)? -/
def trapFreeze (h : Hw) (core : Nat) : Bool :=
  let co := h.core core
  decide (co.frzFrom ≠ 0) && decide (co.frzFrom ≤ h.glob.now) && decide (h.glob.now ≤ co.frzTo)

/-- Take an exception (R379 to R382, R384): the seat at key k, its causes, the capture point being now. Results due
before now have written; the others are captured. Class T goes to TVEC: TCAUSE, TPC and TVAL are written, the sticky
records, the repetition and MPC go to the trap shadow, every sticky-idle bit is set, the seat enters handler state and
its first bundle issues 8 ck after the capture point. Class S, BRK, and T with TVEC = 0 freeze the seat for the
supervisor; entries beyond the snapshot bank raise 0x1DE with their number (R421); in handler state a further T or S is the nested fault 0x1DB; class A aborts the instance. (DEDUCED, log 43) -/
def trapEntry (k : Nat) (cs : List Cause) : Act := fun h =>
  let c0 := lowest cs
  let s := h.seat k
  let core := coreOf k
  let t := h.coreT core
  let ridx := if s.repOn then s.repJ else 0
  let overflow := decide (0x1DC ≤ c0.code) && decide (c0.code ≤ 0x1DE)
  let nested := s.handler && (recov c0.code == .t || recov c0.code == .s) && c0.code != 0x1A5 && c0.code != 0x1DB && !overflow
  let c : Cause := if nested then { c0 with code := 0x1DB, tval := BitVec.ofNat 64 c0.code }
    else if c0.code = 0x1A5 ∧ s.handler then { c0 with tval := BitVec.ofNat 64 (s.tcause.toNat % 512) } else c0
  let room := 96 - min 96 (h.core core).snapshot
  let toSup := nested || recov c.code != .t || s.tvec = 0
  let excess := if overflow then 0 else s.pend.length - room
  let cap := min s.pend.length room
  let frz := trapFreeze h core
  match recov c.code with
  | .n => noteSeat k c h
  | .c => noteSeat k c h
  | _ =>
    Act.all [
      modSeat k (fun s =>
        let s := s.flush (t - 1)
        let s := s.capture t room
        let s := { s with pendCause := [], wait := .none, savedWait := keptWait s, st := (if s.st = SeatSt.parked then SeatSt.run else s.st) }
        if toSup then
          { s with frozen := { on := true, cause := c }, tpc := if s.handler then s.tpc else s.pc,
                   tcause := if s.handler then s.tcause else tcauseOf ridx c, tval := if s.handler then s.tval else c.tval }
        else
          { s with
            tcause := tcauseOf ridx c, tpc := s.pc, tval := c.tval, handler := true,
            shadow := { sticky := s.sticky, repOn := s.repOn, repJ := s.repJ, repN := s.repN, mpc := s.mpc },
            sticky := s.sticky.map (fun r => { r with idle := true }),
            repOn := false, repJ := 0, repN := 0, pc := s.tvec, nextIssue := if frz then t + 4 else t + 5,
            boundLeft := if 0x1C0 ≤ c.code ∧ c.code ≤ 0x1C2 then s.lrec.ibnd + 1
                         else if s.boundAt = 0 then 0 else s.boundAt - h.glob.now,
            boundAt := h.glob.now + s.lrec.ibnd + 1 }),
      modCore core (fun co =>
        let co := co.holdLandings (isSeat1 k) t
        { co with frzFrom := if frz then co.frzFrom else h.glob.now + 1, frzTo := h.glob.now + 3, snapshot := co.snapshot + cap }),
      Act.when (toSup || recov c.code == .a)
        (fun h => record (domDie core) { seatRec h k c ridx s.pc with nest := nested } h),
      Act.when (toSup || recov c.code == .a) (noteFail s.inst core c.code),
      Act.when (recov c.code == .a || recov c.code == .p)
        (after 1 (.ext (.instanceAbort s.inst (abortStatus core c.code)))),
      Act.when (toSup && recov c.code != .a && recov c.code != .p) (supervise k c),
      Act.when (0 < excess && !toSup) (after 1 (.deferredCauseCharge k)),
      Act.when (0 < excess) (modSeat k (fun s => { s with pendCause := s.pendCause ++
        [{ code := 0x1DE, tval := BitVec.ofNat 64 excess, slots := 0, due := t }] }))] h

/-- Put the captured entries and held landings of a seat back against the issue ck t' of its next bundle (R383). -/
def replay (k t' : Nat) : Act := fun h =>
  let s := h.seat k
  Act.all [
    modSeat k (fun s => { s with
      captured := [], capCause := [], toReplay := false,
      pendCause := s.pendCause ++ s.capCause.map (fun c => { c with due := c.due + t' }),
      pend := s.captured.foldl (fun l p => pendAdd l { p with due := p.due + t' }) s.pend }),
    modCore (coreOf k) (fun c =>
      let c := c.releaseLandings (isSeat1 k) t'
      { c with snapshot := c.snapshot - s.captured.length })] h

/-- Return from a trap handler (R383): the shadow is restored, the bundle at TPC issues 3 ck after the ERET, at the
repetition index of TCAUSE, and captured entries and held landings are replayed relative to it. `gap` is 3, or 1 + STALL of the
ERET's bundle where that is more (R161). -/
def trapReturn (k gap : Nat) : Act := fun h =>
  let t := h.coreT (coreOf k)
  Act.all [
    modSeat k (fun s => { s with
      handler := false, sticky := s.shadow.sticky, mpc := s.shadow.mpc, repOn := s.shadow.repOn,
      repJ := s.tcause.toNat / 2 ^ 48, repN := s.shadow.repN, pc := s.tpc, nextIssue := t + gap, shadow := {},
      wait := restartWait s t h.glob.now h.glob.nextId, savedWait := .none,
      rels := (match s.savedWait with | .release _ => s.rels.map (fun r => { r with start := h.glob.now }) | _ => s.rels),
      st := (match s.savedWait with | .sleep _ => SeatSt.parked | _ => s.st),
      boundAt := if s.boundLeft = 0 then 0 else h.glob.now + s.boundLeft, boundLeft := 0 }),
    replay k (t + gap)] h

/-- Discard what a trap kept of a seat: captured entries, held landings, retry entries (R382, R384, R424). -/
def discardTrap (k : Nat) : Act := fun h =>
  let s := h.seat k
  Act.all [
    modCore (coreOf k) (fun c => { c with landings := c.landings.filter (fun l => !(l.held && l.seat == isSeat1 k)),
                                          snapshot := c.snapshot - s.captured.length }),
    Act.each ((h.accs.filter (fun a => a.2.seat == k && a.2.parts.any (fun p => p.st == 6))).map (·.1)) dropAcc,
    modSeat k (fun s => { s with captured := [], capCause := [], toReplay := false, shadow := {}, handler := false, savedWait := .none })] h

end Sys2Proof.Machine
end

