-- ==== Sys2Proof/Machine/Slot.lean ====
section
/-! DEFINITION. Issuing one slot of a repetition, and completing the repetition: what a slot reads and answers, sticky
records (R164 to R166), loop ends (R168, R169), phase ends (R47, R48), retirement and saving (R49 to R51). -/

namespace Sys2Proof.Machine

/-- What a slot's operation sees: its seat and core as they stood before the repetition (R141), the core time, its slot,
its accumulated offsets (R165), its place in the issue order (R142) and the layers that its bundle's LACQs name (R135). -/
structure Ctx where
  h : Hw
  k : Nat
  s : Seat
  core : Nat
  co : Core
  t : Nat
  now : Nat
  sl : Slot
  re : Bool
  o1 : Int
  o2 : Int
  o3 : Int
  order : Nat
  pc : Nat
  len : Nat
  acq : List Nat
  mpcSet : Bool

/-- What a slot's operation answers: its effects, the causes it raises (then it has no effect, R401), the registers it
reads, and what it tells the sequencer. -/
structure Out where
  act : Act
  reads : List (Port × Nat) := []
  causes : List Cause := []
  issue : Issue → Issue := fun i => i

def Out.ok (a : Act) : Out := { act := a }
def Out.fail (c : Cause) : Out := { act := Act.nil, causes := [c] }
def Out.fails (cs : List Cause) : Out := { act := Act.nil, causes := cs }
/-- The effects unless there is a cause. -/
def Out.check (cs : List Cause) (o : Out) : Out := if cs.isEmpty then o else { Out.fails cs with reads := o.reads }

/-- Index of a sticky engine. -/
def engOf : Slot → Nat
  | .s => 0
  | .v0 => 0
  | .v1 => 1
  | .m => 2
  | .c0 => 3
  | .c1 => 4

def Seat.srec (s : Seat) (e : Nat) : Sticky := s.sticky.getD e {}
def Seat.setSrec (s : Seat) (e : Nat) (r : Sticky) : Seat := { s with sticky := s.sticky.set e r }

/-- The slot operation in flight; the scalar slot when there is none. -/
def Issue.head (i : Issue) : SlotOp := i.slots.headD { slot := .s, instr := .nop }

/-- The context of a slot operation. -/
def mkCtx (h : Hw) (i : Issue) : Ctx :=
  let k := i.seat
  let op := i.head
  let s := h.seat k
  let r := s.srec (engOf op.slot)
  let on := op.re && op.slot ≠ .s
  { h := h, k := k, s := s, core := coreOf k, co := h.core (coreOf k), t := h.coreT (coreOf k), now := h.glob.now,
    sl := op.slot, re := on, o1 := if on then r.o1 else 0, o2 := if on then r.o2 else 0, o3 := if on then r.o3 else 0,
    order := 8 * s.issueNo + op.slot.idx, pc := i.pc, len := i.len, acq := i.acq, mpcSet := i.mpcSet }

def ctxOf (s : State) : Ctx := mkCtx (s.pre.getD s.hw) s.cur

/-- The step fields of a form (R165). -/
def stepsOf : Instr → Int × Int × Int
  | .mma f => match f.ext with | none => (0, 0, 0) | some x => (x.step.toInt, 0, 0)
  | .mmas f => match f.ext with | none => (0, 0, 0) | some x => (x.step.toInt, 0, 0)
  | .latch f => match f.ext with | none => (0, 0, 0) | some x => (x.toInt, 0, 0)
  | .epi f => match f.ext with | none => (0, 0, 0) | some x => (x.toInt, 0, 0)
  | .epix f => match f.ext with | none => (0, 0, 0) | some x => (x.toInt, 0, 0)
  | .nsend f => match f.ext with | none => (0, 0, 0) | some x => (x.tstep.toInt, 0, 0)
  | .nrecv f => match f.ext with | none => (0, 0, 0) | some x => (x.tstep.toInt, 0, 0)
  | .cysnd f => match f.ext with | none => (0, 0, 0) | some x => (x.tstep.toInt, 0, 0)
  | .cyrcv f => match f.ext with | none => (0, 0, 0) | some x => (x.tstep.toInt, 0, 0)
  | .scan f => match f.ext with | none => (0, 0, 0) | some x => (x.step.toInt, 0, 0)
  | .scanl f => match f.ext with | none => (0, 0, 0) | some x => (x.step.toInt, 0, 0)
  | .scanc f => match f.ext with | none => (0, 0, 0) | some x => (x.step.toInt, 0, 0)
  | .qset f => match f.ext with | none => (0, 0, 0) | some x => (x.step.toInt, 0, 0)
  | .step f => match f.ext with | none => (0, 0, 0) | some x => (x.step.toInt, 0, 0)
  | .stepy f => match f.ext with | none => (0, 0, 0) | some x => (x.step.toInt, 0, 0)
  | .hld f => match f.ext with | none => (0, 0, 0) | some x => (x.step.toInt, 0, 0)
  | .hst f => match f.ext with | none => (0, 0, 0) | some x => (x.step.toInt, 0, 0)
  | .tld f => match f.ext with | none => (0, 0, 0) | some x => (x.tstep.toInt, x.rstep.toInt, x.cstep.toInt)
  | .tldm f => match f.ext with | none => (0, 0, 0) | some x => (x.tstep.toInt, x.rstep.toInt, x.cstep.toInt)
  | .tldd f => match f.ext with | none => (0, 0, 0) | some x => (x.tstep.toInt, x.rstep.toInt, x.cstep.toInt)
  | .tldg f => match f.ext with | none => (0, 0, 0) | some x => (x.tstep.toInt, 0, x.cstep.toInt)
  | .tst f => match f.ext with | none => (0, 0, 0) | some x => (x.tstep.toInt, x.rstep.toInt, x.cstep.toInt)
  | .tsts f => match f.ext with | none => (0, 0, 0) | some x => (x.tstep.toInt, 0, x.cstep.toInt)
  | .tpf f => match f.ext with | none => (0, 0, 0) | some x => (0, x.rstep.toInt, x.cstep.toInt)
  | .tcpy f => match f.ext with | none => (0, 0, 0) | some x => (x.tstep.toInt, 0, 0)
  | i => match vform i with
    | none => (0, 0, 0)
    | some (f, u) =>
      let x := FVR.x f
      if x.st then
        (if u.d = .dst && decide (f.d.toNat < 64) then (x.imm.extractLsb' 14 7).toInt else 0,
         if u.a = .src && decide (f.a.toNat < 64) then (x.imm.extractLsb' 7 7).toInt else 0,
         if u.b = .src && decide (f.b.toNat < 64) then (x.imm.extractLsb' 0 7).toInt else 0)
      else (0, 0, 0)

/-- Forms after which the engine is sticky-idle (R164, R284). -/
def idleAfter : Instr → Bool
  | .vnop _ => true
  | .mnop _ => true
  | .cnop => true
  | .lacq _ => true
  | .lrel _ => true
  | .lhint _ _ => true
  | .creq _ => true
  | .cpoll _ _ => true
  | .xplan _ _ _ => true
  | .xstep _ _ => true
  | .xstatStatus _ _ _ => true
  | .xstatTake _ _ _ => true
  | .xstatReadA _ _ _ => true
  | .xstatReadB _ _ _ => true
  | .xstatComplete _ _ _ => true
  | .xstatFail _ _ _ => true
  | .xstatPlanStatus _ _ _ => true
  | .xabort _ _ => true
  | _ => false

/-- The engine's record after an issue (R164, R165): a present slot loads it; every issue adds the steps. -/
def stickyAfter (r : Sticky) (op : SlotOp) (i : Instr) : Sticky :=
  let st := stepsOf i
  let r := if op.re then r else { word := op.word, ext := op.ext, o1 := 0, o2 := 0, o3 := 0, idle := false }
  { r with o1 := r.o1 + st.1, o2 := r.o2 + st.2.1, o3 := r.o3 + st.2.2, idle := idleAfter i }

/-- What every issue of a sticky engine does to its record, and a matrix-slot operation to MPC, unless the bundle's scalar slot has set
the next word to be read (R170). -/
def stickyAct (c : Ctx) (op : SlotOp) (i : Instr) : Act :=
  if op.slot = .s then Act.nil else
  modSeat c.k (fun s =>
    let s := s.setSrec (engOf op.slot) (stickyAfter (s.srec (engOf op.slot)) op i)
    match op.slot, i with
    | .m, .mnop _ => s
    | .m, _ => if c.mpcSet then s else { s with mpc := BitVec.ofNat 64 ((s.mpc.toNat + 8) % 2 ^ 56) }
    | _, _ => s)

/-! ### The sequencer -/

/-- The levels after the end test at an address, and where the seat goes if a level loops back (R169). -/
def loopEnd (addr : Nat) : List LoopLvl → List LoopLvl × Option Nat
  | [] => ([], none)
  | l :: r =>
    if l.stop = addr then
      if 1 < l.count then ({ l with count := l.count - 1 } :: r, some l.start) else loopEnd addr r
    else let p := loopEnd addr r; (l :: p.1, p.2)

/-- The phase that follows a phase (R48): none at the end of the epilogue. -/
def phaseAfter (r : LoopRec) (ph : Phase) (iter : Nat) : Option (Phase × Nat) :=
  let epi : Option (Phase × Nat) := if r.epil = 0 then none else some (.epilogue, r.trip)
  match ph with
  | .prologue => if r.trip = 0 then epi else some (.kernel, 0)
  | .kernel => if iter + 1 < r.trip then some (.kernel, iter + 1) else epi
  | .epilogue => none

/-- The first phase of a placed seat (R48). -/
def firstPhase (r : LoopRec) : Option (Phase × Nat) :=
  if r.prol = 0 then phaseAfter r .prologue 0 else some (.prologue, 0)

def phaseAddr (r : LoopRec) : Phase → Nat
  | .prologue => r.prol
  | .kernel => r.kern
  | .epilogue => r.epil

/-- x8 at a phase start (R47). -/
def x8Of (s : Seat) : W64 :=
  BitVec.ofNat 64 (s.tag % 2 ^ 16 + s.ordI % 16 * 2 ^ 16 + s.ordJ % 16 * 2 ^ 20 + s.ordK % 2 ^ 10 * 2 ^ 24)

/-- Results of the previous phase due before a phase's first issue lose to its entry registers (R47). -/
def entryPends (t' : Nat) (l : List Pend) : List Pend :=
  l.map (fun p => if p.port = .x ∧ p.due < t' ∧ p.reg ∈ [1, 3, 5, 6, 7, 8] then { p with reg := 0 } else p)

/-- A phase starts (R47, R48, R164, R168, R238): entry registers, loops and streams empty, engines idle; its first bundle
issues at core time t'. -/
def Seat.startPhase (s : Seat) (ph : Phase) (iter : Nat) (t' : Nat) : Seat :=
  let x6 := match ph with | .prologue => 0 | .kernel => iter | .epilogue => s.lrec.trip
  let s := ((((((s.setX 1 1).setX 3 s.parBase).setX 5 (BitVec.ofNat 64 s.lrec.argp)).setX 6 (BitVec.ofNat 64 x6)).setX 7
    (BitVec.ofNat 64 s.rank)).setX 8 (x8Of s))
  { s with
    pend := entryPends t' s.pend, phase := ph, iter := iter, pc := BitVec.ofNat 64 (phaseAddr s.lrec ph), loops := [], streams := [], boundAt := 0,
    sticky := s.sticky.map (fun r => { r with idle := true }), repOn := false, repJ := 0, repN := 0, nextIssue := t' }

/-- Drop pins: `keep` says which (model, layer, seat) pins stay; a layer whose count reaches 0 has its release time
set (R134). -/
def dropPins (p : Nat) (drop : Nat → Nat → Nat) : Act := fun h =>
  modPkg p (fun pk => { pk with layers := pk.layers.map (fun e =>
    let l := e.2
    let pins := (l.pins.map (fun q => (q.1, q.2 - drop e.1 q.1))).filter (fun q => q.2 != 0)
    (e.1, { l with pins := pins, rel := if pins.isEmpty && !l.pins.isEmpty then h.cycle p else l.rel })) }) h

/-- Every pin of a seat goes (R134). -/
def dropSeatPins (k : Nat) : Act := fun h =>
  Act.all [dropPins (pkgOfCore (coreOf k)) (fun _ q => if q = k then 2 ^ 16 else 0),
    modSeat k (fun s => { s with stalledPin := none, pinDone := [] })] h

/-- One pin of seat k on a layer goes. -/
def dropPin (k m l : Nat) : Act := dropPins (pkgOfCore (coreOf k)) (fun key q => if key = 1024 * m + l ∧ q = k then 1 else 0)

/-- The stalled pin of a seat goes (R440), and with it the pins that other LACQs of the same bundle took (`pinDone`). -/
def dropStalled (k : Nat) : Act := fun h =>
  let s := h.seat k
  Act.all [
    (match s.stalledPin with | none => Act.nil | some (m, l) => dropPin k m l),
    Act.each s.pinDone (fun p => dropPin k p.1 p.2),
    modSeat k (fun s => { s with stalledPin := none, pinDone := [] })] h

/-- A seat retires (R48, R219): fetch stops, pins drop; results, landings and remote accesses finish in RETIRING. -/
def retireSeat (k : Nat) : Act :=
  Act.all [discardTrap k, dropSeatPins k,
    modSeat k (fun s => { s with st := .retiring, repOn := false, wait := .none, preempt := false, boundAt := 0,
                                 pendCause := [], frozen := {} })]

/-- A seat starts to be saved (R50, R51): c_r is core time cr; later results are captured with their offsets, and its tile
landings, which busy bits track (R281), run to completion; `kind` 4 after pre-emption, 5 after YIELD (R394). The spill starts when the busy bits have cleared. -/
def enterSaving (k cr kind : Nat) : Act := fun h =>
  let core := coreOf k
  let s := h.seat k
  let room := 96 - min 96 (h.core core).snapshot
  let late := s.pend.filter (fun p => decide (cr ≤ p.due))
  let excess := late.length - room
  Act.all [
    modSeat k (fun s => { s with
      st := .saving, saveKind := kind, preempt := false, preReq := false, boundAt := 0, nextIssue := cr,
      pend := s.pend.filter (fun p => decide (p.due < cr)) ++ (if room = 0 then late else late.drop room),
      captured := s.captured ++ (late.take room).map (fun p => { p with due := p.due - cr }),
      pendCause := s.pendCause.filter (fun c => decide (c.due < cr)),
      capCause := s.capCause ++ (s.pendCause.filter (fun c => decide (cr ≤ c.due))).map (fun c => { c with due := c.due - cr }) }),
    modCore core (fun c => { c with snapshot := c.snapshot + min room late.length }),
    Act.when (0 < excess) (fun h => trapEntry k
      [{ code := 0x1D8 + kind, tval := BitVec.ofNat 64 excess, slots := 0 }] h)] h

/-- An open accumulate window of the seat. -/
def seatWindow (h : Hw) (k : Nat) : Option Window := (h.core (coreOf k)).windows.find? (fun w => w.seat == isSeat1 k)

/-- Has the seat an open accumulate window? -/
def hasWindow (h : Hw) (k : Nat) : Bool := (seatWindow h k).isSome

/-- The distance from a bundle that moves the sequencer as a taken branch does to the next one of the seat (R48, R51, R161). (DEDUCED, log 78) -/
def Issue.gap (i : Issue) : Nat := max 3 (1 + i.stall)

/-- A phase ends, and the next one would issue its first bundle in core time t (R48, R51, R264, R382, R440). -/
def endPhase (k t : Nat) : Act := fun h =>
  let s := h.seat k
  Act.all [Act.when s.handler (discardTrap k), dropStalled k,
    match phaseAfter s.lrec s.phase s.iter with
    | none => retireSeat k
    | some (ph, it) =>
      if s.preempt && !hasWindow h k then
        Act.all [modSeat k (fun s => { s with phase := ph, iter := it }), enterSaving k t 4]
      else modSeat k (fun s => s.startPhase ph it t)] h

/-- What follows the bundle in the sequencer: `after` of the issue in flight. 1 the phase ends, 2 EXIT, 3 YIELD, 4 TRAP
or BRK, 5 ERET. -/
def afterBundle (i : Issue) (t : Nat) : Act := fun h =>
  let k := i.seat
  match i.after with
  | 1 => endPhase k (t + i.gap) h
  | 2 => retireSeat k h
  | 3 => Act.all [modSeat k (fun s => { s with relTime := h.cycle (pkgOfCore (coreOf k)) }),
      enterSaving k (t + i.gap) 5] h
  | 4 => modSeat k (fun s => { s with pendCause := s.pendCause ++
      [{ code := i.trapN, tval := 0, slots := 1, due := t + 1 + i.stall }] }) h
  | 5 => trapReturn k i.gap h
  | _ => []

/-- The loop levels after a repetition (R168, R169): a taken branch leaves them, the end test drops or counts down the levels that end
here, a LOOP pushes its level. -/
def Seat.nextLoops (s : Seat) (i : Issue) : List LoopLvl :=
  if !i.last || i.target.isSome then s.loops
  else
    let e := (loopEnd i.pc s.loops).1
    match i.push with
    | none => e
    | some l => l :: e

/-- The address of the bundle that follows a repetition (R159, R169, R195). -/
def Seat.nextPc (s : Seat) (i : Issue) : W64 :=
  if !i.last then s.pc
  else match i.target with
    | some a => BitVec.ofNat 64 (a % 2 ^ 56)
    | none => BitVec.ofNat 64 ((loopEnd i.pc s.loops).2.getD ((i.pc + i.len) % 2 ^ 56))

/-- The core time from which the next repetition may issue (R161, R309). -/
def nextAt (i : Issue) (t : Nat) : Nat :=
  if !i.last then t + 1 else if i.target.isSome then t + i.gap else t + 1 + i.stall

/-- The seat after a repetition issued in core time t (R159, R161, R168, R169, R311, R419). -/
def Seat.advance (s : Seat) (i : Issue) (t now : Nat) : Seat := { s with
  issueNo := s.issueNo + 1, loss := 0, holdFrom := 0, holdWhy := 0
  boundAt := if s.boundAt = 0 ∧ s.st = SeatSt.run then now + s.lrec.ibnd + 1 else s.boundAt
  repOn := if i.last then false else s.repOn
  repJ := if i.last then 0 else s.repJ + 1
  repN := if i.last then 0 else s.repN
  stallW := if i.last then i.stall else 0
  loops := s.nextLoops i
  pc := s.nextPc i
  nextIssue := nextAt i t }

/-- Stall a repetition on an LACQ (R134, R440): only the pin takes effect. -/
def stallOn (k m l : Nat) : Act := fun h =>
  let p := pkgOfCore (coreOf k)
  let s := h.seat k
  let key := 1024 * m + l
  Act.all [
    Act.when (s.stalledPin != some (m, l)) (Act.all [
      (match s.stalledPin with
        | none => Act.nil
        | some q =>
          if (SMap.get {} (h.pkg p).layers (1024 * q.1 + q.2)).st = LayerSt.resident
          then modSeat k (fun s => { s with stalledPin := none, pinDone := s.pinDone ++ [q] })
          else dropStalled k),
      modPkg p (fun pk =>
        let e := SMap.get {} pk.layers key
        let n := match e.pins.find? (fun q => q.1 == k) with | none => 0 | some q => q.2
        let e := { e with
          pins := (k, n + 1) :: e.pins.filter (fun q => q.1 != k), demandAt := some (e.demandAt.getD (h.cycle p)) }
        { pk with layers := SMap.insert pk.layers key e }),
      modSeat k (fun s => { s with stalledPin := some (m, l) })]),
    modPkg p (fun pk =>
      let e := SMap.get {} pk.layers key
      { pk with layers := SMap.insert pk.layers key { e with demandAt := some (e.demandAt.getD (h.cycle p)) } }),
    modSeat k (fun s => { s with wait := .lacq m l h.glob.now, lastLayer := some (m, l) })] h

/-- Is a cause decided in the issue ck, before any slot takes effect (R401, R440)? -/
def atIssue (code : Nat) : Bool :=
  decide (code < 0x40) || code == 0x58 || code == 0x59 || (decide (0x60 ≤ code) && decide (code ≤ 0x69)) ||
  (decide (0xC5 ≤ code) && decide (code ≤ 0xC7)) || code / 32 == 9 || code == 0x180 || code == 0x196 || code / 32 == 14

/-- Complete the repetition in flight: an LACQ stall leaves only the pin (what other slots raise apart from the causes that R401 decides at issue
is looked at when it completes, R134), a cause takes the exception from the state before it (R379, R380), otherwise the sequencer advances and results due in this ck are written. (DEDUCED, log 12) -/
def State.commit (s : State) : State :=
  let i := s.cur
  let k := i.seat
  let pre := s.pre.getD s.hw
  match i.stallPin with
  | some (m, l) =>
    let cs := i.causes.filter (fun c => atIssue c.code)
    { s with hw := pre.run (if cs.isEmpty then stallOn k m l else trapEntry k cs), pre := none, cur := {} }
  | none =>
    if !i.causes.isEmpty then { s with hw := pre.run (trapEntry k i.causes), pre := none, cur := {} }
    else
      let t := s.hw.coreT (coreOf k)
      let i := if i.last && (s.hw.seat k).brk then { i with after := 4, trapN := 0x1A5 } else i
      { s with hw := s.hw.run (Act.all [modSeat k (fun x => ({ x with brk := x.brk && !i.last }.flush t).advance i t s.hw.glob.now),
                                        afterBundle i t]),
               pre := none, cur := {} }

/-- Position of a register file in the codes of CHKMODE (R389). -/
def Port.chk : Port → Nat
  | .x => 0
  | .v => 1
  | .o => 2
  | .y => 3
  | .k => 4

/-- Does a pending result write a register (x0 and k0 are written by nothing)? -/
def Pend.hits (p : Pend) (r : Port × Nat) : Bool :=
  (p.port == r.1 && p.reg == r.2 && p.port != .y && !(p.port == .x && p.reg == 0)) || (r.1 == .y && p.yu == some r.2)

/-- TVAL of a CHKMODE cause (R403). -/
def chkTval (c : Ctx) (reg : Nat) (p : Pend) : Nat := reg + (p.due - c.t) % 2 ^ 16 * 2 ^ 16

/-- Reads of registers with a write pending (R163, R410). -/
def chkReads (c : Ctx) (l : List (Port × Nat)) : List Cause :=
  l.filterMap (fun r => (c.s.pend.find? (fun p => p.hits r)).map (fun p => mkCause (0x60 + r.1.chk) (chkTval c r.2 p) c.sl))

/-- The registers a result writes. -/
def Pend.regs (p : Pend) : List (Port × Nat) :=
  (if p.port = .y then [] else [(p.port, p.reg)]) ++ (match p.yu with | none => [] | some u => [(.y, u)])

/-- Results of a slot that would write in the ck of another result on the same register (R410): `all` holds every
result pending after the slot. -/
def chkWrites (c : Ctx) (all : List Pend) : List Cause :=
  (all.filter (fun p => p.order == c.order)).flatMap (fun p => p.regs.filterMap (fun r =>
    if all.any (fun q => q.order != c.order && q.due == p.due && q.hits r)
    then some (mkCause (0x65 + r.1.chk) (chkTval c r.2 p) c.sl) else none))

/-- Issue one slot's operation: apply its effects unless the repetition has a cause, and complete the repetition after
its last slot. Under CHKMODE the hazards of R410 are causes of the repetition. (DEDUCED, log 11) -/
def slotOp (i : Instr) (s : State) (m : Ctx → Out) : Host.Outcome State Fault Refusal :=
  let c := ctxOf s
  let o := m c
  let op := s.cur.head
  let h1 := s.hw.run (Act.all [o.act, stickyAct c op i])
  let chk := if c.s.chkmode then chkReads c o.reads ++ chkWrites c (h1.seat c.k).pend else []
  let cs := s.cur.causes ++ o.causes ++ chk
  let cur := o.issue { s.cur with slots := s.cur.slots.drop 1, causes := cs }
  let s1 : State := { s with hw := if cs.isEmpty then h1 else s.hw, cur := cur }
  .next (if cur.slots.isEmpty then s1.commit else s1)

/-- An event's effects. -/
def eventAct (s : State) (a : Act) : Host.Outcome State Fault Refusal :=
  .next { s with hw := s.hw.run a, ev := .ext .nop }

end Sys2Proof.Machine
end

