-- ==== Sys2Proof/Machine/Memory.lean ====
section
/-! DEFINITION. Flat memory as a core sees it: routes, packets and ports (R327 to R332, R338, R339), home slices (R112), page walks and the translation cache
(R118 to R120), the L1 (R114, R115), and the life of a flat access from its issue until it has performed and its data
has arrived (R199 to R204, R312, R423 to R427). -/

namespace Sys2Proof.Machine

/-! ### Routes (R327, R329, R339) -/

def absDiff (a b : Nat) : Nat := (a - b) + (b - a)

/-- The neighbour of a package cluster: 0 west, 1 east, 2 north, 3 south (R336). -/
def nbrCl (c dir : Nat) : Option Nat :=
  match dir with
  | 0 => if c % 12 = 0 then none else some (c - 1)
  | 1 => if c % 12 = 11 then none else some (c + 1)
  | 2 => if c / 12 = 0 then none else some (c - 12)
  | _ => if c / 12 = 11 then none else some (c + 12)

/-- Does a link between two neighbours cross a die bridge (R327)? -/
def isBridge (a b : Nat) : Bool := dieOfCl a != dieOfCl b

/-- Distances to cluster b through working routers, one more hop per round (R329). -/
def distRounds (off : List Nat) : Nat → List (Option Nat) → List (Option Nat)
  | 0, d => d
  | n + 1, d =>
    distRounds off n ((List.range 144).map (fun c =>
      match d.getD c none with
      | some x => some x
      | none => if off.contains c then none else
        let ns := (List.range 4).filterMap (fun dir => (nbrCl c dir).bind (fun m => d.getD m none))
        match ns with
        | [] => none
        | x :: r => some (r.foldl min x + 1)))

/-- dist(a, b) of R329. -/
def distOf (p : Pkg) (a b : Nat) : Option Nat :=
  if p.tabOff.isEmpty then some (absDiff (a % 12) (b % 12) + absDiff (a / 12) (b / 12))
  else if p.tabOff.contains b then none
  else (distRounds p.tabOff 144 ((List.range 144).map (fun c => if c = b then some 0 else none))).getD a none

/-- The productive ports at a for destination b, in the order west, east, north, south (R329). -/
def productive (p : Pkg) (a b : Nat) : List Nat :=
  match distOf p a b with
  | none => []
  | some d => (List.range 4).filter (fun dir => match nbrCl a dir with
    | none => false
    | some n => !p.tabOff.contains n && (match distOf p n b with
      | some e => e + 1 == d
      | none => false))

/-- Hops and die bridges of the route from a to b (R329). -/
def routeHG (p : Pkg) : Nat → Nat → Nat → Nat × Nat
  | 0, _, _ => (0, 0)
  | n + 1, a, b =>
    if a = b then (0, 0) else
    match productive p a b with
    | [] => (0, 0)
    | dir :: _ => match nbrCl a dir with
      | none => (0, 0)
      | some m => let r := routeHG p n m b; (r.1 + 1, r.2 + (if isBridge a m then 1 else 0))

/-- One-way time 2h + 8g of the undeflected route (R312). -/
def routeCk (p : Pkg) (a b : Nat) : Nat := let r := routeHG p 300 a b; 2 * r.1 + 8 * r.2

/-- One way between packages: link crossing and mesh legs (R339). -/
def crossCk : Nat := 900

/-- Candidate ports of a package for a destination package, working ones only (R339, R460). -/
def candPorts (p : Pkg) (dst : Nat) : List Nat :=
  let w := (SMap.get 0 p.domTab (2 * dst)).toNat
  ((List.range 4).map (fun i => w / 2 ^ (9 * i) % 512)).filter (fun q => decide (q < 36) && !p.linkOff.contains q && !p.linkDown.contains q)

/-- Can package p reach package q? -/
def reachable (h : Hw) (p q : Nat) : Bool :=
  p == q || (decide (q < h.glob.npkg) && !(candPorts (h.pkg p) q).isEmpty)

/-- Hand what a packet carries to its destination unit at a ck. -/
def atUnit (cl T : Nat) : Deliver → Act
  | .slice r => modCluster cl (fun c => { c with sliceQ := c.sliceQ ++ [{ r with arrived := T }] })
  | .event e => schedule T e

/-- Does a message take effect at its unit from its first beat on (R145)? -/
def Deliver.streams : Deliver → Bool
  | .event (.inboundRemoteWrite _) => true
  | .event (.accumulateArrival _) => true
  | _ => false

/-- TAG and LPKG of a packet (R44, R328, R341): the communicator's for what engines send, the one that it names for an FSET by tag, else
that of the seat whose access it serves. -/
def tagOf (h : Hw) (acc : Nat) : Deliver → Nat × Nat
  | .event (.chunkArrival m) => (m.gtag, (h.inst (SMap.get {} (h.cluster m.cluster).comms m.comm).inst).pkg)
  | .event (.reductionPacketArrival m) => (m.gtag, (h.inst m.inst).pkg)
  | .event (.creditGrant cl n _ _ _ g) => (g, (h.inst (SMap.get {} (h.cluster cl).comms n).inst).pkg)
  | .event (.abortNotice cl n _ _ g) => (g, (h.inst (SMap.get {} (h.cluster cl).comms n).inst).pkg)
  | .event (.remoteFlagArrival { byTag := some t, .. }) => t
  | _ => match h.acc? acc with
    | none => (0, 0)
    | some a => let s := h.seat a.seat; if s.inst = 0 then (0, 0) else (s.tag, (h.inst s.inst).pkg)

/-- KIND of a packet, a field for which the spec gives no codes. (DESIGN CHOICE, log 79) -/
def kindOf : Deliver → Nat
  | .slice _ => 1
  | .event (.lateDataArrival _ _) => 2
  | .event (.remoteFlagArrival _) => 3
  | .event (.inboundRemoteWrite _) => 4
  | .event (.accumulateArrival _) => 5
  | .event (.multicastAck _ _) => 6
  | .event (.signalCounted _ _ _) => 7
  | .event (.nodeComplete _ _) => 8
  | .event (.chunkArrival _) => 9
  | .event (.reductionPacketArrival _) => 10
  | .event (.creditGrant _ _ _ _ _ _) => 11
  | .event (.abortNotice _ _ _ _ _) => 12
  | .event _ => 0

/-- TREE and NODE of a packet (R328): the tree and the lowest leaf of a reduction packet. -/
def treeOf : Deliver → Nat × Nat
  | .event (.reductionPacketArrival m) => (m.tree % 4, m.lo % 2 ^ 16)
  | _ => (0, 0)

/-- Ck that a beat of some payload bytes takes on a Stehayth link: 400 Gbit/s, 16 bytes of header (R22, R338). -/
def linkCk (len : Nat) : Nat := ceilDiv ((16 + len) * 9) 200

/-- Beats of a message of some payload bytes (R327), and the payload of beat i. -/
def beatsOf (bytes : Nat) : Nat := max 1 (ceilDiv bytes 128)
def beatLen (bytes i : Nat) : Nat := min 128 (bytes - 128 * i)

/-- The port by which a line's traffic leaves a package for another (R339). (DESIGN CHOICE, log 7) -/
def hashPort (h : Hw) (p q line : Nat) : Option Nat :=
  let ports := candPorts (h.pkg p) q
  if ports.isEmpty then none else ports[Config.portHash line % ports.length]?

/-- What the port hash is taken of: the destination line, or an engine's communicator and destination cluster (R339). -/
def hashOf (line : Option Nat) : Deliver → Nat
  | .event (.chunkArrival m) => 256 * m.cluster + m.comm
  | .event (.reductionPacketArrival m) => 256 * m.cluster + m.comm
  | .event (.creditGrant cl n _ _ _ _) => 256 * cl + n
  | .event (.abortNotice cl n _ _ _) => 256 * cl + n
  | _ => line.getD 0

/-- The queue of a port that a message joins (R338, R343). -/
def linkQueue : Deliver → Nat
  | .event (.chunkArrival m) => 1 + m.comm % 4
  | .event (.reductionPacketArrival m) => 1 + m.comm % 4
  | .event (.creditGrant _ n _ _ _ _) => 1 + n % 4
  | .event (.abortNotice _ n _ _ _) => 1 + n % 4
  | _ => 0

/-! ### What is in flight -/

/-- The access whose delivery an event is. -/
def evAcc : Event → Option Nat
  | .lateDataArrival a _ => some a
  | .remoteFlagArrival m => some m.acc
  | .inboundRemoteWrite m => some m.acc
  | .accumulateArrival m => some m.acc
  | .neighbourMessageArrival m => some m.acc
  | .carryMessageArrival m => some m.acc
  | .multicastAck a _ => some a
  | _ => none

/-- Move events later. -/
def delayEvents (d : Nat) (f : Nat → Event → Bool) : Act := modGlob (fun g =>
  (g.agenda.filter (fun e => f e.1 e.2)).foldl (fun g e => { g with agenda := agendaAdd g.agenda (e.1 + d) e.2 })
    { g with agenda := g.agenda.filter (fun e => !f e.1 e.2) })

/-! ### Losses (R437, R399) -/

/-- A transfer whose last access to its layer's frames has performed leaves the layer's in-flight count (R135). -/
def layerDone (id : Nat) : Act := fun h =>
  match h.acc? id with
  | none => []
  | some a =>
    match a.layer with
    | none => []
    | some key =>
      if a.counted && a.parts.all (fun p => p.st == 4 || p.st == 5 || p.st == 8) && a.gst.all (fun g => decide (2 ≤ g)) then
        Act.all [modAcc id (fun a => { a with counted := false }),
          modPkg (pkgOfCore (coreOf a.seat)) (fun p =>
            let l := SMap.get {} p.layers key
            { p with layers := SMap.insert p.layers key { l with inflight := l.inflight - 1 } })] h
      else []

/-- A line has brought table entries to the caches of a core, or cannot (`bad`): words from `data`, the bytes from `base` on (R124). The
decodes that wait for one of them go on. -/
def tableFill (core : Nat) (ents : List (Option Nat × Nat × Nat)) (base : Nat) (data : List Byte) (bad : Bool) : Act := fun h =>
  let words := fun (pa n : Nat) => (List.range n).map (fun i => BitVec.ofNat 64 (leVal ((data.drop (pa + 8 * i - base)).take 8)))
  let fill := fun (l : List TabEnt) (img key pa n : Nat) => l.map (fun e =>
    if e.img = img ∧ e.key = key ∧ !e.here then { e with here := true, bad := bad, words := words pa n } else e)
  Act.all [
    modCore core (fun co => ents.foldl (fun co e => match e.1 with
      | some img => { co with tens := fill co.tens img e.2.1 e.2.2 4 }
      | none => { co with tabs := fill co.tabs 0 e.2.1 e.2.2 1 }) co),
    Act.each (h.accs.filter (fun a => coreOf a.2.seat == core)) (fun a => match a.2.kind with
      | .tdec _ es _ _ => Act.each ((es.zipIdx).filter (fun e => a.2.gst.getD e.2 1 == 0 && a.2.parts.all (fun p => p.off / 65536 != e.2) &&
          ents.any (fun x => x.1.isNone && x.2.1 == e.1))) (fun e => schedule h.glob.now (.lateDataArrival a.1 (2 ^ 16 + e.2)))
      | _ => Act.nil)] h

/-- An access is lost in the fabric: its parts end, DRAIN bit `bit` is set (R437); table entries cannot be read (R429). -/
def loseAccess (id bit : Nat) : Act := fun h =>
  match h.acc? id with
  | some { kind := .table core ents, .. } => Act.all [dropAcc id, tableFill core ents 0 [] true] h
  | _ => Act.all [
      modAcc id (fun a => { a with fail := a.fail ||| (2 ^ bit), nfail := max 1 a.nfail, left := 0,
                                   parts := a.parts.map (fun p => if p.st = 5 then p else { p with st := 8 }) }),
      layerDone id] h

/-- The DRAIN bits of R437. -/
def bitRefused : Nat := 1
def bitLink : Nat := 2
def bitStale : Nat := 3
def bitData : Nat := 4
def bitPoison : Nat := 5
def bitReset : Nat := 6

/-- Does a cluster lie in a partition under reset (R399)? -/
def isFenced (h : Hw) (dc : Nat) : Bool := (h.pkg (dc / 144)).fenced.contains (12 * (dc / 144) + stackOfCl (dc % 144))

/-- Traffic to a partition under reset is dropped and counted (R399). -/
def dropFenced (sc dc acc : Nat) : Act := Act.all [
  record (4 * (sc / 144) + dieOfCl (sc % 144)) { code := 0x152, unitk := 3, unit := dc }, loseAccess acc bitReset]

/-- The cluster of a package's Stehayth port (R338): six at a die's outer row, three at its outer column. -/
def portCl (port : Nat) : Nat :=
  let d := port / 9
  let i := port % 9
  if i < 6 then clOfLocal d (i + if d ≤ 1 then 0 else 30)
  else clOfLocal d (6 * (2 * (i - 6) + if d ≤ 1 then 1 else 0) + if d = 0 ∨ d = 3 then 0 else 5)

/-- A packet for some clusters of its package (R332): the replica of a subtree, or a single packet. -/
def Packet.for (x : Packet) (l : List (Nat × Deliver)) : Packet :=
  match l with
  | [] => x
  | (c, d) :: r => { x with dst := r.foldl (fun m e => min m (e.1 % 144)) (c % 144), deliver := d,
                            subs := if r.isEmpty then [] else l.map (fun e => (e.1 % 144, e.2)) }

/-- A packet that leaves for another package by a port (R338, R339). -/
def Packet.via (x : Packet) (p : Pkg) (port : Nat) (l : List (Nat × Deliver)) : Packet :=
  { x with dst := portCl port, outDu := if x.out.isEmpty then x.du else x.outDu, du := 13, port := port, out := l, subs := [],
           legs := x.legs + routeCk p x.src (portCl port) }

/-- The beats of a message (R327): `rate` of them become ready in each ck from ck `t` on. -/
def Packet.beatList (x : Packet) (bytes t rate : Nat) : List Packet :=
  (List.range (beatsOf bytes)).map (fun i => { x with len := beatLen bytes i, beats := beatsOf bytes, ready := t + i / rate })

/-- A beat joins the queues of a Stehayth port (R338). -/
def joinLink (pk port : Nat) (x : Packet) : Act := modPkg pk (fun p =>
  let l := SMap.get {} p.links port
  { p with links := SMap.insert p.links port { l with q := l.q ++ [x] } })

/-- Packets go to the router of their cluster, or are already at their port. -/
def putPackets (k : Nat) (l : List Packet) : Act :=
  Act.all [
    Act.each (l.filter (fun x => !x.out.isEmpty && x.dst == k % 144)) (fun x => joinLink (k / 144) x.port x),
    modCluster k (fun c => { c with inj := c.inj ++ l.filter (fun x => x.out.isEmpty || x.dst != k % 144) })]

/-- Send a message of some payload bytes from domain cluster `sc` to a unit of some clusters of one package, its first beat `lag` ck from now:
to its own cluster without the mesh, else through the router as one packet a beat (R318, R332), and to another package through the Stehayth
port that its hash selects (R339); without such a port it is lost (R460). -/
def sendAll (sc su du delay acc bytes lag rate : Nat) (line : Option Nat) (l : List (Nat × Deliver)) : Act := fun h =>
  let here := l.filter (fun e => e.1 == sc)
  let far := l.filter (fun e => e.1 != sc && !isFenced h e.1)
  let p := h.pkg (sc / 144)
  Act.all [
    Act.each (here.filter (fun e => !isFenced h e.1)) (fun e =>
      atUnit sc (h.glob.now + lag + delay + if e.2.streams then 0 else (beatsOf bytes - 1) / rate) e.2),
    Act.each (l.filter (fun e => isFenced h e.1)) (fun e => dropFenced sc e.1 acc),
    (match far with
      | [] => Act.nil
      | (dc, d) :: _ =>
        let t := tagOf h acc d
        let r := treeOf d
        let go := fun (msg : Nat) =>
          let x : Packet := {
            dst := dc % 144, du := du, src := sc % 144, su := su, tag := t.1, lpkg := t.2, tree := r.1, node := r.2, icyc := 0, seq := 0,
            kind := kindOf d, line := line, deliver := d, delay := delay, ready := h.glob.now, acc := acc, msg := msg }
          if dc / 144 = sc / 144 then putPackets sc ((x.for far).beatList bytes (h.glob.now + lag) rate)
          else match hashPort h (sc / 144) (dc / 144) (hashOf line d) with
            | none => Act.all [record (4 * (sc / 144)) { code := 0x156, unitk := 8, unit := dc / 144 }, loseAccess acc bitLink]
            | some port => putPackets sc ((x.via p port far).beatList bytes (h.glob.now + lag) rate)
        if beatsOf bytes = 1 ∨ acc ≠ 0 then go acc else withId go)] h

/-- Send a message to a unit of one cluster. -/
def sendMsg (sc su dc du delay acc bytes lag rate : Nat) (line : Option Nat) (d : Deliver) : Act :=
  sendAll sc su du delay acc bytes lag rate line [(dc, d)]

/-- Send one beat without data, or a line's worth. (DESIGN CHOICE, log 79) -/
def sendTo (sc su dc du delay : Nat) (line : Option Nat) (acc : Nat) (d : Deliver) : Act :=
  sendMsg sc su dc du delay acc (lenOf d) 0 1 line d
where
  /-- Payload bytes: requests carry none. -/
  lenOf : Deliver → Nat
    | .slice _ => 0
    | .event (.lateDataArrival _ _) => 64
    | _ => 8

/-! ### Homes (R112, R139) -/

/-- The line of a physical address. -/
def lineOf (pa : Nat) : Nat := pa / 64

/-- The package cluster of an address's home slice (R112). -/
def homeCl (p : Pkg) (pa : Nat) : Nat :=
  let s := stackOfPa pa % 12
  let l := pa % 2 ^ 36 / 64
  let f := (l % 256) ^^^ (l / 2 ^ 8 % 256) ^^^ (l / 2 ^ 16 % 256) ^^^ (l / 2 ^ 24 % 64)
  let cands := (List.range 12).map (fun i => clOfLocal (s / 3) (12 * (s % 3) + (f + i) % 12))
  (cands.find? (fun c => rtrWorks p c)).getD (cands.headD 0)

/-- The pseudo-channel of an address (R112), 64·stack + channel of the package. -/
def chanOf (pa : Nat) : Nat := 64 * (pa / 2 ^ 36 % 16) + ((pa / 64 % 64) ^^^ (pa / 2 ^ 12 % 64))

/-- Is a home inside a scope (R139)? `cl` home domain cluster if it has one, `st` domain stack group if any, `pk`
package. -/
def inScope (core scope : Nat) (cl st : Option Nat) (pk : Nat) : Bool :=
  match scope with
  | 0 => cl == some (domCl core)
  | 1 => st == some (12 * pkgOfCore core + stackOfCl (clOfCore core))
  | 2 => pk == pkgOfCore core
  | _ => true

/-- The home of a memory line in R139's terms. -/
def memHome (h : Hw) (core pa : Nat) (ms : Bool) : Option Nat × Option Nat × Nat :=
  let pk := pa / 2 ^ 46
  if pk ≠ pkgOfCore core then (none, none, pk)
  else if ms then (none, some (12 * pk + stackOfPa pa), pk)
  else let c := homeCl (h.pkg pk) pa; (some (144 * pk + c), some (12 * pk + stackOfCl c), pk)

/-! ### Translation (R118 to R120) -/

/-- The result of a walk. -/
inductive WalkRes where
  | leaf (e : TlbEnt)
  | bad (reason : Nat)
deriving DecidableEq

/-- Bit n of an entry. -/
def ebit (e : W64) (n : Nat) : Bool := e.getLsbD n
/-- ADDR of an entry: PA[51:8] (R119). -/
def eaddr (e : W64) : Nat := e.toNat / 2 ^ 8 % 2 ^ 44 * 2 ^ 8

/-- One walk from a table base over the levels left: (page bits, index bits). -/
def walkLevels (h : Hw) (img va : Nat) : Nat → List (Nat × Nat) → WalkRes
  | _, [] => .bad 2
  | base, (bits, n) :: r =>
    let ea := base + 8 * (va / 2 ^ bits % 2 ^ n)
    let e := read64 h ea
    if h.glob.poison.contains (lineOf ea) then .bad 3
    else if !ebit e 0 then .bad 0
    else if e.toNat / 2 ^ 52 ≠ 0 ∨ ebit e 7 then .bad 2
    else if ebit e 1 then
      (if eaddr e % 2 ^ bits ≠ 0 then .bad 2
       else .leaf { img := img, base := va / 2 ^ bits * 2 ^ bits, bits := bits, leaf := e, ent := ea })
    else walkLevels h img va (eaddr e) r

/-- Fields of an image table entry (R355). -/
def Img.base (i : Img) : Nat := (SMap.get 0 i.words 0).toNat % 2 ^ 52 / 64 * 64
def Img.length (i : Img) : Nat := (SMap.get 0 i.words 1).toNat % 2 ^ 48
def Img.troot (i : Img) : Nat := (SMap.get 0 i.words 2).toNat % 2 ^ 52 / 64 * 64
def Img.rootn (i : Img) : Nat := (SMap.get 0 i.words 2).toNat % 2 ^ 5

/-- A walk of a virtual address from an image handle's root (R118). -/
def walk (h : Hw) (pkg img va : Nat) : WalkRes :=
  let im := SMap.get {} (h.pkg pkg).images img
  if va / 2 ^ (30 + im.rootn) ≠ 0 then .bad 0
  else walkLevels h img va im.troot [(30, im.rootn), (21, 9), (16, 5)]

/-- The domain cluster of the home slice of an address (R112). -/
def homeDom (h : Hw) (pa : Nat) : Nat := 144 * pkgOfPa pa + homeCl (h.pkg (pkgOfPa pa)) pa

/-- Is a line in the slice of a cluster? -/
def sliceHas (h : Hw) (cl line : Nat) : Bool := (SMap.get [] (h.cluster cl).slice (line % 8192)).any (fun l => l.line == line)

/-- Lookup in a core's translation cache. -/
def tlbFind (co : Core) (img va : Nat) : Option TlbEnt :=
  co.tlb.find? (fun e => e.img == img && va / 2 ^ e.bits == e.base / 2 ^ e.bits)

/-- Put an entry first; the least recently used beyond 256 goes (R120). -/
def tlbPut (co : Core) (e : TlbEnt) : Core :=
  { co with tlb := (e :: co.tlb.filter (fun f => !(f.img == e.img && f.base == e.base && f.bits == e.bits))).take 256 }

/-- The physical address under a leaf. -/
def paUnder (e : TlbEnt) (va : Nat) : Nat := eaddr e.leaf + va % 2 ^ e.bits

/-- Does a leaf allow an access of class `cls` (R390: 0, 1 fetch, 2 load, 3 store, 4 atomic, 5 vector load, 6 vector
store, 7 gather or scatter lane; `wr` for a scatter)? -/
def leafAllows (e : W64) (cls : Nat) (wr : Bool) : Bool :=
  match cls with
  | 0 => ebit e 4
  | 1 => ebit e 4
  | 2 => ebit e 2
  | 3 => ebit e 3
  | 4 => ebit e 2 && ebit e 3
  | 5 => ebit e 2
  | 6 => ebit e 3
  | _ => if wr then ebit e 3 else ebit e 2

/-! ### The L1 (R114, R115) -/

def l1Set (va : Nat) : Nat := va / 64 % 256

def l1Find (co : Core) (img va : Nat) : Option L1Line :=
  (SMap.get [] co.l1 (l1Set va)).find? (fun l => l.img == img && l.va == va / 64)

/-- Make a line the most recently used, or fill it; four ways. -/
def l1Put (co : Core) (l : L1Line) : Core :=
  let s := SMap.get [] co.l1 (l.va % 256)
  { co with l1 := SMap.set [] co.l1 (l.va % 256) ((l :: s.filter (fun m => !(m.img == l.img && m.va == l.va))).take 4) }

/-- Drop a line. -/
def l1Drop (co : Core) (img va : Nat) : Core :=
  { co with l1 := SMap.set [] co.l1 (l1Set va) ((SMap.get [] co.l1 (l1Set va)).filter (fun m => !(m.img == img && m.va == va / 64))) }

/-! ### Queues of the memory (R116, R316, R317) -/

/-- The queue of an address's pseudo-channel, and whether its 64 entries are full. -/
def mcKey (pa : Nat) : Nat := 768 * pkgOfPa pa + chanOf pa
def mcFull (h : Hw) (pa : Nat) : Bool := decide (64 ≤ (SMap.get [] h.glob.mcq (mcKey pa)).length)

/-- Entries that enter in one ck go in ascending slice number (R316). -/
def mcInsert (r : MemReq) (l : List MemReq) : List MemReq :=
  let first := fun (x : MemReq) => decide (x.at_ < r.at_) || decide (x.slice ≤ r.slice)
  l.filter first ++ [r] ++ l.filter (fun x => !first x)

/-- A request enters a pseudo-channel's queue, or, while that is full, its source holds it (R316, R317). -/
def pushMem (pa : Nat) (r : MemReq) : Act := fun h =>
  let c := mcKey pa
  modGlob (fun g =>
    if mcFull h pa then { g with mcWait := SMap.insert g.mcWait c (SMap.get [] g.mcWait c ++ [r]) }
    else { g with mcq := SMap.insert g.mcq c (mcInsert r (SMap.get [] g.mcq c)) }) h

/-- A line is poisoned, found so by a structure of R391 (R435). -/
def setPoison (line struct : Nat) : Act := modGlob (fun g => if g.poison.contains line then g else
  { g with poison := line :: g.poison, poisonBy := SMap.set 12 g.poisonBy line struct })

/-- The class 7 cause of what reads a poisoned line: that of the structure that first found it (R435). -/
def poisonCode (h : Hw) (line : Nat) : Nat := 0xE1 + 2 * SMap.get 12 h.glob.poisonBy line

/-- Lines that a slice gives up: of a clean one whose copy was poisoned, HBM's copy is good (R435). -/
def goodAgain (ls : List SliceLine) : Act :=
  Act.when (ls.any (fun l => l.bad && !l.dirty))
    (modGlob (fun g => { g with poison := g.poison.filter (fun n => !ls.any (fun l => l.bad && !l.dirty && l.line == n)) }))

/-- The 16-way set of a slice, a line put first (R116); a dirty line that leaves is written back. (DEDUCED, log 73) -/
def slicePut (cl line : Nat) (dirty : Bool) : Act := fun h =>
  let set := line % 8192
  let ls := SMap.get [] (h.cluster cl).slice set
  let old := (ls.find? (fun l => l.line == line)).getD { line := line, dirty := false }
  let new := { old with dirty := dirty || old.dirty, was := if dirty && !old.dirty then readBytes h (64 * line) 64 else old.was } ::
    ls.filter (fun l => l.line != line)
  Act.all [
    modCluster cl (fun x => { x with slice := SMap.set [] x.slice set (new.take 16) }),
    goodAgain (new.drop 16),
    Act.each ((new.drop 16).filter (fun l => l.dirty)) (fun l =>
      pushMem (64 * l.line) { cls := 2, acc := 0, part := 0, line := l.line, slice := cl, at_ := h.glob.now })] h

/-- Take a line out of its home slice: a dirty one is written back, ahead of the access for which it goes (R152). -/
def dropLine (pa : Nat) : Act := fun h =>
  let cl := homeDom h pa
  let set := lineOf pa % 8192
  let ls := SMap.get [] (h.cluster cl).slice set
  Act.all [
    Act.when (ls.any (fun l => l.line == lineOf pa)) (modCluster cl (fun x => { x with
      slice := SMap.set [] x.slice set (ls.filter (fun l => l.line != lineOf pa)) })),
    goodAgain (ls.filter (fun l => l.line == lineOf pa)),
    Act.when (ls.any (fun l => l.line == lineOf pa && l.dirty))
      (pushMem pa { cls := 2, acc := 0, part := 0, line := lineOf pa, slice := cl, at_ := h.glob.now })] h

/-- A line is read through its home slice, for what takes no ck of its own: a miss takes its entry at the memory (R116). -/
def lineRead (pa : Nat) : Act := fun h =>
  let cl := homeDom h pa
  Act.all [
    Act.when (!sliceHas h cl (lineOf pa)) (pushMem pa { cls := 2, acc := 0, part := 0, line := lineOf pa, slice := cl, at_ := h.glob.now }),
    slicePut cl (lineOf pa) false] h

/-- The entries that a walk reads (R118, R120). -/
def walkPath (h : Hw) (va : Nat) : Nat → List (Nat × Nat) → List Nat
  | _, [] => []
  | base, (bits, n) :: r =>
    let ea := base + 8 * (va / 2 ^ bits % 2 ^ n)
    let e := read64 h ea
    ea :: (if ebit e 0 && !ebit e 1 then walkPath h va (eaddr e) r else [])

/-- The entries of a virtual address under an image handle, in the order of the walk; none when its high bits are not zero. -/
def walkEnts (h : Hw) (core img va : Nat) : List Nat :=
  let im := SMap.get {} (h.pkg (pkgOfCore core)).images img
  if va / 2 ^ (30 + im.rootn) ≠ 0 then [] else walkPath h va im.troot [(30, im.rootn), (21, 9), (16, 5)]

/-- The reads of a walk that takes no ck of its own: none when the translation is cached. -/
def xlateReads (core img va : Nat) : Act := fun h =>
  if (tlbFind (h.core core) img va).isSome then [] else Act.each (walkEnts h core img va) lineRead h

/-! ### Fetching (R114, R423)

A bundle or metadata fetch takes no ck of its own in the model: the spec gives a fetch no latency and names no fetch wait
(R161, R309). It reads through the translation cache, the L1 and the home slices, and fills them. -/

/-- Translate for a fetch or for the hardware's own flat reads and writes: the cached leaf, else a walk. (DEDUCED, log 14) -/
def xlate (h : Hw) (core img va cls : Nat) (wr : Bool) : Except Nat TlbEnt :=
  match tlbFind (h.core core) img va with
  | some e => if !leafAllows e.leaf cls wr then .error 1 else if !memOk h (paUnder e va) then .error 2 else .ok e
  | none => match walk h (pkgOfCore core) img va with
    | .bad r => .error r
    | .leaf e => if !leafAllows e.leaf cls wr then .error 1 else if !memOk h (paUnder e va) then .error 2 else .ok e

/-- A word fetched as it stood before it was written while instance `inst` runs (R114, R405). -/
def codeBytes (h : Hw) (inst pa : Nat) (l : List Byte) : List Byte :=
  let was := (h.inst inst).codeWas
  if was.isEmpty then l else l.zipIdx.map (fun b => (SMap.find was (pa + b.2)).getD b.1)

/-- The bytes of one fetched 4-byte word for a seat of instance `inst`, from the L1 line if it is there, else from memory; or the
class 4 reason, 9 when memory cannot deliver the line (R409). (DEDUCED, log 14) -/
def fetchWord (h : Hw) (core img inst va cls : Nat) : Except Nat Nat :=
  match xlate h core img va cls false with
  | .error r => .error r
  | .ok e =>
    let pa := paUnder e va
    match l1Find (h.core core) img va with
    | some l => .ok (leVal (codeBytes h inst pa ((l.data.drop (va % 64)).take 4)))
    | none => if h.glob.poison.contains (lineOf pa) then .error 9 else .ok (leVal (codeBytes h inst pa (readBytes h pa 4)))

/-- What a fetch leaves in the caches: the entries of a walk and the line of a miss come through their home slices (an MS line from its
memory), and the translation cache and the L1 hold the page and the line (R114, R116, R120). -/
def fetchFill (core img va cls : Nat) : Act := fun h =>
  match xlate h core img va cls false with
  | .error _ => []
  | .ok e =>
    let pa := paUnder e va
    let old := l1Find (h.core core) img va
    let l : L1Line := old.getD { va := va / 64, img := img, data := readBytes h (pa / 64 * 64) 64 }
    Act.all [xlateReads core img va, Act.when (old.isNone && !ebit e.leaf 5) (lineRead pa), modCore core (fun co => l1Put (tlbPut co e) l)] h


/-! ### Accesses -/

/-- Is the access a write at its point of coherence? -/
def AccKind.writes : AccKind → Bool
  | .store => true
  | .vstore => true
  | .tstore => true
  | .amo _ _ _ _ _ => true
  | _ => false

/-- The parts of a flat access to n bytes at va, one for each line (R201); `fuel` bounds the lines. -/
def lineParts : Nat → Nat → Nat → Nat → List Part
  | 0, _, _, _ => []
  | f + 1, va, n, off =>
    if n = 0 then [] else
    let m := min n (64 - va % 64)
    { va := va, off := off, len := m } :: lineParts f ((va + m) % 2 ^ 56) (n - m) (off + m)

/-- Causes decided at issue: a cached leaf without the permission (R423). -/
def flatCauses (co : Core) (img cls : Nat) (wr : Bool) (sl : Slot) (parts : List Part) : List Cause :=
  (parts.filter (fun p => match tlbFind co img p.va with
    | some e => !leafAllows e.leaf cls wr
    | none => false)).map (fun p => mkCause (0x81 + 4 * cls) p.va sl)

/-- A part at issue: translated by the cache and ready (7), or waiting for its walk (0); a write through a leaf with
D = 0 walks (R120), and so does an address under a leaf that is not one of memory, which the walk then charges (R111). -/
def partAtIssue (h : Hw) (co : Core) (img : Nat) (wr : Bool) (p : Part) : Part :=
  match tlbFind co img p.va with
  | some e => if (wr && !ebit e.leaf 6) || !memOk h (paUnder e p.va) then { p with st := 0 }
      else { p with pa := paUnder e p.va, ms := ebit e.leaf 5, code := ebit e.leaf 4, st := 7 }
  | none => { p with st := 0 }

/-- The seat key that accesses of no seat carry. -/
def resSeat : Nat := 2 ^ 18 - 1

/-- The package that an access belongs to. -/
def Access.pkg (a : Access) : Nat := if a.seat = resSeat then a.scPkg else pkgOfCore (coreOf a.seat)

/-- Reads of a walk's table entries, in the numbering of an access's parts. -/
def walkPartNo : Nat := 2 ^ 20

/-- The port of a core's requests at a slice bank (R315). (DEDUCED, log 73) -/
def corePort (core : Nat) : Nat := core % 1152 % 8

/-- The core that an access serves. -/
def Access.core (a : Access) : Nat :=
  match a.kind with
  | .table core _ => core
  | _ => coreOf a.seat

/-- A walk asks the home slice for its next entry, on the port of its core (R315); after its last entry it ends. (DEDUCED, log 15) -/
def walkStep (id i : Nat) : Act := fun h =>
  match h.acc? id with
  | none => schedule h.glob.now (.pageWalkComplete id i) h
  | some a =>
    let core := a.core
    let p := a.parts.getD i {}
    match (walkEnts h core a.img p.va)[p.wl]? with
    | none => after (if p.wl = 0 then 1 else 0) (.pageWalkComplete id i) h
    | some ea => Act.all [
        modAcc id (fun a => { a with parts := a.parts.set i { p with wl := p.wl + 1 } }),
        sendTo (domCl core) (core % 8) (homeDom h ea) 8 10 none id (.slice {
          port := corePort core, arrived := 0, src := core, seat := isSeat1 a.seat, acc := id, part := walkPartNo + i, line := lineOf ea })] h

/-- Start a walk for a part, or queue it for a walker (R120). -/
def startWalk (core id part : Nat) : Act := fun h =>
  match h.acc? id with
  | none => []
  | some _ =>
    let d := domDie core
    if (h.die d).walks.length < 512 then Act.all [
      modDie d (fun d => { d with walks := d.walks ++ [(id, part)] }),
      modAcc id (fun a => { a with parts := a.parts.set part { a.parts.getD part {} with wl := 0 } }),
      walkStep id part] h
    else modDie d (fun d => { d with walkQ := d.walkQ ++ [(id, part)] }) h

/-- The accesses of a seat, oldest first. -/
def seatAccs (h : Hw) (k : Nat) : List (Nat × Access) := h.accs.filter (fun a => a.2.seat == k)

def setPart (a : Access) (i : Nat) (p : Part) : Access := { a with parts := a.parts.set i p }
def modPart (id i : Nat) (f : Part → Part) : Act := modAcc id (fun a => setPart a i (f (a.parts.getD i {})))

/-- The domain cluster of a part's home. -/
def partHome (h : Hw) (p : Part) : Nat := homeDom h p.pa

/-- The port of a slice request (R315): by core index; atomics on port 9. -/
def slicePort (a : Access) : Nat :=
  match a.kind with
  | .amo _ _ _ _ _ => 9
  | _ => corePort a.core

/-- The site of an atomic (R392): 0 home slice, 1 memory-side unit, 2 and 3 the same in another package. -/
def atomicSite (core pa : Nat) (ms : Bool) : Nat :=
  (if pa / 2 ^ 46 = pkgOfCore core then 0 else 2) + (if ms then 1 else 0)

/-- The access of a seat ends without effect: its waiting result goes. -/
def cancelAcc (id : Nat) : Act := fun h =>
  match h.acc? id with
  | none => []
  | some a => Act.all [dropAcc id, loseResult a.seat id] h

/-- Charge the failed walks of an access once all of them have ended: the lowest code, TVAL the lowest faulting address.
The access becomes a retry entry (R423, R424), unless its recovery is A (no retry), it is an atomic on a target without
an atomic unit (discarded, R436), or its seat is gone. -/
def chargeWalks (id : Nat) : Act := fun h =>
  match h.acc? id with
  | none => []
  | some a =>
    let bad := a.parts.filter (fun p => p.st == 6)
    if bad.isEmpty || a.parts.any (fun p => p.st == 0) then [] else
    let code := bad.foldl (fun b p => min b p.why) 512
    let va := bad.foldl (fun b p => min b p.va) (2 ^ 64 - 1)
    Act.all [
      modAcc id (fun a => { a with parts := a.parts.map (fun p => { p with st := 6 }) }),
      Act.when (recov code != .s || !SMap.has h.seats a.seat) (cancelAcc id),
      modOwner a.seat (fun s => { s with pendCause := s.pendCause ++
        [{ code := code, tval := BitVec.ofNat 64 va, slots := 0, due := h.coreT (coreOf a.seat) }] })] h

/-- A part leaves the core: an L1 hit answers 6 ck later; else the request goes to the home unit (R312, R315). A home in
a partition under reset drops it (R399), and refuses an atomic (R436); an unreachable package loses it (R460). -/
def sendPart (id i : Nat) : Act := fun h =>
  match h.acc? id with
  | none => []
  | some a =>
    let p := a.parts.getD i {}
    let core := coreOf a.seat
    let pk := p.pa / 2 ^ 46
    let l1 := match a.kind with
      | .load _ _ _ => !a.bypass
      | .vload _ _ => !a.bypass
      | _ => false
    match (if l1 then l1Find (h.core core) a.img p.va else none) with
    | some l => Act.all [modPart id i (fun q => { q with st := 4, rdata := (l.data.drop (q.va % 64)).take q.len }),
        modCore core (fun co => l1Put co l), after 6 (.lateDataArrival id i)] h
    | none =>
      if !reachable h (pkgOfCore core) pk then
        Act.all [record (domDie core) { code := 0x156, unitk := 8, unit := pk }, loseAccess id bitLink] h
      else if paFenced h p.pa then
        (match a.kind with
          | .amo _ _ _ _ _ => Act.all [modPart id i (fun q => { q with st := 6, why := 0x102 + 4 * atomicSite core p.pa p.ms }), chargeWalks id]
          | _ => Act.all [record (domDie core) { code := 0x152, unitk := 3, unit := partHome h p }, loseAccess id bitReset]) h
      else
        let r : SliceReq := { port := slicePort a, arrived := 0, src := core, seat := isSeat1 a.seat, acc := id, part := i, line := lineOf p.pa }
        Act.all [modPart id i (fun q => { q with st := 1, fill := l1 }),
          sendMsg (domCl core) (core % 8) (partHome h p) 8 (if p.ms then 0 else 10) id (if a.kind.writes then p.len else 0) 0 1 (some (lineOf p.pa))
            (if p.ms then .event (.lateDataArrival id i) else .slice r)] h

/-- Does an older access of the seat to the line of a part hold it in the core (R146, R201, R425)? -/
def heldBehind (l : List (Nat × Access)) (id : Nat) (img va : Nat) : Bool :=
  l.any (fun b => decide (b.1 < id) && b.2.img == img &&
    b.2.parts.any (fun q => q.va / 64 == va / 64 && (q.st == 0 || q.st == 6 || q.st == 7)))

/-- Send every ready part of a seat that nothing holds, oldest first. -/
def pump (k : Nat) : Act := Act.look (fun h =>
  Act.each (seatAccs h k) (fun e =>
    Act.when (e.2.kind != .tstore && !e.2.parts.any (fun p => p.st == 0 || p.st == 6) && e.2.parts.any (fun p => p.st == 7))
      (Act.each (List.range e.2.parts.length) (fun i => Act.look (fun h =>
        match h.acc? e.1 with
        | none => Act.nil
        | some a =>
          let p := a.parts.getD i {}
          Act.when (p.st == 7 && !heldBehind (seatAccs h k) e.1 a.img p.va) (sendPart e.1 i))))))

/-- The part of a load whose line a later store of the core writes: its data lands, but it fills no line (R115, R201). -/
def Part.noFill (q : Part) : Part :=
  { q with fill := false, rdata := if q.st < 4 then q.rdata else (q.rdata.drop (q.va % 64)).take q.len }

/-- Start a flat access under a number: translate or walk each part, invalidate L1 lines that it writes (R115), stop
fills of those lines, and send what is ready. -/
def startFlat (k : Nat) (a : Access) (id : Nat) : Act := fun h =>
  let core := coreOf k
  let co := h.core core
  let wr := a.kind.writes || decide (a.cls = 6)
  let parts := a.parts.map (partAtIssue h co a.img wr)
  let lines := a.parts.map (fun p => p.va / 64)
  Act.all [
    Act.when wr (Act.all [
      modCore core (fun co => a.parts.foldl (fun c p => l1Drop c a.img p.va) co),
      Act.each (h.accs.filter (fun b => coreOf b.2.seat == core && b.2.img == a.img &&
          b.2.parts.any (fun q => q.fill && lines.contains (q.va / 64))))
        (fun b => modAcc b.1 (fun x => { x with parts := x.parts.map (fun q =>
          if q.fill && lines.contains (q.va / 64) then q.noFill else q) }))]),
    modCore core (fun c => a.parts.foldl (fun c p => match tlbFind c a.img p.va with
      | some e => tlbPut c e
      | none => c) c),
    putAcc id { a with parts := parts },
    Act.each (List.range parts.length) (fun i => Act.when ((parts.getD i {}).st == 0) (startWalk core id i)),
    pump k] h

/-! ### Performing (R140, R435) -/

/-- The bytes of an executable page that are about to be written are kept for the instances of the image that run (R114, R405). -/
def noteCode (pk img : Nat) (pas : List Nat) : Act := fun h =>
  Act.each (h.insts.filter (fun i => i.2.pkg == pk && i.2.img == img && i.2.st == 1)) (fun i => modInst i.1 (fun x => { x with
    codeWas := pas.foldl (fun m a => if SMap.has m a then m else SMap.insert m a (Memory.read h.mem a)) x.codeWas })) h

/-- Do the reads or writes of a part at its point of coherence. A poisoned line poisons what reads it; a write of the
whole line clears the poison. -/
def performRW (id i : Nat) : Act := fun h =>
  match h.acc? id with
  | none => []
  | some a =>
    let p := a.parts.getD i {}
    let ln := lineOf p.pa
    let bad := h.glob.poison.contains ln
    if a.kind.writes then
      let whole := decide (64 ≤ p.wdata.length)
      Act.all [
        Act.when p.code (noteCode (pkgOfCore a.core) a.img (p.wdata.map (fun w => p.pa + w.1))),
        writeMem (p.wdata.map (fun w => (p.pa + w.1, w.2))),
        Act.when (bad && whole) (modGlob (fun g => { g with poison := g.poison.filter (fun x => x != ln) })),
        Act.when (bad && !whole) (modAcc id (fun a => { a with fail := a.fail ||| (2 ^ bitPoison), nfail := a.nfail + 1 })),
        modPart id i (fun q => { q with st := 5 })] h
    else
      let d := if p.fill then readBytes h (ln * 64) 64 else readBytes h p.pa p.len
      modPart id i (fun q => { q with st := 4, rdata := d, poison := bad }) h

/-- Does the access end in a landing (which forgets it)? -/
def AccKind.lands : AccKind → Bool
  | .tload _ _ _ _ _ => true
  | .tdec _ _ _ _ => true
  | .nrecv _ _ _ _ => true
  | .cyrcv _ _ _ => true
  | .scanRes _ _ _ => true
  | _ => false

/-- An access whose parts have all performed, and that has nothing to land, has ended. -/
def accDone (a : Access) : Bool := a.parts.all (fun p => p.st == 5 || p.st == 8) && a.left == 0 && !a.kind.lands

/-- Forget an access that has ended; one that failed stays until a DRAIN has reported it (R437). -/
def reap (id : Nat) : Act := fun h =>
  match h.acc? id with
  | none => []
  | some a => if accDone a && a.fail == 0 then dropAcc id h else []

/-- The data of a performed read goes back to the core (R312). -/
def replyPart (id i : Nat) : Act := fun h =>
  match h.acc? id with
  | none => []
  | some a =>
    let p := a.parts.getD i {}
    sendMsg (partHome h p) 8 (domCl a.core) (a.core % 8) 10 id (if p.fill then 64 else p.len) 0 1 none (.event (.lateDataArrival id i)) h

/-- Perform a part at its point of coherence: reads and writes here, atomics as their own step. -/
def performPart (id i : Nat) : Act := fun h =>
  match h.acc? id with
  | none => []
  | some a =>
    match a.kind with
    | .amo _ _ _ _ _ => schedule h.glob.now (.atomicExecution id i) h
    | .prefetch => Act.all [modPart id i (fun q => { q with st := 5 }), layerDone id, reap id] h
    | k => if k.writes then Act.all [performRW id i, layerDone id, reap id] h
           else Act.all [performRW id i, layerDone id, replyPart id i] h

/-! ### Data reaches the core (R142, R386, R424) -/

/-- The bytes of an access by offset. -/
def accBytes (a : Access) : List Byte :=
  (a.parts.foldl (fun acc p => acc ++ [(p.off, if p.fill then (p.rdata.drop (p.va % 64)).take p.len else p.rdata.take p.len)]) []).flatMap (·.2)

/-- Extend a loaded value (R199). -/
def extendLoad (size : Nat) (sgn : Bool) (v : Nat) : W64 :=
  if sgn then BitVec.ofNat 64 (imageNat 64 (sextNat (8 * size) v)) else BitVec.ofNat 64 v

/-- The result of a complete access as the landing path holds it. -/
def accValue (a : Access) : BitVec 2048 :=
  let b := accBytes a
  match a.kind with
  | .load _ n s => BitVec.ofNat 2048 (extendLoad n s (leVal b)).toNat
  | .amo op _ w _ _ => BitVec.ofNat 2048 (extendLoad (if w then 4 else 8) (op != .fadd && w) (leVal b)).toNat
  | .vload _ lanes => ofLanes (fun n => match lanes.find? (fun l => l.1 == n) with
    | none => 0
    | some l => leVal ((b.drop l.2).take 4))
  | _ => 0

/-- Give an access's value to the results that wait for it. -/
def givePend (id : Nat) (v : BitVec 2048) (l : List Pend) : List Pend :=
  l.map (fun p => if p.acc = some id then { p with acc := none, val := v } else p)

/-- The landing of a complete load, atomic or vector load: into its waiting result, or as poisoned data (R386). -/
def finishLoad (id : Nat) : Act := fun h =>
  match h.acc? id with
  | none => []
  | some a =>
    let k := a.seat
    if a.parts.any (fun p => p.poison) then
      Act.all [poisonResult k id (poisonCode h (lineOf ((a.parts.find? (fun p => p.poison)).getD {}).pa)),
        modAcc id (fun a => { a with fail := a.fail ||| (2 ^ bitPoison), nfail := a.nfail + 1, left := 0 })] h
    else Act.all [modOwner k (fun s => { s with
      pend := givePend id (accValue a) s.pend, captured := givePend id (accValue a) s.captured }), reap id] h

/-- A reply part arrives at the core: the L1 line fills, and the last part completes the access. -/
def partArrives (id i : Nat) : Act := fun h =>
  match h.acc? id with
  | none => []
  | some a =>
    let p := a.parts.getD i {}
    Act.all [
      Act.when (p.fill && !p.poison) (modCore (coreOf a.seat) (fun co => l1Put co { va := p.va / 64, img := a.img, data := p.rdata })),
      modPart id i (fun q => { q with st := 5 }),
      Act.look (fun h => match h.acc? id with
        | none => Act.nil
        | some a => Act.when (a.parts.all (fun q => q.st == 5)) (match a.kind with
          | .load _ _ _ => finishLoad id
          | .amo _ _ _ _ _ => finishLoad id
          | .vload _ _ => finishLoad id
          | .table core ents => Act.all [tableFill core ents p.pa p.rdata p.poison, dropAcc id]
          | _ => Act.nil))] h

/-! ### Walks end (R120, R423 to R426) -/

/-- A free walker takes the next waiting walk; those whose access is gone wait no longer. -/
def nextWalk (die : Nat) : Act := fun h =>
  let q := (h.die die).walkQ.filter (fun e => (h.acc? e.1).isSome)
  Act.all [modDie die (fun d => { d with walkQ := q.drop 1 }),
    match q with
    | [] => Act.nil
    | (id, p) :: _ => match h.acc? id with
      | none => Act.nil
      | some a => startWalk (coreOf a.seat) id p] h

/-- A retry entry is re-issued with a fresh walk (R424). -/
def reissue (k : Nat) : Act := Act.look (fun h =>
  Act.each ((seatAccs h k).filter (fun e => e.2.parts.any (fun p => p.st == 6))) (fun e => Act.all [
    modAcc e.1 (fun a => { a with parts := a.parts.map (fun p => { p with st := 0, why := 0 }) }),
    Act.each (List.range e.2.parts.length) (fun i => startWalk (coreOf k) e.1 i)]))

/-- What a walk that ended gives a part: the part, and the translation cache entry to keep (a leaf, also one that lacks
the permission, R427). -/
def walkedPart (h : Hw) (a : Access) (p : Part) : Part × Option TlbEnt :=
  let core := coreOf a.seat
  let wr := a.kind.writes || decide (a.cls = 6)
  match walk h (pkgOfCore core) a.img p.va with
  | .bad r => ({ p with st := 6, why := 0x80 + 4 * a.cls + r }, none)
  | .leaf e =>
    let pa := paUnder e p.va
    let dfail := h.glob.poison.contains (lineOf e.ent)
    let dref := paFenced h e.ent
    if !leafAllows e.leaf a.cls wr then ({ p with st := 6, why := 0x81 + 4 * a.cls }, some e)
    else if !memOk h pa then
      ({ p with st := 6, why := if a.cls = 4 then 0x101 + 4 * atomicSite core pa (ebit e.leaf 5) else 0x82 + 4 * a.cls }, none)
    else if wr && !ebit e.leaf 6 && dref then ({ p with st := 6, why := 0x11E }, none)
    else if wr && !ebit e.leaf 6 && dfail then ({ p with st := 6, why := 0x11F }, none)
    else
      let e := if wr then { e with leaf := e.leaf ||| 0x40 } else e
      ({ p with st := 7, pa := pa, ms := ebit e.leaf 5, code := ebit e.leaf 4 }, some e)

/-- A walk ends (R120): the translation cache is filled, D is set at the entry for a write, failed walks are charged, and
what is ready goes. A walk that an invalidation overtook walks again (R426). -/
def walkEnds (id i : Nat) : Act := fun h =>
  let free := Act.each ((h.dies.filter (fun d => d.2.walks.contains (id, i))).map (fun d => d.1)) (fun d => Act.all [
    modDie d (fun x => { x with walks := x.walks.erase (id, i) }), nextWalk d])
  match h.acc? id with
  | none => free h
  | some a =>
    let core := coreOf a.seat
    let p := a.parts.getD i {}
    Act.all [free,
      if p.st ≠ 0 then Act.nil
      else if p.redo then Act.all [modPart id i (fun q => { q with redo := false }), startWalk core id i]
      else
        let r := walkedPart h a p
        Act.all [
          (match r.2 with
            | none => Act.nil
            | some e => Act.all [modCore core (fun co => tlbPut co e),
                Act.when (ebit e.leaf 6) (fun h => [.mem [(e.ent, BitVec.ofNat 8 ((Memory.read h.mem e.ent).toNat ||| (if r.1.st = 7 then 0x40 else 0)))]])]),
          modPart id i (fun _ => r.1), chargeWalks id, pump a.seat]] h

end Sys2Proof.Machine
end

