-- ==== Sys2Proof/Machine/Num.lean ====
section
/-! DEFINITION. Number formats and exact arithmetic: float decode, correctly rounded packing, IEEE 754-2019 operations
(R79, R80, R95, R99 to R103, R230, R233). Values are exact dyadics; rounding happens once, at packing. -/

namespace Sys2Proof.Machine

/-- Rounding modes (R99). -/
inductive RM where
  | ne | tz | tp | tm
deriving DecidableEq, Repr

/-- The RM field of V.R (R99). -/
def RM.ofBits (b : BitVec 2) : RM :=
  if b = 0 then .ne else if b = 1 then .tz else if b = 2 then .tp else .tm

/-- A binary float layout: exponent bits, fraction bits, bias; `e4` is FP8E4, which has no infinities (R79, R80). -/
structure FFmt where
  eb : Nat
  fb : Nat
  bias : Nat
  e4 : Bool
deriving DecidableEq, Repr

def fp32 : FFmt := ⟨8, 23, 127, false⟩
def fp16 : FFmt := ⟨5, 10, 15, false⟩
def bf16 : FFmt := ⟨8, 7, 127, false⟩
def fp8e5 : FFmt := ⟨5, 2, 15, false⟩
def fp8e4 : FFmt := ⟨4, 3, 7, true⟩

/-- A decoded element: NaN, infinity, or ±sig·2^exp (R80). -/
inductive FVal where
  | nan
  | inf (neg : Bool)
  | fin (neg : Bool) (sig : Nat) (exp : Int)
deriving DecidableEq, Repr

/-- Width of a format's image. -/
def FFmt.width (f : FFmt) : Nat := 1 + f.eb + f.fb

/-- R80: the value of an image. -/
def FFmt.decode (f : FFmt) (x : Nat) : FVal :=
  let neg := bitOf x (f.eb + f.fb)
  let e := field x (f.eb + f.fb - 1) f.fb
  let m := x % 2 ^ f.fb
  if f.e4 then
    if e = 2 ^ f.eb - 1 ∧ m = 2 ^ f.fb - 1 then .nan
    else if e = 0 then .fin neg m (1 - (f.bias : Int) - f.fb)
    else .fin neg (2 ^ f.fb + m) ((e : Int) - f.bias - f.fb)
  else if e = 2 ^ f.eb - 1 then (if m = 0 then .inf neg else .nan)
  else if e = 0 then .fin neg m (1 - (f.bias : Int) - f.fb)
  else .fin neg (2 ^ f.fb + m) ((e : Int) - f.bias - f.fb)

/-- The sign bit in place. -/
def FFmt.signBit (f : FFmt) (neg : Bool) : Nat := if neg then 2 ^ (f.eb + f.fb) else 0

/-- The canonical NaN (R96, R100). -/
def FFmt.qnan (f : FFmt) : Nat :=
  if f.e4 then 0x7F else (2 ^ f.eb - 1) * 2 ^ f.fb + 2 ^ (f.fb - 1)

/-- Magnitude image of the largest finite value. -/
def FFmt.maxMag (f : FFmt) : Nat :=
  if f.e4 then 0x7E else (2 ^ f.eb - 1) * 2 ^ f.fb - 1

/-- Magnitude image of infinity (IEEE formats). -/
def FFmt.infMag (f : FFmt) : Nat := (2 ^ f.eb - 1) * 2 ^ f.fb

/-- Does the rounding mode go up in magnitude, given the discarded part against half an ulp? -/
def roundUp (rm : RM) (neg : Bool) (odd : Bool) (half : Ordering) (zeroRest : Bool) : Bool :=
  if zeroRest then false else
  match rm with
  | .ne => match half with
    | .gt => true
    | .eq => odd
    | .lt => false
  | .tz => false
  | .tp => !neg
  | .tm => neg

/-- Divide sig by 2^sh and round in the mode; `sticky` says that the exact value lies strictly above sig (by less
than one unit of sig). -/
def shiftRound (rm : RM) (neg : Bool) (sig : Nat) (sh : Int) (sticky : Bool) : Nat :=
  if sh ≤ 0 then
    let q := sig * 2 ^ (-sh).toNat
    if roundUp rm neg (q % 2 == 1) .lt (!sticky) then q + 1 else q
  else
    let n := sh.toNat
    let q := sig >>> n
    let r := sig - q <<< n
    let half : Nat := 1 <<< (n - 1)
    let c : Ordering := if r < half then .lt else if half < r then .gt else if sticky then .gt else .eq
    if roundUp rm neg (q % 2 == 1) c (r == 0 && !sticky) then q + 1 else q

/-- The magnitude image of ±(sig + sticky)·2^exp rounded in the mode with an unbounded exponent above; none when
it overflows (R95, R102). A caller with `sticky` gives sig at least fb + 3 bits. -/
def FFmt.pack? (f : FFmt) (rm : RM) (neg : Bool) (sig : Nat) (exp : Int) (sticky : Bool) : Option Nat :=
  if sig = 0 then some 0 else
  let e : Int := exp + Nat.log2 sig
  let emin : Int := 1 - f.bias
  let q : Int := (if e < emin then emin else e) - f.fb
  let m := shiftRound rm neg sig (q - exp) sticky
  let (m, q) := if 2 ^ (f.fb + 1) ≤ m then (m / 2, q + 1) else (m, q)
  let mag := if m < 2 ^ f.fb then m else (q + f.fb + f.bias).toNat * 2 ^ f.fb + (m - 2 ^ f.fb)
  if f.maxMag < mag then none else some mag

/-- IEEE overflow result in the mode (R99, R102); FP8E4 clamps to ±448. -/
def FFmt.overflow (f : FFmt) (rm : RM) (neg : Bool) : Nat :=
  if f.e4 then f.maxMag else
  match rm with
  | .ne => f.infMag
  | .tz => f.maxMag
  | .tp => if neg then f.maxMag else f.infMag
  | .tm => if neg then f.infMag else f.maxMag

/-- Round ±(sig + sticky)·2^exp into the format, IEEE rules. -/
def FFmt.round (f : FFmt) (rm : RM) (neg : Bool) (sig : Nat) (exp : Int) (sticky : Bool) : Nat :=
  f.signBit neg + (match f.pack? rm neg sig exp sticky with
    | some m => m
    | none => f.overflow rm neg)

/-- An image of a decoded value that needs no rounding of specials; FP8E4 clamps infinities (R102). -/
def FFmt.ofVal (f : FFmt) (rm : RM) : FVal → Nat
  | .nan => f.qnan
  | .inf n => f.signBit n + (if f.e4 then f.maxMag else f.infMag)
  | .fin n s e => f.round rm n s e false

/-- Exact signed integer and exponent of a finite value. -/
def signed (neg : Bool) (sig : Nat) : Int := if neg then -(sig : Int) else sig

/-- The sum of two dyadics as a pair (integer, exponent). -/
def dyAdd (a : Int) (ea : Int) (b : Int) (eb : Int) : Int × Int :=
  let e := if ea ≤ eb then ea else eb
  (a * 2 ^ (ea - e).toNat + b * 2 ^ (eb - e).toNat, e)

/-- Round a signed dyadic; `zneg` is the sign of an exact zero. -/
def FFmt.roundInt (f : FFmt) (rm : RM) (x : Int) (e : Int) (zneg : Bool) : Nat :=
  if x = 0 then f.signBit zneg else f.round rm (decide (x < 0)) x.natAbs e false

/-- IEEE addition of decoded values. -/
def FFmt.addV (f : FFmt) (rm : RM) (a b : FVal) : Nat :=
  match a, b with
  | .nan, _ => f.qnan
  | _, .nan => f.qnan
  | .inf n, .inf m => if n = m then f.ofVal rm (.inf n) else f.qnan
  | .inf n, _ => f.ofVal rm (.inf n)
  | _, .inf m => f.ofVal rm (.inf m)
  | .fin n s e, .fin m t g =>
    let (x, q) := dyAdd (signed n s) e (signed m t) g
    let zneg := if s = 0 ∧ t = 0 ∧ n = m then n else decide (rm = .tm)
    f.roundInt rm x q zneg

/-- Negate a decoded value. -/
def FVal.neg : FVal → FVal
  | .nan => .nan
  | .inf n => .inf (!n)
  | .fin n s e => .fin (!n) s e

/-- Exact product of decoded values. -/
def FVal.mul (a b : FVal) : FVal :=
  match a, b with
  | .nan, _ => .nan
  | _, .nan => .nan
  | .inf n, .inf m => .inf (n != m)
  | .inf n, .fin m s _ => if s = 0 then .nan else .inf (n != m)
  | .fin m s _, .inf n => if s = 0 then .nan else .inf (n != m)
  | .fin n s e, .fin m t g => .fin (n != m) (s * t) (e + g)

/-- Integer square root by binary digits, `fuel` digits. -/
def isqrtAux : Nat → Nat → Nat → Nat
  | 0, _, r => r
  | k + 1, n, r =>
    let c := r + 1 <<< k
    if c * c ≤ n then isqrtAux k n c else isqrtAux k n r

/-- floor(sqrt n). -/
def isqrt (n : Nat) : Nat := isqrtAux (Nat.log2 n / 2 + 1) n 0

/-- IEEE division (R101). -/
def FFmt.divV (f : FFmt) (rm : RM) (a b : FVal) : Nat :=
  match a, b with
  | .nan, _ => f.qnan
  | _, .nan => f.qnan
  | .inf _, .inf _ => f.qnan
  | .inf n, .fin m _ _ => f.ofVal rm (.inf (n != m))
  | .fin n _ _, .inf m => f.signBit (n != m)
  | .fin n s e, .fin m t g =>
    if t = 0 then (if s = 0 then f.qnan else f.ofVal rm (.inf (n != m)))
    else if s = 0 then f.signBit (n != m)
    else
      let k := f.fb + 6 + Nat.log2 t
      let num := s * 2 ^ k
      f.round rm (n != m) (num / t) (e - g - k) (num % t != 0)

/-- IEEE square root (R101). -/
def FFmt.sqrtV (f : FFmt) (rm : RM) (a : FVal) : Nat :=
  match a with
  | .nan => f.qnan
  | .inf n => if n then f.qnan else f.ofVal rm (.inf false)
  | .fin n s e =>
    if s = 0 then f.signBit n
    else if n then f.qnan
    else
      let k := 2 * (f.fb + 6)
      let (s, e) := if (e - k) % 2 = 0 then (s * 2 ^ k, e - k) else (s * 2 ^ (k + 1), e - k - 1)
      let r := isqrt s
      f.round rm false r (e / 2) (r * r != s)

/-- Reciprocal square root (R101). -/
def FFmt.rsqrtV (f : FFmt) (rm : RM) (a : FVal) : Nat :=
  match a with
  | .nan => f.qnan
  | .inf n => if n then f.qnan else 0
  | .fin n s e =>
    if s = 0 then f.ofVal rm (.inf n)
    else if n then f.qnan
    else
      let (s, e) := if e % 2 = 0 then (s, e) else (s * 2, e - 1)
      let k := f.fb + 6 + Nat.log2 s
      let r := isqrt (2 ^ (2 * k) / s)
      f.round rm false r (-(k : Int) - e / 2) (r * r * s != 2 ^ (2 * k))

/-- Fraction bits of the working precision of 2^x. -/
def exp2Prec : Nat := 128

/-- 2^(frac/2^n) in `exp2Prec` fraction bits, truncated: the product of the roots 2^(2^-i) of the set bits. -/
def exp2Frac : Nat → Nat → Nat → Nat → Nat
  | 0, _, _, acc => acc
  | k + 1, frac, root, acc =>
    let root' := isqrt (root * 2 ^ exp2Prec)
    let acc' := if bitOf frac k then (acc * root') >>> exp2Prec else acc
    exp2Frac k frac root' acc'

/-- exp2 (R101). A nonintegral argument has an irrational result; 128 bits decide every rounding of these formats. -/
def FFmt.exp2V (f : FFmt) (rm : RM) (a : FVal) : Nat :=
  match a with
  | .nan => f.qnan
  | .inf n => if n then 0 else f.ofVal rm (.inf false)
  | .fin n s e =>
    let one : Nat := 2 ^ 64
    if s = 0 then f.round rm false 1 0 false
    else if e + Nat.log2 s < -40 then
      (if n then f.round rm false (one - 1) (-64) true else f.round rm false one (-64) true)
    else if 12 < e + Nat.log2 s then
      (if n then f.round rm false one (-4096) true else f.round rm false one 4096 true)
    else
      let x := signed n s
      if 0 ≤ e then f.round rm false 1 (x * 2 ^ e.toNat) false
      else
        let w := (-e).toNat
        let ip : Int := x / (2 ^ w : Nat)
        let fp : Nat := (x % (2 ^ w : Nat)).toNat
        if fp = 0 then f.round rm false 1 ip false
        else f.round rm false (exp2Frac w fp (2 * 2 ^ exp2Prec) (2 ^ exp2Prec)) (ip - exp2Prec) true

/-- Working precision of log2. -/
def log2Prec : Nat := 256

/-- Binary digits of log2 of y in [1, 2) scaled by 2^log2Prec, most significant first. -/
def log2Digits : Nat → Nat → Nat → Nat
  | 0, _, acc => acc
  | k + 1, y, acc =>
    let y2 := (y * y) >>> log2Prec
    if 2 * 2 ^ log2Prec ≤ y2 then log2Digits k (y2 / 2) (2 * acc + 1) else log2Digits k y2 (2 * acc)

/-- log2 (R101). -/
def FFmt.log2V (f : FFmt) (rm : RM) (a : FVal) : Nat :=
  match a with
  | .nan => f.qnan
  | .inf n => if n then f.qnan else f.ofVal rm (.inf false)
  | .fin n s e =>
    if s = 0 then f.ofVal rm (.inf true)
    else if n then f.qnan
    else
      let l := Nat.log2 s
      let ip : Int := e + l
      if s = 2 ^ l then f.roundInt rm ip 0 false
      else
        let frac := log2Digits 112 (s * 2 ^ (log2Prec - l)) 0
        let t : Int := ip * (2 ^ 112 : Nat) + frac
        if 0 ≤ t then f.round rm false t.toNat (-112) true
        else f.round rm true (-t - 1).toNat (-112) true

/-- Fused multiply-add: a·b + c rounded once (R99). -/
def FFmt.fmaV (f : FFmt) (rm : RM) (a b c : FVal) : Nat := f.addV rm (FVal.mul a b) c

/-- Compare two finite or infinite values; none when unordered. -/
def FVal.cmp (a b : FVal) : Option Ordering :=
  match a, b with
  | .nan, _ => none
  | _, .nan => none
  | .inf n, .inf m => some (if n = m then .eq else if n then .lt else .gt)
  | .inf n, _ => some (if n then .lt else .gt)
  | _, .inf m => some (if m then .gt else .lt)
  | .fin n s e, .fin m t g =>
    let d := (dyAdd (signed n s) e (-(signed m t)) g).1
    some (if d < 0 then .lt else if 0 < d then .gt else .eq)

/-- Is the value negative (its sign bit)? -/
def FVal.isNeg : FVal → Bool
  | .nan => false
  | .inf n => n
  | .fin n _ _ => n

/-- Minimum or maximum of two images (R100): a NaN beside a number yields the number; −0 is below +0. -/
def FFmt.minmax (f : FFmt) (wantMax : Bool) (x y : Nat) : Nat :=
  match f.decode x, f.decode y with
  | .nan, .nan => f.qnan
  | .nan, _ => y
  | _, .nan => x
  | a, b =>
    let xLess := match FVal.cmp a b with
      | some .lt => true
      | some .gt => false
      | _ => a.isNeg && !b.isNeg
    if wantMax then (if xLess then y else x) else (if xLess then x else y)

def FFmt.add (f : FFmt) (rm : RM) (x y : Nat) : Nat := f.addV rm (f.decode x) (f.decode y)
def FFmt.sub (f : FFmt) (rm : RM) (x y : Nat) : Nat := f.addV rm (f.decode x) (f.decode y).neg
/-- A rounded product (R99). -/
def FFmt.mul (f : FFmt) (rm : RM) (x y : Nat) : Nat := f.ofVal rm (FVal.mul (f.decode x) (f.decode y))
def FFmt.fma (f : FFmt) (rm : RM) (x y z : Nat) : Nat := f.fmaV rm (f.decode x) (f.decode y) (f.decode z)
/-- −a with every NaN canonical (R230). -/
def FFmt.negate (f : FFmt) (x : Nat) : Nat :=
  match f.decode x with
  | .nan => f.qnan
  | _ => if bitOf x (f.eb + f.fb) then x - 2 ^ (f.eb + f.fb) else x + 2 ^ (f.eb + f.fb)

/-- Round a dyadic to an integer in the mode (R102). -/
def dyToInt (rm : RM) (neg : Bool) (sig : Nat) (exp : Int) : Int :=
  signed neg (shiftRound rm neg sig (-exp) false)

/-- Float to integer: rounds, clamps to lo..hi in every mode, NaN gives 0 (R102). -/
def FVal.toInt (rm : RM) (lo hi : Int) : FVal → Int
  | .nan => 0
  | .inf n => if n then lo else hi
  | .fin n s e => clampInt (dyToInt rm n s e) lo hi

/-- A power-of-two-exact conversion between float formats (R233, R102). -/
def FFmt.convert (src dst : FFmt) (rm : RM) (x : Nat) : Nat := dst.ofVal rm (src.decode (x % 2 ^ src.width))

/-- An integer to a float. -/
def FFmt.ofInt (f : FFmt) (rm : RM) (x : Int) : Nat := f.roundInt rm x 0 false

/-- Combine a list of optional leaves along the pairwise tree of R103: adjacent pairs, lower index on the left, an
absent sibling passing the other child on. -/
def pairUp {α : Type} (op : α → α → α) : List (Option α) → List (Option α)
  | a :: b :: r =>
    (match a, b with
      | some x, some y => some (op x y)
      | some x, none => some x
      | none, y => y) :: pairUp op r
  | l => l

/-- The tree of R103 with `fuel` levels. -/
def treeFold {α : Type} (op : α → α → α) : Nat → List (Option α) → Option α
  | 0, l => l.headD none
  | k + 1, l => match l with
    | [x] => x
    | _ => treeFold op k (pairUp op l)

end Sys2Proof.Machine
end

