-- ==== Sys2Proof/Machine/Operands.lean ====
section
/-! DEFINITION. Operand forms: scalar registers and immediates, windows (R63), vector operand specifiers and elements
(R57, R58, R174, R222 to R225), stepped operands (R165, R166), shape records (R60, R61), tile images (R82, R83), and the
results of a slot. -/

namespace Sys2Proof.Machine

/-! ### Scalar operands and immediates (R173, R188, R194) -/

/-- The value of a scalar register as a natural. -/
def xOp (c : Ctx) (r : XNum) : Nat := (c.s.xr r.toNat).toNat

/-- The first register at or above XN is an operand fault (R188). (DEDUCED, log 28) -/
def xLim (c : Ctx) (rs : List XNum) : List Cause :=
  match rs.find? (fun r => decide (c.s.lrec.xn ≤ r.toNat)) with
  | none => []
  | some r => [operandFault c.sl 0 r.toNat]

/-- Registers read, for CHKMODE. -/
def xReads (rs : List XNum) : List (Port × Nat) := rs.map (fun r => (.x, r.toNat))

/-- A scalar result written at core time t + lat; x0 takes none. -/
def wX (c : Ctx) (d : XNum) (v : W64) (lat : Nat) : Act :=
  Act.when (d != 0) (modSeat c.k (fun s => s.addPend (xPend d.toNat v (c.t + lat) c.order)))

/-- An immediate or offset, signed. -/
def immInt {n : Nat} : Imm n → Int
  | .short v => v.toInt
  | .long v => v.toInt

/-- A signed value as a 64-bit image. -/
def w64 (x : Int) : W64 := BitVec.ofInt 64 x

/-- An address modulo 2^56 (R199). (DEDUCED, log 17) -/
def addr56 (base : Nat) (off : Int) : Nat := imageNat 56 ((base : Int) + off)

/-- The offset of S.M. -/
def offInt : MemOff → Int
  | .short o => o.toInt
  | .long _ o => o.toInt

/-- LAND of S.M, 0 when absent. -/
def offLand : MemOff → Nat
  | .short _ => 0
  | .long l _ => l.toNat

/-- A landing offset: the default when the field is 0 (R72). -/
def landOf (dflt land : Nat) : Nat := if land = 0 then dflt else land

/-! ### Windows (R41, R63) -/

/-- The five windowed kinds in the order of TVAL (R403); `tags` is kind 5. -/
inductive Kind where
  | gran | acc | latch | ht | tags
deriving DecidableEq, Repr

def Kind.total : Kind → Nat
  | .gran => 256
  | .acc => 8
  | .latch => 4
  | .ht => 8
  | .tags => 32

def Kind.count (r : LoopRec) : Kind → Nat
  | .gran => r.gn
  | .acc => r.an
  | .latch => r.bn
  | .ht => r.hn
  | .tags => r.ln

def Kind.code : Kind → Nat
  | .gran => 0
  | .acc => 1
  | .latch => 2
  | .ht => 3
  | .tags => 5

/-- The physical index of name i of a seat (R63). -/
def physOf (r : LoopRec) (s1 : Bool) (k : Kind) (i : Nat) : Nat := if s1 then k.total - k.count r + i else i

/-- Physical index of a name of the issuing seat. -/
def phys (c : Ctx) (k : Kind) (i : Nat) : Nat := physOf c.s.lrec (isSeat1 c.k) k i

/-- Names i to i + n − 1 lie in the window, else the operand fault names the first one outside (R63, R406). -/
def winCauses (c : Ctx) (k : Kind) (i : Int) (n : Nat) : List Cause :=
  let cnt := k.count c.s.lrec
  if 0 ≤ i ∧ i + n ≤ cnt then []
  else
    let first : Int := if i < 0 ∨ (cnt : Int) ≤ i then i else cnt
    [operandFault c.sl 1 (imageNat 10 first + k.code * 2 ^ 12)]

/-- A staging granule of an open accumulate window of the seat may not be named (R261): the first one is the cause. -/
def stageCauses (c : Ctx) (gs : List Nat) : List Cause :=
  match (c.co.windows.filter (fun w => w.seat == isSeat1 c.k)).find? (fun w =>
      gs.any (fun g => decide (w.gran ≤ g) && decide (g < w.gran + 8 * w.e))) with
  | none => []
  | some w => [operandFault c.sl 3 (w.acc + 2 ^ 8)]

/-- Physical granules of n names from i. -/
def granList (c : Ctx) (i : Int) (n : Nat) : List Nat := (List.range n).map (fun j => phys c .gran (i.toNat + j))

/-- Granules i to i + n − 1 of the seat: in the window and no staging granule. -/
def granCauses (c : Ctx) (i : Int) (n : Nat) : List Cause :=
  let w := winCauses c .gran i n
  if w.isEmpty then stageCauses c (granList c i n) else w

/-- An offset that left its width faults (R166, R406). -/
def offCauses (c : Ctx) (bits : Nat) (o : Int) : List Cause :=
  if -(2 ^ (bits - 1) : Int) ≤ o ∧ o < 2 ^ (bits - 1) then [] else [operandFault c.sl 2 (imageNat 64 o)]

/-! ### Vector operands (R57, R58, R174, R222) -/

/-- A stepped specifier: 0 to 63 takes the offset, others ignore it. -/
def stepSpec (v : VSpec) (o : Int) : Int := if v.toNat < 64 then v.toNat + o else v.toNat

/-- Faults of a vector specifier at its stepped value: offset width (8 bits, R165), v below VN, x below XN. -/
def specCauses (c : Ctx) (v : VSpec) (o : Int) : List Cause :=
  if v.toNat < 64 then
    offCauses c 8 o ++ (let i := (v.toNat : Int) + o
      if 0 ≤ i ∧ i < c.s.lrec.vn then [] else [operandFault c.sl 0 (imageNat 7 i + 2 ^ 8)])
  else if 96 ≤ v.toNat ∧ c.s.lrec.xn ≤ v.toNat - 96 then [operandFault c.sl 0 (v.toNat - 96)]
  else []

/-- An o register spread over the lanes (R58). -/
def oSpread (o : W64) : BitVec 2048 :=
  ofLanes (fun n => if n % 2 = 0 then o.toNat % 2 ^ 32 else o.toNat / 2 ^ 32)

/-- The 64 lanes that a source specifier reads (R174). -/
def vOp (c : Ctx) (v : VSpec) (o : Int) : BitVec 2048 :=
  let n := v.toNat
  if n < 64 then c.s.vr (stepSpec v o).toNat
  else if n < 72 then oSpread (c.s.or (n - 64))
  else if n < 74 then c.s.yr (n - 72)
  else if n = 74 then 0
  else if n = 75 then ofLanes (fun i => i)
  else splat ((c.s.xr (n - 96)).toNat % 2 ^ 32)

/-- The register that a source specifier reads. -/
def vReads (v : VSpec) (o : Int) : List (Port × Nat) :=
  let n := v.toNat
  if n < 64 then [(.v, (stepSpec v o).toNat)]
  else if n < 72 then [(.o, n - 64)]
  else if n < 74 then [(.y, n - 72)]
  else if n < 96 then []
  else [(.x, n - 96)]

/-- The unit of a vector slot, 0 or 1. -/
def vUnit (c : Ctx) : Nat := if c.sl = .v1 then 1 else 0

/-- A full vector result to a v or o register and the unit's y register, at core time t + lat (R59, R223). -/
def wV (c : Ctx) (d : VSpec) (o : Int) (m : W64) (v : BitVec 2048) (lat : Nat) : Act :=
  modSeat c.k (fun s => s.addPend
    { port := if d.toNat < 64 then .v else .o, reg := if d.toNat < 64 then (stepSpec d o).toNat else d.toNat - 64,
      val := v, lmask := m, yu := some (vUnit c), due := c.t + lat, order := c.order })

/-- A lane mask result; k0 takes none (R57). -/
def wK (c : Ctx) (d : Nat) (v : W64) (lat : Nat) : Act :=
  Act.when (d != 0) (modSeat c.k (fun s => s.addPend
    { port := .k, reg := d, val := BitVec.ofNat 2048 v.toNat, lmask := allLanes, yu := none, due := c.t + lat, order := c.order }))

/-- Element e of width w of a lane. -/
def elemOf (w x e : Nat) : Nat := x / 2 ^ (w * e) % 2 ^ w

/-- A lane from its elements. -/
def laneOf (w : Nat) (f : Nat → Nat) : Nat :=
  (List.range (32 / w)).foldr (fun e acc => acc * 2 ^ w + f e % 2 ^ w) 0

/-- Elementwise on lanes: `f` on the element images of each operand. -/
def mapElems (w : Nat) (f : Nat → Nat → Nat → Nat) (a b d : BitVec 2048) : BitVec 2048 :=
  ofLanes (fun n => let x := lane a n; let y := lane b n; let z := lane d n
    laneOf w (fun e => f (elemOf w x e) (elemOf w y e) (elemOf w z e)))

/-- The elements of the lanes of a mask in element order; inactive ones absent. -/
def elemList (w : Nat) (m : W64) (a : BitVec 2048) : List (Option Nat) :=
  (List.range 64).flatMap (fun n => (List.range (32 / w)).map (fun e =>
    if m.getLsbD n then some (elemOf w (lane a n) e) else none))

/-! ### Shape records (R60, R61) -/

/-- A shape record's fields. -/
structure Shp where
  m : Nat
  k : Nat
  n : Nat
  cs : Nat
  rs : Nat
  roff : Nat
  coff : Nat
  sgo : Nat
  res : Nat

def shpOf (d : W64) : Shp :=
  let x := d.toNat
  { m := field x 6 0, k := field x 13 7, n := field x 20 14, cs := field x 42 37, rs := field x 48 43,
    roff := field x 54 49, coff := field x 60 55, sgo := field x 63 61, res := field x 36 21 }

/-- The shape record that a slot names. -/
def shpArg (c : Ctx) (d : BitVec 4) : Shp := shpOf (c.s.dr d.toNat)

/-- Bytes of a tile image of a format (R83), and its planes (R79). -/
def fmtPlanes (f : Nat) : Nat :=
  match f with
  | 0 => 2 | 1 => 4 | 2 => 8 | 3 => 8 | 4 => 16 | 5 => 8 | 6 => 8 | 7 => 16 | 8 => 16 | _ => 32
def fmtBytes (f : Nat) : Nat := 512 * fmtPlanes f
/-- Granules of an image. -/
def fmtGrans (f : Nat) : Nat := ceilDiv (fmtBytes f) 4096

/-- The record is used for a window of `rows` by `cols` in a tile of `bytes` bytes (0: not a tile image): R61. -/
def Shp.ok (s : Shp) (rows cols bytes : Nat) : Bool :=
  s.rs != 0 && s.cs != 0 && s.m != 0 && s.k != 0 && s.n != 0 && decide (s.m ≤ 64) && decide (s.k ≤ 64) &&
  decide (s.n ≤ 64) && s.res == 0 && decide (s.roff + (rows - 1) * s.rs < 64) &&
  decide (s.coff + (cols - 1) * s.cs < 64) &&
  (bytes == 0 || (if bytes ≤ 4096 then decide (512 * s.sgo + bytes ≤ 4096) else s.sgo == 0))

/-- A record that breaks R61 is an operand fault with its image (R406). -/
def shpCauses (c : Ctx) (d : BitVec 4) (rows cols bytes : Nat) : List Cause :=
  if (shpArg c d).ok rows cols bytes then [] else [operandFault c.sl 2 (c.s.dr d.toNat).toNat]

def Shp.row (s : Shp) (i : Nat) : Nat := s.roff + i * s.rs
def Shp.col (s : Shp) (j : Nat) : Nat := s.coff + j * s.cs

/-! ### Tile images (R82, R97) -/

/-- The words of the planes of one tile row, most significant plane first; `w0` is the image's first word. -/
def planeWords (co : Core) (w0 planes row : Nat) : List Nat :=
  (List.range planes).map (fun p => (SMap.get 0 co.tile (w0 + 64 * p + row)).toNat)

/-- An element image from plane words. -/
def fromPlanes (ws : List Nat) (col : Nat) : Nat := ws.foldl (fun acc w => 2 * acc + (if w.testBit col then 1 else 0)) 0

/-- The images of a window's elements in row i. -/
def tileRow (co : Core) (w0 fmt : Nat) (s : Shp) (i cols : Nat) : List Nat :=
  let ws := planeWords co w0 (fmtPlanes fmt) (s.row i)
  (List.range cols).map (fun j => fromPlanes ws (s.col j))

/-- Plane word writes that put element images at columns of a tile row. -/
def tileRowWrites (co : Core) (w0 planes row : Nat) (els : List (Nat × Nat)) : List (Nat × W64) :=
  (List.range planes).map (fun p =>
    let a := w0 + 64 * p + row
    let old := (SMap.get 0 co.tile a).toNat
    let new := els.foldl (fun w e =>
      let b := 2 ^ e.1
      if e.2.testBit (planes - 1 - p) then w ||| b else w - (w &&& b)) old
    (a, BitVec.ofNat 64 new))

/-- First word of a tile image at physical granule g. -/
def imgWord (g : Nat) (s : Shp) : Nat := 512 * g + 64 * s.sgo

/-- Write tile words; the granules are marked written since placement or restore (R51). -/
def writeTile (core : Nat) (l : List (Nat × W64)) : Act := modCore core (fun co =>
  { co with tile := SMap.setAll 0 co.tile l,
            touched := l.foldl (fun t e => if t.contains (e.1 / 512) then t else t ++ [e.1 / 512]) co.touched })

/-- A sidecar word is written: its bits 63:13 are reserved and read zero (R7, R97). -/
def writeSide (core g : Nat) (v : W64) : Act := modCore core (fun co =>
  { co with side := SMap.set 0 co.side g (v &&& 0x1FFF), touched := if co.touched.contains g then co.touched else co.touched ++ [g] })

/-- A stepped granule name (R165, R166): its offset keeps 10 bits, its granules lie in the window. -/
def tileCauses (c : Ctx) (t : BitVec 8) (n : Nat) : List Cause := offCauses c 10 c.o1 ++ granCauses c ((t.toNat : Int) + c.o1) n
/-- First physical granule of a stepped name. -/
def tilePhys (c : Ctx) (t : BitVec 8) : Nat := phys c .gran ((t.toNat : Int) + c.o1).toNat
/-- The physical granules of a stepped name. -/
def tileGrans (c : Ctx) (t : BitVec 8) (n : Nat) : List Nat := (List.range n).map (tilePhys c t + ·)

/-- A cause whose recovery is A, charged to a form that writes nothing while its bundle goes on (R378, R413). -/
def abortNote (k : Nat) (ca : Cause) : Act := fun h =>
  Act.all [record (domDie (coreOf k)) (seatRec h k ca (h.seat k).repJ (h.seat k).pc),
    after 1 (.ext (.instanceAbort (h.seat k).inst (abortStatus (coreOf k) ca.code)))] h

/-! ### Busy bits (R246) -/

/-- Items of the busy maps (State.Core). -/
def itGran (g : Nat) : Nat := g
def itAcc (a : Nat) : Nat := 256 + a
def itLatch (b : Nat) : Nat := 264 + b
def itHt (h : Nat) : Nat := 268 + h
def itQ (s1 : Bool) (q : Nat) : Nat := 276 + (if s1 then 8 else 0) + q

/-- Later of two busy times. -/
def busyMax (m : SMap Nat) (k v : Nat) : SMap Nat := if SMap.get 0 m k < v then SMap.set 0 m k v else m

/-- Mark reads done in core time `t`, and writes written in `t`, on items. -/
def markRd (core t : Nat) (items : List Nat) : Act := modCore core (fun co => { co with rd := items.foldl (fun m i => busyMax m i t) co.rd })
def markWr (core t : Nat) (items : List Nat) : Act := modCore core (fun co => { co with wr := items.foldl (fun m i => busyMax m i (t + 1)) co.wr })

/-- Paths and units. -/
def pArray : Nat := 0
def pFill : Nat := 1
def pAccum : Nat := 2
def pEpi : Nat := 3
def pScan : Nat := 4
def pVec (u : Nat) : Nat := 5 + u
def pCopy (u : Nat) : Nat := 7 + u

/-- Hold a path for n ck from the issue: it takes its next form at t + n. -/
def holdPath (c : Ctx) (p n : Nat) : Act := modCore c.core (fun co => { co with path := busyMax co.path p (c.t + n) })

/-- Is a path or unit free at core time t? -/
def pathFree (co : Core) (p t : Nat) : Bool := SMap.get 0 co.path p ≤ t
/-- May an item be read (no write in flight), or written (no read or write in flight), at core time t? A form "Written"
in ck w bars others through w; one whose reads are done in ck r bars writes through r − 1 (R246). -/
def canRead (co : Core) (i t : Nat) : Bool := SMap.get 0 co.wr i ≤ t
def canWrite (co : Core) (i t : Nat) : Bool := SMap.get 0 co.wr i ≤ t && SMap.get 0 co.rd i ≤ t

/-- Granules that rows of a row-layout image touch (R265). -/
def rowGrans (g : Nat) (rows : List Nat) : List Nat :=
  (List.range 4).filterMap (fun i => if rows.any (fun r => r / 16 == i) then some (g + i) else none)

/-- The items that a landing writes: busy from its issue until it has landed (R274, R281, R308). -/
def landItems : AccKind → List Nat
  | .tload g sgo b _ _ => (List.range (ceilDiv (512 * sgo + b) 4096)).map (fun i => itGran (g + i))
  | .tdec g e _ _ => (List.range e.length).map (fun i => itGran (g + i))
  | .nrecv g _ _ rows => (rowGrans g rows).map itGran
  | .cyrcv t _ _ => [itHt t]
  | .scanRes t _ _ => [itHt t]
  | _ => []

/-- Is a landing on an item outstanding? -/
def landBusy (h : Hw) (co : Core) (i : Nat) : Bool :=
  co.landings.any (fun l => match h.acc? l.acc with
    | none => false
    | some a => (landItems a.kind).contains i)

/-- May an item be read, or written, by a form issued now (R246)? -/
def rdOk (c : Ctx) (i : Nat) : Bool := canRead c.co i c.t && !landBusy c.h c.co i
def wrOk (c : Ctx) (i : Nat) : Bool := canWrite c.co i c.t && !landBusy c.h c.co i

end Sys2Proof.Machine
end

