-- ==== Sys2Proof/Machine/Flags.lean ====
section
/-! DEFINITION. WARN bits of the fallbacks (R70, R179), saturating counters (R69), and barrier flags (R64, R209). -/

namespace Sys2Proof.Machine

/-- WARN bit numbers (R70). -/
def wPclamp : Nat := 0
def wRepbr : Nat := 1
def wWidth : Nat := 2
def wRndign : Nat := 3
def wSatign : Nat := 4
def wStepign : Nat := 5
def wCcign : Nat := 6
def wMisc : Nat := 7

/-- Set WARN bits; a W1C write of the same bundle does not clear them (R70). -/
def warnBits (c : Ctx) (b : BitVec 8) : Act := Act.when (b != 0) (modSeat c.k (fun s => { s with warn := s.warn ||| b }))

/-- One WARN bit when a condition holds. -/
def warnIf (b : Bool) (n : Nat) : BitVec 8 := if b then 1 <<< n else 0

/-- The WARN bits of a V.R form's modifiers (R179, R224, R226): width, rounding, saturation, condition, steps; `mov` takes
every width, `no32` (VPACK, VUNPACK) none of 32 bits. -/
def vrWarn (f : FVR) (u : VForm) (mov no32 : Bool) : BitVec 8 :=
  let x := FVR.x f
  let w16 := decide (x.w = 1); let w8 := decide (x.w = 2)
  let used (v : VSpec) (k : FieldUse) : Bool := (k == .src || k == .dst) && decide (v.toNat < 64)
  let sd := (x.imm.extractLsb' 14 7) != 0
  let sa := (x.imm.extractLsb' 7 7) != 0
  let sb := (x.imm.extractLsb' 0 7) != 0
  warnIf (u.wr && !mov && ((w16 && !u.w16) || (w8 && !u.w8))) wWidth |||
  warnIf (no32 && decide (x.w = 0)) wWidth |||
  warnIf (x.rm != 0 && !u.rm) wRndign |||
  warnIf (x.sat && !(u.sat || (u.fp && w16 && u.w16))) wSatign |||
  warnIf (x.cc != 0 && !u.cc) wCcign |||
  warnIf (x.st && ((sd && !used f.d u.d) || (sa && !used f.a u.a) || (sb && !(used f.b u.b)))) wStepign

/-- The element width at which a V.R form runs (R224). -/
def vrWidth (f : FVR) (u : VForm) : Nat :=
  let x := FVR.x f
  if x.w = 1 ∧ u.w16 then 16 else if x.w = 2 ∧ u.w8 then 8 else 32

/-- A counter that stops at 2^32 − 1 (R69). -/
def satCount (a n : Nat) : Nat := min (2 ^ 32 - 1) (a + n)

/-! ### Barrier flags -/

/-- One operation on a flag value. -/
def flagStep (v : BitVec 16) : FlagAct → BitVec 16
  | .add d => v + d
  | .set d => d

/-- Queue an operation on a flag for the end of this ck, in the order of R64: local seat 0, local seat 1, then source
cores ascending. -/
def flagOpAt (core key flag : Nat) (a : FlagAct) : Act := modCore core (fun co =>
  let new : FlagOp := { key := key, flag := flag, act := a }
  { co with flagOps := co.flagOps.filter (fun o => decide (o.key ≤ key)) ++ [new] ++ co.flagOps.filter (fun o => decide (key < o.key)) })

/-- Do the flag operations of a ck (R64). -/
def Core.doFlags (co : Core) : Core :=
  co.flagOps.foldl (fun c o => { c with flags := SMap.set 0 c.flags o.flag (flagStep (SMap.get 0 c.flags o.flag) o.act) })
    { co with flagOps := [] }

/-- A local flag must lie in FBASE to FBASE + FCNT − 1 (R63). (DEDUCED, log 74) -/
def flagCauses (c : Ctx) (f : Nat) : List Cause :=
  if c.s.lrec.fbase ≤ f ∧ f < c.s.lrec.fbase + c.s.lrec.fcnt then [] else [operandFault c.sl 1 (f + 6 * 2 ^ 12)]

end Sys2Proof.Machine
end

