-- ==== Sys2Proof/Machine/Banks.lean ====
section
/-! DEFINITION. The banks of a core's tile store (R313, R314): the requests that forms make, and what a ck that a request loses moves.
Who is served in a ck stands in Fabric.lean. -/

namespace Sys2Proof.Machine

/-- The sixteen banks of the half in which a 256-byte block lies. -/
def halfBanks (block : Nat) : Nat := if block % 2 = 0 then 0xFFFF else 0xFFFF0000

/-- The banks of successive blocks: an engine takes one block in each ck, in ascending order. (DESIGN CHOICE, log 71) -/
def blocksFrom (block : Nat) : List Nat := [halfBanks block, halfBanks (block + 1)]

/-- The banks in which some byte offsets lie. -/
def banksOf (l : List Nat) : Nat := l.foldl (fun m a => m ||| 2 ^ (a / 16 % 32)) 0

/-- Items with one time. -/
def marks (t : Nat) (items : List Nat) : List (Nat × Nat) := items.map (fun i => (i, t))

/-- A form's requests stand at the banks of its core. -/
def useBanks (core : Nat) (u : BankUse) : Act := Act.when (u.left != 0) (modCore core (fun co => { co with banks := co.banks ++ [u] }))

/-- The banks that a use asks for now. -/
def BankUse.mask (u : BankUse) : Nat := u.masks.getD (u.done % u.masks.length) 0

/-- The order in which uses are served (R313, R314): class, then unit or channel, then seat; the spill engine goes ahead of classes 4 to 6
after 7 lost ck. -/
def BankUse.key (u : BankUse) : Nat :=
  (if u.cls = 7 ∧ 7 ≤ u.run then 7 else 2 * u.cls) * 2 ^ 20 + 2 * u.sub + (if u.seat then 1 else 0)

/-- A use whose request was served, and one whose request lost: everything that follows moves by one ck (R314). -/
def BankUse.served (u : BankUse) : BankUse := { u with next := u.next + 1, left := u.left - 1, done := u.done + 1, run := 0 }
def BankUse.lost (u : BankUse) : BankUse :=
  let f := List.map (fun (e : Nat × Nat) => (e.1, e.2 + 1))
  { u with next := u.next + 1, run := u.run + 1, rd := f u.rd, wr := f u.wr, mma := f u.mma, path := f u.path }

/-- The marks of a use stand at least where it has them. -/
def Core.mark (co : Core) (u : BankUse) : Core :=
  let f := fun (m : SMap Nat) (l : List (Nat × Nat)) => l.foldl (fun m e => busyMax m e.1 e.2) m
  { co with rd := f co.rd u.rd, wr := f co.wr u.wr, mma := f co.mma u.mma, path := f co.path u.path }

/-- The results of one place in the issue order are written one ck later. -/
def latePends (o : Nat) (l : List Pend) : List Pend :=
  (l.map (fun p => if p.order = o then { p with due := p.due + 1 } else p)).foldl pendAdd []

/-- What an access sends from now on goes one ck later. -/
def lateAcc (core id : Nat) : Act := fun h =>
  let now := h.glob.now
  let cl := domCl core
  Act.all [
    modAcc id (fun a => { a with due := a.due + 1 }),
    Act.when ((h.cluster cl).inj.any (fun x => x.acc == id && decide (now < x.ready))) (modCluster cl (fun c => { c with
      inj := c.inj.map (fun x => if x.acc = id ∧ now < x.ready then { x with ready := x.ready + 1 } else x) })),
    delayEvents 1 (fun u e => decide (now < u) && evAcc e == some id)] h

/-- A use of a core lost its request in this ck. -/
def lostUse (core : Nat) (u : BankUse) : Act :=
  let k := seatKey core u.seat
  Act.all [
    modCore core (fun co => co.mark u.lost),
    (match u.order with
      | none => Act.nil
      | some o => modOwner k (fun s => { s with pend := latePends o s.pend, captured := latePends o s.captured })),
    (match u.acc with | none => Act.nil | some id => lateAcc core id),
    Act.when (u.cls == 7) (Act.look (fun h => Act.all [
      modCore core (fun co => { co with spillAt := co.spillAt + 1 }),
      schedule ((h.core core).spillAt + 1) (if (h.seat k).st = SeatSt.restoring then .restoreDone k else .spillDone k)]))]

end Sys2Proof.Machine
end

