-- ==== Sys2Proof/Machine/Accum.lean ====
section
/-! DEFINITION. Matrix arithmetic: elements of the array (R79 to R87), contributions to an accumulator row (R88 to R93),
epilogue conversion (R95, R96), residues (R376) and the image of an accumulator (R260). -/

namespace Sys2Proof.Machine

/-! ### Elements (R79 to R81, R84, R86) -/

/-- An element as the array takes it: special code (0 finite, 1 +INF, 2 −INF, 3 NAN), sign and zero test of the whole
element, signed significand `p` and its exponent `x` after the declared precision, bound exponent. -/
structure MEl where
  code : Nat := 0
  neg : Bool := false
  zero : Bool := true
  p : Int := 0
  x : Int := 0
  eh : Int := 0
deriving DecidableEq, Repr

/-- The float layout of a format code. -/
def fmtFloat (f : Nat) : FFmt :=
  match f with
  | 5 => fp8e4
  | 6 => fp8e5
  | 7 => fp16
  | 8 => bf16
  | _ => fp32

/-- The full count of planes that a declared precision counts (R79, R84). -/
def fullCount (f : Nat) : Nat :=
  match f with
  | 0 => 1
  | 5 => 4
  | 6 => 3
  | 7 => 11
  | 8 => 8
  | 9 => 24
  | _ => fmtPlanes f

/-- Planes kept under a declared precision; 0 is the full count, a higher one is clamped (R84). -/
def keptPlanes (f n : Nat) : Nat := if n = 0 ∨ fullCount f < n then fullCount f else n
def clampedPlanes (f n : Nat) : Bool := decide (fullCount f < n)

/-- Is the format an integer one or TERN? -/
def fmtInt (f : Nat) : Bool := decide (f < 5)

/-- The bound exponent of a zero of the format (R86). -/
def zeroBound (f : Nat) : Int :=
  match f with
  | 0 => 0
  | 1 => 3
  | 2 => 7
  | 3 => 7
  | 4 => 15
  | _ => 1 - (fmtFloat f).bias

/-- The integer that an image of an integer or TERN format holds; the pair (1, 0) reads 0 (R81). -/
def intOfImage (f x : Nat) : Int :=
  match f with
  | 0 => if x = 1 then 1 else if x = 3 then -1 else 0
  | 3 => x
  | _ => sextNat (fmtPlanes f) x

/-- Decode an element image with n planes kept. -/
def mElem (f n x : Nat) : MEl :=
  if fmtInt f then
    let v := intOfImage f x
    let d : Int := (2 ^ (fullCount f - n) : Nat)
    { neg := decide (v < 0), zero := v == 0, p := if f = 0 then v else v / d * d, x := 0, eh := zeroBound f }
  else
    let g := fmtFloat f
    match g.decode x with
    | .nan => { code := 3, zero := false }
    | .inf s => { code := if s then 2 else 1, neg := s, zero := false }
    | .fin s sig e =>
      let d := 2 ^ (fullCount f - n)
      { neg := s, zero := sig == 0, p := signed s (sig / d * d), x := e, eh := e + g.fb }

/-- The largest bound exponent of some elements; specials take no part (R86). (DEDUCED, log 30) -/
def maxBound (f : Nat) (l : List MEl) : Int :=
  match (l.filter (fun e => e.code == 0)).map (fun e => e.eh) with
  | [] => zeroBound f
  | a :: r => r.foldl max a

/-- Code of an infinity. -/
def infCode (neg : Bool) : Nat := if neg then 2 else 1

/-- The exact product of two elements, with the classes of R87. -/
def MEl.mul (a b : MEl) : MEl :=
  let neg := a.neg != b.neg
  if a.code = 3 ∨ b.code = 3 then { code := 3, zero := false }
  else if a.code ≠ 0 ∨ b.code ≠ 0 then
    (if a.zero || b.zero then { code := 3, zero := false } else { code := infCode neg, neg := neg, zero := false })
  else { neg := neg, zero := a.zero || b.zero, p := a.p * b.p, x := a.x + b.x }

/-- A product negated (R249). -/
def MEl.negate (a : MEl) : MEl :=
  { a with code := (match a.code with | 1 => 2 | 2 => 1 | n => n), neg := !a.neg, p := -a.p }

/-- Does a term leave a mantissa and its code alone? -/
def MEl.idle (a : MEl) : Bool := a.code == 0 && a.p == 0

/-! ### Rows (R88 to R93) -/

/-- The element code after a product's code (R87). -/
def codeJoin (a b : Nat) : Nat :=
  if a = 3 ∨ b = 3 then 3 else if a = 0 then b else if b = 0 then a else if a = b then a else 3

/-- The residue of a mantissa; zero for special and zero elements (R376). -/
def resOf (code : Nat) (m : Int) : Nat := if code ≠ 0 then 0 else (m % 7).toNat

/-- An element with its residue. -/
def mkElem (code : Nat) (m : Int) : AElem := { m := m, res := resOf code m, code := code }

/-- By how much, modulo 7, the residue of a finite element is off its mantissa: 0 where nothing disturbed it. -/
def AElem.off (a : AElem) : Int := if a.code ≠ 0 then 0 else (a.res - a.m) % 7

/-- The element that arithmetic on an element gives: mantissa `m` by the mantissa's arithmetic, and the residue by its own
arithmetic (R376): the old residue, times 2^k (k the shift count mod 3, as 2^3 = 1 modulo 7), plus the residues of the terms,
that is the residue of `m` plus 2^k times what the old residue was off by. -/
def mkElemFrom (a : AElem) (k : Nat) (code : Nat) (m : Int) : AElem :=
  { m := m, res := resOf code (m + a.off * (2 ^ (k % 3) : Nat)), code := code }

def ARow.at_ (r : ARow) (n : Nat) : AElem := SMap.get {} r.el n

/-- A row's elements from a function of the column. -/
def rowEls (f : Nat → AElem) : SMap AElem :=
  (List.range 64).filterMap (fun n => let e := f n; if e = {} then none else some (n, e))

/-- Bits of a mantissa below its sign. -/
def mantBits (m : Int) : Nat := let a := if m < 0 then (-m - 1).toNat else m.toNat; if a = 0 then 0 else Nat.log2 a + 1

/-- T_m = 47 − H of a row (R88). -/
def ARow.tm (r : ARow) : Nat := r.el.foldl (fun a e => max a (mantBits e.2.m)) 0
def ARow.headroom (r : ARow) : Nat := 47 - r.tm

/-- Does a residue of the row disagree (R376)? -/
def ARow.bad (r : ARow) : Bool := r.el.any (fun e => e.2.res != resOf e.2.code e.2.m)

/-- rne(m, s) >> s. -/
def rneShift (m : Int) (s : Nat) : Int :=
  let q := m >>> s
  let r := m - q * (2 ^ s : Nat)
  let half : Int := (2 ^ (s - 1) : Nat)
  if half < r ∨ (r = half ∧ q % 2 = 1) then q + 1 else q

/-- floor(p·2^x / 2^e) and whether the division was inexact (R92). -/
def alignTerm (p x e : Int) : Int × Bool :=
  if e ≤ x then (p * (2 ^ (x - e).toNat : Nat), false)
  else let q := p >>> (e - x).toNat; (q, q * (2 ^ (e - x).toNat : Nat) != p)

/-- 2^a + 2^b ≥ 2^47. -/
def evTest (a b : Int) : Bool := decide (47 ≤ a) || decide (47 ≤ b) || (a == 46 && b == 46)

/-- The smallest s ≥ 1 with 2^(tm − s + 1) + 2^(tc − s) < 2^47 (R91). -/
def evShift (tm tc : Int) : Nat :=
  let s := max 1 (max (tm - 45) (tc - 46))
  (if evTest (tm - s + 1) (tc - s) then s + 1 else s).toNat

/-- What a contribution leaves: the row, its events, its inexact terms, and a saturation (of a chain start or not). -/
structure Contrib where
  row : ARow
  ev : Nat := 0
  tr : Nat := 0
  sat : Option Bool := none

/-- The exact sum of an element and its finite terms, up to a positive factor. -/
def exactSum (m e : Int) (ts : List MEl) : Int :=
  let lo := ts.foldl (fun a t => min a t.x) e
  ts.foldl (fun a t => if t.code = 0 then a + t.p * (2 ^ (t.x - lo).toNat : Nat) else a) (m * (2 ^ (e - lo).toNat : Nat))

/-- Element code with the codes of its terms. -/
def joinCodes (code : Nat) (ts : List MEl) : Nat := ts.foldl (fun a t => codeJoin a t.code) code

/-- A row saturates (R93). -/
def ARow.saturate (r : ARow) (terms : Nat → List MEl) : ARow :=
  { r with
    e := 2047, satr := true, start := false,
    el := rowEls (fun n =>
      let a := r.at_ n
      let ts := terms n
      let s := exactSum a.m r.e ts
      let m : Int := if 0 < s then 2 ^ 47 - 1 else if s < 0 then -(2 ^ 47) else 0
      let code := joinCodes a.code ts
      mkElem code (if code = 0 then m else a.m)) }

/-- One contribution to a row: terms per column, bound U, integer flag (R90 to R93). -/
def contribute (r : ARow) (terms : Nat → List MEl) (u : Int) (intc : Bool) : Contrib :=
  let e0 : Int := if r.start then (if intc then 0 else max (u - 46) (-2048)) else r.e
  if r.start && decide (2047 < e0) then { row := { r with e := 0 }.saturate terms, sat := some true }
  else if r.satr && !r.start then { row := r }
  else
    let tm : Int := r.tm
    let tc := u - e0
    let fire := evTest tm tc
    let s := if fire then evShift tm tc else 0
    if fire && decide (2047 < e0 + s) then { row := { r with e := e0 }.saturate terms, sat := some false }
    else
      let e := e0 + s
      let one := fun n =>
        let a := r.at_ n
        let m0 := if fire then rneShift a.m s else a.m
        let qs := ((terms n).filter (fun t => t.code == 0)).map (fun t => alignTerm t.p t.x e)
        (mkElemFrom a (2 * s) (joinCodes a.code (terms n)) (qs.foldl (fun m q => m + q.1) m0), (qs.filter (fun q => q.2)).length)
      let cols := (List.range 64).map one
      { row := { e := e, start := false, satr := false,
                 el := (cols.zipIdx.filterMap (fun p => if p.1.1 = {} then none else some (p.2, p.1.1))) },
        ev := if fire then 1 else 0, tr := cols.foldl (fun a p => a + p.2) 0 }

/-! ### Accumulators of a core -/

/-- Row r of physical accumulator a. -/
def Core.accRow (co : Core) (a r : Nat) : ARow := SMap.get {} co.acc (64 * a + r)
/-- An accumulator as AZERO leaves it (R90). -/
def Core.accZero (co : Core) (a : Nat) : Core := { co with acc := SMap.keep co.acc (fun k => k / 64 != a) }
/-- Does a row below `rows` of the accumulator disagree with its residues? -/
def Core.accBad (co : Core) (a rows : Nat) : Bool := (List.range rows).any (fun r => (co.accRow a r).bad)

/-- Contributions to rows of an accumulator reach it: `name` is its window name, for ACCEV and ACCTR (R69). (DEDUCED, log 11) -/
def putContribs (c : Ctx) (name phy : Nat) (l : List (Nat × Contrib)) : Act :=
  let ev := l.foldl (fun a p => a + p.2.ev) 0
  let tr := l.foldl (fun a p => a + p.2.tr) 0
  Act.all [
    modCore c.core (fun co => { co with acc := SMap.setAll {} co.acc (l.map (fun p => (64 * phy + p.1, p.2.row))) }),
    Act.when (ev != 0 || tr != 0) (modSeat c.k (fun s => { s with
      accev := SMap.set 0 s.accev name (satCount (SMap.get 0 s.accev name) ev),
      acctr := SMap.set 0 s.acctr name (satCount (SMap.get 0 s.acctr name) tr) })),
    Act.each l (fun p => match p.2.sat with
      | none => Act.nil
      | some st => noteSeat c.k (mkCause (0x50 + phy) (p.1 + (if st then 2 ^ 8 else 0)) c.sl))]

/-! ### Epilogue conversion (R95, R96) -/

/-- Range of an integer or TERN format. -/
def fmtLo (f : Nat) : Int :=
  match f with | 0 => -1 | 3 => 0 | _ => -(2 ^ (fmtPlanes f - 1) : Nat)
def fmtHi (f : Nat) : Int :=
  match f with | 0 => 1 | 3 => 255 | _ => (2 ^ (fmtPlanes f - 1) : Nat) - 1

/-- The image of an integer in an integer or TERN format. -/
def imageOfInt (f : Nat) (x : Int) : Nat :=
  match f with
  | 0 => if x = 0 then 0 else if x < 0 then 3 else 1
  | _ => imageNat (fmtPlanes f) x

/-- The largest magnitude of a format with a sign. -/
def fmtMax (f : Nat) (neg : Bool) : Nat :=
  if fmtInt f then imageOfInt f (if neg then fmtLo f else fmtHi f) else (fmtFloat f).signBit neg + (fmtFloat f).maxMag

/-- RND of EPI; 3 runs as 0. -/
def rndOf (r : Nat) : RM := match r with | 1 => .tz | 2 => .tm | _ => .ne

/-- EPI of one element: its image and whether it counts as saturated. (DEDUCED, log 31) -/
def epiElem (f : Nat) (rm : RM) (satr : Bool) (e : Int) (a : AElem) : Nat × Bool :=
  let neg := decide (a.m < 0)
  if a.code = 3 then (if fmtInt f then 0 else (fmtFloat f).qnan, true)
  else if a.code ≠ 0 then
    (if fmtInt f then fmtMax f (a.code == 2) else (fmtFloat f).ofVal rm (.inf (a.code == 2)), true)
  else if satr then (if a.m = 0 then 0 else fmtMax f neg, true)
  else if a.m = 0 then (0, false)
  else if fmtInt f then
    let v := dyToInt rm neg a.m.natAbs e
    let w := clampInt v (fmtLo f) (fmtHi f)
    (imageOfInt f w, v != w)
  else
    let g := fmtFloat f
    match g.pack? rm neg a.m.natAbs e false with
    | some mag => (g.signBit neg + mag, false)
    | none => (fmtMax f neg, true)

/-! ### The image of an accumulator (R260) -/

/-- The 512 bytes of a row, little-endian. -/
def rowImage (r : ARow) : Nat :=
  (List.range 64).foldr (fun n acc => acc * 2 ^ 48 + imageNat 48 (r.at_ n).m) 0 +
  (List.range 64).foldr (fun n acc => acc * 4 + (r.at_ n).code % 4) 0 * 2 ^ 3072 +
  (List.range 64).foldr (fun n acc => acc * 8 + (r.at_ n).res % 8) 0 * 2 ^ 3200 +
  imageNat 16 r.e * 2 ^ 3392 + r.start.toNat * 2 ^ 3408 + r.satr.toNat * 2 ^ 3409

/-- The row that 512 bytes hold. -/
def rowOfImage (x : Nat) : ARow :=
  { e := sextNat 12 (x / 2 ^ 3392 % 2 ^ 16), start := x.testBit 3408, satr := x.testBit 3409,
    el := rowEls (fun n => { m := sextNat 48 (x / 2 ^ (48 * n) % 2 ^ 48), res := x / 2 ^ (3200 + 3 * n) % 8,
                             code := x / 2 ^ (3072 + 2 * n) % 4 }) }

/-- The 4,096 words of an accumulator's image by word number. -/
def accImage (co : Core) (a : Nat) : List (Nat × W64) :=
  (List.range 64).flatMap (fun r =>
    let x := rowImage (co.accRow a r)
    (List.range 64).map (fun w => (64 * r + w, BitVec.ofNat 64 (x / 2 ^ (64 * w) % 2 ^ 64))))

/-- The rows of an image given by its words. -/
def accOfImage (word : Nat → Nat) : List ARow :=
  (List.range 64).map (fun r => rowOfImage ((List.range 64).foldr (fun w acc => acc * 2 ^ 64 + word (64 * r + w)) 0))

end Sys2Proof.Machine
end

