-- ==== Sys2Proof/Machine/Fetch.lean ====
section
/-! DEFINITION. Fetching and decoding one bundle (R114, R157, R404, R409, R423). -/

namespace Sys2Proof.Machine

/-- A word of a bundle, or the cause: the first word by class 4 (R423); a later word in a page without X by 0x003 with
its address (R403, R404); 0x01D where memory cannot deliver it (R409). -/
def bundleWord (h : Hw) (core img inst pc a : Nat) : Except Cause Nat :=
  match fetchWord h core img inst a 0 with
  | .ok w => .ok w
  | .error r =>
    if r = 9 then .error { code := 0x1D, tval := BitVec.ofNat 64 a, slots := 0 }
    else if a ≠ pc ∧ r = 1 then .error { code := 3, tval := BitVec.ofNat 64 a, slots := 0 }
    else .error { code := 0x80 + r, tval := BitVec.ofNat 64 a, slots := 0 }

/-- The slots of a bundle after its header, in order, and the address after the last word. -/
def bundleSlots (h : Hw) (core img inst pc : Nat) : List Slot → Nat → Except Cause (List RawSlot × Nat)
  | [], a => .ok ([], a)
  | sl :: r, a =>
    match bundleWord h core img inst pc a with
    | .error c => .error c
    | .ok w =>
      if bitAt 24 w then
        match bundleWord h core img inst pc ((a + 4) % 2 ^ 56) with
        | .error c => .error c
        | .ok e => match bundleSlots h core img inst pc r ((a + 8) % 2 ^ 56) with
          | .error c => .error c
          | .ok (l, b) => .ok (⟨sl, w, some e⟩ :: l, b)
      else match bundleSlots h core img inst pc r ((a + 4) % 2 ^ 56) with
        | .error c => .error c
        | .ok (l, b) => .ok (⟨sl, w, none⟩ :: l, b)

/-- A bundle as fetched: header, slots, length in bytes; `xn` bounds the count register, 32 skips that test. -/
def fetchRaw (h : Hw) (core img inst pc xn : Nat) : Except Cause (Header × List RawSlot × Nat) :=
  match bundleWord h core img inst pc pc with
  | .error c => .error c
  | .ok w => match decodeHeader w with
    | .error r => .error { code := r.reason, tval := BitVec.ofNat 64 w, slots := 0 }
    | .ok hd =>
      if hd.rr && decide (xn ≤ hd.rpt.toNat) then .error { code := 2, tval := BitVec.ofNat 64 w, slots := 0 }
      else match bundleSlots h core img inst pc hd.present ((pc + 4) % 2 ^ 56) with
        | .error c => .error c
        | .ok (l, b) => .ok (hd, l, imageNat 56 ((b : Int) - pc))

/-- Decode the slots of a bundle in order; the first that fails decides (R404). -/
def decodeSlots : List RawSlot → Except Cause (List SlotOp)
  | [] => .ok []
  | r :: l =>
    match decodeSlot r.slot r.word r.ext with
    | .error e => .error (mkCause (slotDetail r.slot e.reason) (if e.ext then r.ext.getD 0 else r.word) r.slot)
    | .ok i => match decodeSlots l with
      | .error c => .error c
      | .ok m => .ok ({ slot := r.slot, instr := i, word := r.word, ext := r.ext } :: m)

/-- Fetch and decode the bundle at pc. -/
def fetchBundle (h : Hw) (core img inst pc xn : Nat) : Except Cause (Header × List SlotOp × Nat) :=
  match fetchRaw h core img inst pc xn with
  | .error c => .error c
  | .ok (hd, raw, len) => match decodeSlots raw with
    | .error c => .error c
    | .ok ops => .ok (hd, ops, len)

/-- The cache fills of a bundle fetch. -/
def bundleFill (core img pc len : Nat) : Act :=
  Act.all [fetchFill core img pc 0, fetchFill core img ((pc + len - 4) % 2 ^ 56) 0]

end Sys2Proof.Machine
end

