-- ==== Sys2Proof/Machine/Matrix.lean ====
section
/-! DEFINITION. The meanings of the matrix unit's forms (R244 to R264): products, latches, accumulators, epilogue and
accumulate windows, and what holds them. -/

namespace Sys2Proof.Machine

/-! ### What a form names (R246, R248, R253) -/

/-- What a form on a path names: its operand faults, its path, the items it reads and writes, and an accumulator whose
pending product writes do not hold it. -/
structure MUse where
  causes : List Cause := []
  path : Nat
  rd : List Nat := []
  wr : List Nat := []
  mma : Option Nat := none

/-- Physical accumulator, latch. -/
def accPhys (c : Ctx) (a : BitVec 3) : Nat := phys c .acc a.toNat
def latPhys (c : Ctx) (b : BitVec 2) : Nat := phys c .latch b.toNat
def accCauses (c : Ctx) (a : BitVec 3) : List Cause := winCauses c .acc (a.toNat : Int) 1

/-- The A format of a product. -/
def aFmt (f : FMMA) : Nat := f.af.toNat + 1

/-- MMA and MMAS. -/
def useMma (c : Ctx) (f : FMMA) : MUse :=
  let s := shpArg c f.shp
  let n := fmtGrans (aFmt f)
  { causes := accCauses c f.acc ++ winCauses c .latch (f.lb.toNat : Int) 1 ++ tileCauses c f.ta n ++
      shpCauses c f.shp s.m s.k (fmtBytes (aFmt f)),
    path := pArray, rd := (tileGrans c f.ta n).map itGran ++ [itLatch (latPhys c f.lb)], mma := some (itAcc (accPhys c f.acc)) }

/-- LATCH. -/
def useLatch (c : Ctx) (f : FLatch) : MUse :=
  let s := shpArg c f.shp
  let n := fmtGrans f.bf.toNat
  { causes := winCauses c .latch (f.lb.toNat : Int) 1 ++ tileCauses c f.tb n ++ shpCauses c f.shp s.k s.n (fmtBytes f.bf.toNat),
    path := pFill, rd := (tileGrans c f.tb n).map itGran, wr := [itLatch (latPhys c f.lb)] }

/-- EPI. -/
def useEpi (c : Ctx) (f : FEpi) : MUse :=
  let s := shpArg c f.shp
  let n := fmtGrans f.df.toNat
  { causes := accCauses c f.acc ++ tileCauses c f.td n ++ shpCauses c f.shp s.m s.n (fmtBytes f.df.toNat),
    path := pEpi, rd := [itAcc (accPhys c f.acc)], wr := (tileGrans c f.td n).map itGran }

/-- EPIX. -/
def useEpix (c : Ctx) (f : FEpi) : MUse :=
  { causes := accCauses c f.acc ++ tileCauses c f.td 8, path := pEpi, rd := [itAcc (accPhys c f.acc)],
    wr := (tileGrans c f.td 8).map itGran }

/-- A form that writes an accumulator and reads another, or none. -/
def useAcc (c : Ctx) (d : BitVec 3) (src : Option (BitVec 3)) (more : List Cause) : MUse :=
  match src with
  | none => { causes := accCauses c d ++ more, path := pAccum, wr := [itAcc (accPhys c d)] }
  | some a => { causes := accCauses c d ++ accCauses c a ++ more, path := pAccum, rd := [itAcc (accPhys c a)], wr := [itAcc (accPhys c d)] }

/-- The operand specifiers of MA. -/
def maVa (f : FMA) : VSpec := match f.ext with | none => 0 | some x => x.va
def maVb (f : FMA) : VSpec := match f.ext with | none => 0 | some x => x.vb
def maGt (f : FMA) : Nat := match f.ext with | none => 0 | some x => x.gt.toNat

/-- AGETX. -/
def useAgetx (c : Ctx) (f : FMA) : MUse :=
  { causes := accCauses c f.acc ++ specCauses c (maVa f) 0 ++ specCauses c (maVb f) 0, path := pAccum,
    rd := [itAcc (accPhys c f.acc)] }

/-- ASCL: an accumulator window needs the extents alone (R247). (DEDUCED, log 29) -/
def useAscl (c : Ctx) (f : FMA) : MUse :=
  let s := shpArg c f.shp
  useAcc c f.acc (some f.acs) (specCauses c (maVa f) 0 ++ specCauses c (maVb f) 0 ++
    (if s.m = 0 ∨ 64 < s.m ∨ s.n = 0 ∨ 64 < s.n then [operandFault c.sl 2 (c.s.dr f.shp.toNat).toNat] else []))

/-- AADDT. -/
def useAaddt (c : Ctx) (f : FMA) : MUse :=
  let s := shpArg c f.shp
  let n := fmtGrans f.f.toNat
  let u := useAcc c f.acc none (tileCauses c f.t n ++ shpCauses c f.shp s.m s.n (fmtBytes f.f.toNat))
  { u with rd := (tileGrans c f.t n).map itGran }

/-- The open window of the seat on an accumulator. -/
def openWindow (c : Ctx) (a : BitVec 3) : Option Window :=
  c.co.windows.find? (fun w => w.seat == isSeat1 c.k && w.acc == a.toNat)

/-- The window conflict of an accumulator (R261, R263). -/
def winConflict (c : Ctx) (a : BitVec 3) : List Cause := [operandFault c.sl 3 (a.toNat + 2 ^ 8)]

/-- AWIN. -/
def useAwin (c : Ctx) (f : FMA) : MUse :=
  { causes := accCauses c f.acc ++ granCauses c (f.t.toNat : Int) (8 * (f.f.toNat + 1)) ++
      (if (openWindow c f.acc).isSome then winConflict c f.acc else []), path := pAccum }

/-- ACOMMIT. (DEDUCED, log 32) -/
def useAcommit (c : Ctx) (f : FMA) : MUse :=
  match openWindow c f.acc with
  | none => { causes := accCauses c f.acc ++ winConflict c f.acc, path := pAccum, wr := [itAcc (accPhys c f.acc)] }
  | some w => { causes := accCauses c f.acc, path := pAccum, wr := [itAcc (accPhys c f.acc)],
                rd := (List.range (8 * w.e)).map (fun g => itGran (w.gran + g)) }

/-- What a matrix unit form names. -/
def mUse (c : Ctx) (i : Instr) : Option MUse :=
  match i with
  | .mma f => some (useMma c f)
  | .mmas f => some (useMma c f)
  | .latch f => some (useLatch c f)
  | .azero f => some (useAcc c f.acc none [])
  | .amov f => some (useAcc c f.acc (some f.acs) [])
  | .anorm f => some (useAcc c f.acc none [])
  | .agetx f => some (useAgetx c f)
  | .ascl f => some (useAscl c f)
  | .aaddt f => some (useAaddt c f)
  | .epi f => some (useEpi c f)
  | .epix f => some (useEpix c f)
  | .awin f => some (useAwin c f)
  | .acommit f => some (useAcommit c f)
  | _ => none

/-- What holds a form with these uses (R244, R246); a form that will fault is not held by items. -/
def MUse.hold (c : Ctx) (u : MUse) : Option Nat :=
  if !pathFree c.co u.path c.t then some u.path
  else if !u.causes.isEmpty then none
  else if u.rd.any (fun i => !rdOk c i) || u.wr.any (fun i => !wrOk c i) ||
    (match u.mma with
      | none => false
      | some a => !(decide (SMap.get 0 c.co.rd a ≤ c.t) &&
          (decide (SMap.get 0 c.co.wr a ≤ c.t) || decide (SMap.get 0 c.co.wr a ≤ SMap.get 0 c.co.mma a)))) then some 9
  else none

/-- What holds a matrix unit form; 16 + a is an ACOMMIT of window accumulator a, short of arrivals (R263). -/
def mHold (c : Ctx) (i : Instr) : Option Nat :=
  match mUse c i with
  | none => none
  | some u => match u.hold c with
    | some n => some n
    | none => match i with
      | .acommit f => match openWindow c f.acc with
        | some w => if u.causes.isEmpty && decide (w.here < w.e) then some (16 + w.acc) else none
        | none => none
      | _ => none

/-! ### Products (R249 to R251) -/

/-- The latch rows below `rows` as elements of `cols` columns, with n planes kept. -/
def latchRows (l : Latch) (n rows cols : Nat) : List (List MEl) :=
  (List.range rows).map (fun k =>
    let row := l.el.filter (fun e => e.1 / 64 == k)
    (List.range cols).map (fun j => mElem l.fmt n (SMap.get 0 row (64 * k + j))))

/-- Column j of rows. -/
def colOf (rows : List (List MEl)) (j : Nat) : List MEl := rows.map (fun r => r.getD j {})

/-- The products of one row of A with one column of B, NEG applied; idle ones left out. -/
def products (neg : Bool) (a b : List MEl) : List MEl :=
  ((List.zipWith MEl.mul a b).map (fun t => if neg then t.negate else t)).filter (fun t => !t.idle)

/-- The contributions of a product: `bmax` the bound of B, `pick` row A's elements beside the rows of B. -/
def productRows (c : Ctx) (f : FMMA) (co : Core) (b : List (List MEl)) (bmax : Int) (bfmt : Nat) (pick : List MEl → List MEl) :
    List (Nat × Contrib) :=
  let s := shpArg c f.shp
  let af := aFmt f
  let na := keptPlanes af (match f.ext with | none => 0 | some x => x.pa.toNat)
  let w0 := imgWord (tilePhys c f.ta) s
  let cols := (List.range s.n).map (colOf b)
  let intc := fmtInt af && fmtInt bfmt
  (List.range s.m).map (fun i =>
    let a := (tileRow c.co w0 af s i s.k).map (mElem af na)
    let u := maxBound af a + bmax + 2 + (ceilLog2 s.k : Nat)
    let ak := pick a
    let terms := cols.map (products f.n ak)
    (i, contribute (co.accRow (accPhys c f.acc) i) (fun n => terms.getD n []) u intc))

/-- A product: the accumulator is cleared under Z, contributions follow, and the form's times are booked (R245). -/
def productAct (c : Ctx) (f : FMMA) (b : List (List MEl)) (bmax : Int) (pick : List MEl → List MEl) (pw ab : Nat) (occ : Nat) : Act :=
  let l := SMap.get {} c.co.latch (latPhys c f.lb)
  let a := accPhys c f.acc
  let u := useMma c f
  Act.all [
    warnBits c (warnIf (match f.ext with | none => false | some x => clampedPlanes (aFmt f) x.pa.toNat || clampedPlanes l.fmt pw) wPclamp),
    Act.when f.z (modCore c.core (fun co => co.accZero a)),
    Act.look (fun h => putContribs c f.acc.toNat a (productRows c f (h.core c.core) b bmax l.fmt pick)),
    holdPath c pArray occ,
    markRd c.core (c.t + 16 * ab) (u.rd.filter (fun i => decide (i < 256))),
    markRd c.core (c.t + occ) [itLatch (latPhys c f.lb)],
    markWr c.core (c.t + occ + 6) [itAcc a],
    modCore c.core (fun co => { co with mma := busyMax co.mma (itAcc a) (c.t + occ + 7) }),
    useBanks c.core {
      cls := 2, seat := isSeat1 c.k, next := c.t, left := 16 * ab, masks := blocksFrom 0,
      rd := marks (c.t + 16 * ab) (u.rd.filter (fun i => decide (i < 256))) ++ [(itLatch (latPhys c f.lb), c.t + occ)],
      wr := [(itAcc a, c.t + occ + 7)], mma := [(itAcc a, c.t + occ + 7)], path := [(pArray, c.t + occ)] }]

/-- PB of a product. -/
def pbOf (f : FMMA) : Nat := match f.ext with | none => 0 | some x => x.pb.toNat
/-- Ab of R245. -/
def abOf (f : FMMA) : Nat := if aFmt f = 4 ∨ aFmt f = 7 ∨ aFmt f = 8 then 2 else 1

/-- MMA (R249). -/
def execMma (f : FMMA) (s : State) : Host.Outcome State Fault Refusal :=
  slotOp (.mma f) s (fun c =>
    let l := SMap.get {} c.co.latch (latPhys c f.lb)
    let n := keptPlanes l.fmt (pbOf f)
    let sh := shpArg c f.shp
    let b := latchRows l n sh.k sh.n
    Out.check (useMma c f).causes
      (Out.ok (productAct c f b (maxBound l.fmt b.flatten) (fun a => a) (pbOf f) (abOf f) (16 * max n (abOf f)))))

/-- The positions that a metadata code keeps; none under a reserved code (R171). -/
def keptPair (code : Nat) : List Nat :=
  match code with
  | 0 => [0, 1] | 1 => [0, 2] | 2 => [0, 3] | 3 => [1, 2] | 4 => [1, 3] | 5 => [2, 3] | _ => []

/-- The 64-bit metadata word at MPC, or the class 4 cause of its fetch (R170, R423). -/
def metaWord (c : Ctx) : Except Cause Nat :=
  let a := c.s.mpc.toNat
  let fail := fun (r : Nat) => if r = 9 then ({ code := 0x1D, tval := BitVec.ofNat 64 a, slots := 0 } : Cause) else mkCause (0x84 + r) a c.sl
  match fetchWord c.h c.core c.s.img c.s.inst a 1 with
  | .error r => .error (fail r)
  | .ok lo => match fetchWord c.h c.core c.s.img c.s.inst (a + 4) 1 with
    | .error r => .error (fail r)
    | .ok hi => .ok (lo + 2 ^ 32 * hi)

/-- MMAS (R250): element k of A meets the compressed row of its kept position; a reserved code anywhere in the word is a warning (R171). -/
def execMmas (f : FMMA) (s : State) : Host.Outcome State Fault Refusal :=
  slotOp (.mmas f) s (fun c =>
    let l := SMap.get {} c.co.latch (latPhys c f.lb)
    let n := keptPlanes l.fmt (pbOf f)
    let sh := shpArg c f.shp
    let groups := ceilDiv sh.k 4
    match metaWord c with
    | .error e => Out.fails ((useMma c f).causes ++ [e])
    | .ok w =>
      let codes := (List.range groups).map (fun g => w / 2 ^ (3 * g) % 8)
      let warn := decide (w / 2 ^ 48 ≠ 0) || (List.range 16).any (fun g => decide (5 < w / 2 ^ (3 * g) % 8))
      -- One entry for each compressed row: the K position of A that it meets, if any.
      let pos := codes.zipIdx.flatMap (fun p => (List.range 2).map (fun j => ((keptPair p.1)[j]?).map (fun q => 4 * p.2 + q)))
      let pick := fun (a : List MEl) => pos.map (fun q => match q with
        | none => ({} : MEl)
        | some k => a.getD k {})
      let absent := fun (k : Nat) => match pos.getD k none with
        | none => true
        | some q => decide (sh.k ≤ q)
      let b := latchRows l n (2 * groups) sh.n
      let b0 := b.zipIdx.map (fun r => if absent r.2 then r.1.map (fun e => { e with code := 0, zero := true, p := 0 }) else r.1)
      Out.check (useMma c f).causes
        (Out.ok (Act.all [warnBits c (warnIf warn wMisc), fetchFill c.core c.s.img c.s.mpc.toNat 1,
          productAct c f b0 (maxBound l.fmt b.flatten) pick (pbOf f) (abOf f) (max (8 * n) (16 * abOf f))])))

/-- The bank requests of a form on a path: `n` of class `cls` from core time `from_` on; its path is held for `occ` ck, its sources are read
until t + rd and its result is written in t + wr. -/
def formBanks (c : Ctx) (u : MUse) (cls from_ n occ rd wr : Nat) : BankUse := {
  cls := cls, seat := isSeat1 c.k, next := from_, left := n, masks := blocksFrom 0, rd := marks (c.t + rd) u.rd,
  wr := marks (c.t + wr + 1) u.wr, path := [(u.path, c.t + occ)] }

/-! ### LATCH (R252) -/

/-- LATCH. -/
def execLatch (f : FLatch) (s : State) : Host.Outcome State Fault Refusal :=
  slotOp (.latch f) s (fun c =>
    let sh := shpArg c f.shp
    let bf := f.bf.toNat
    let u := useLatch c f
    let w0 := imgWord (tilePhys c f.tb) sh
    let rows := (List.range sh.k).map (fun k => tileRow c.co w0 bf sh k sh.n)
    let odd := fun (x : Nat) => bf == 0 && x == 2
    let els : SMap Nat := rows.zipIdx.flatMap (fun r => r.1.zipIdx.filterMap (fun e =>
      if e.1 = 0 ∨ odd e.1 then none else some (64 * r.2 + e.2, e.1)))
    let l : Latch := { fmt := bf, el := els }
    Out.check u.causes
      (Out.ok (Act.all [warnBits c (warnIf (rows.any (fun r => r.any odd)) wMisc),
        modCore c.core (fun co => { co with latch := SMap.set {} co.latch (latPhys c f.lb) l }),
        holdPath c pFill (2 * fmtPlanes bf), markRd c.core (c.t + 2 * fmtPlanes bf) u.rd,
        markWr c.core (c.t + 2 * fmtPlanes bf + 2) u.wr,
        useBanks c.core (formBanks c u 2 c.t (2 * fmtPlanes bf) (2 * fmtPlanes bf) (2 * fmtPlanes bf) (2 * fmtPlanes bf + 2))])))

/-! ### Accumulator forms (R253 to R258) -/

/-- A form of the accumulate path whose sources are read until t + rd and whose result is written in t + wr. -/
def accForm (c : Ctx) (u : MUse) (occ rd wr : Nat) (a : Act) : Out :=
  Out.check u.causes (Out.ok (Act.all [a, holdPath c u.path occ, markRd c.core (c.t + rd) u.rd, markWr c.core (c.t + wr) u.wr]))

/-- The residue cause of a read of an accumulator (R413). -/
def resCause (c : Ctx) (phy : Nat) : Act := abortNote c.k (mkCause (0x40 + phy) 0 c.sl)

/-- MNOP: no path, no effect, never held (R244). -/
def execMnop (ext : Option MAExt) (s : State) : Host.Outcome State Fault Refusal :=
  slotOp (.mnop ext) s (fun _ => Out.ok Act.nil)

/-- AZERO (R90, R254). -/
def execAzero (f : FMA) (s : State) : Host.Outcome State Fault Refusal :=
  slotOp (.azero f) s (fun c =>
    accForm c (useAcc c f.acc none []) 1 0 1 (modCore c.core (fun co => co.accZero (accPhys c f.acc))))

/-- AMOV (R254). -/
def execAmov (f : FMA) (s : State) : Host.Outcome State Fault Refusal :=
  slotOp (.amov f) s (fun c =>
    let a := accPhys c f.acs
    let d := accPhys c f.acc
    accForm c (useAcc c f.acc (some f.acs) []) 16 16 17
      (if c.co.accBad a 64 then resCause c a
       else Act.when (a != d) (modCore c.core (fun co => { co with
         acc := SMap.setAll {} co.acc ((List.range 64).map (fun r => (64 * d + r, co.accRow a r))) }))))

/-- ANORM of one row (R255). -/
def ARow.norm (r : ARow) (gt : Nat) : ARow :=
  if r.start || r.satr then r else
  let s := (min (max ((r.headroom : Int) - gt) 0) (r.e + 2048)).toNat
  { r with e := r.e - s, el := rowEls (fun n => let a := r.at_ n; mkElemFrom a s a.code (a.m * (2 ^ s : Nat))) }

/-- ANORM (R255). -/
def execAnorm (f : FMA) (s : State) : Host.Outcome State Fault Refusal :=
  slotOp (.anorm f) s (fun c =>
    let d := accPhys c f.acc
    accForm c (useAcc c f.acc none []) 16 0 17
      (modCore c.core (fun co => { co with
        acc := SMap.setAll {} co.acc ((List.range 64).map (fun r => (64 * d + r, (co.accRow d r).norm (maGt f)))) })))

/-- AGETX (R256): pending writes of two vector registers, no last-result register. -/
def execAgetx (f : FMA) (s : State) : Host.Outcome State Fault Refusal :=
  slotOp (.agetx f) s (fun c =>
    let a := accPhys c f.acc
    let p : Pend := { port := .v, reg := 0, val := 0, lmask := allLanes, yu := none, due := c.t + 3, order := c.order }
    let ve := ofLanes (fun r => imageNat 32 (c.co.accRow a r).e)
    let vs := ofLanes (fun r => let w := c.co.accRow a r; w.headroom + w.satr.toNat * 2 ^ 8 + w.start.toNat * 2 ^ 9)
    accForm c (useAgetx c f) 1 1 0
      (if c.co.accBad a 64 then resCause c a
       else modSeat c.k (fun s => (s.addPend { p with reg := (maVa f).toNat, val := ve }).addPend { p with reg := (maVb f).toNat, val := vs })))

/-- An accumulator element as a factor. -/
def accElem (e : Int) (a : AElem) : MEl :=
  { code := a.code, neg := if a.code = 0 then decide (a.m < 0) else a.code == 2, zero := a.code == 0 && a.m == 0, p := a.m, x := e }

/-- ASCL (R98, R257). -/
def execAscl (f : FMA) (s : State) : Host.Outcome State Fault Refusal :=
  slotOp (.ascl f) s (fun c =>
    let sh := shpArg c f.shp
    let a := accPhys c f.acs
    let d := accPhys c f.acc
    let rs := vOp c (maVa f) 0
    let cv := vOp c (maVb f) 0
    let cs := (List.range sh.n).map (fun n => mElem 9 24 (lane cv n))
    let rows := (List.range sh.m).filter (fun i => !(c.co.accRow a i).start)
    let u := useAscl c f
    let act := fun (h : Hw) => putContribs c f.acc.toNat d (rows.map (fun i =>
      let src := c.co.accRow a i
      let r := mElem 9 24 (lane rs i)
      let bound := src.e + src.tm + maxBound 9 [r] + 1 + maxBound 9 cs + 1
      let terms := cs.zipIdx.map (fun p => (((accElem src.e (src.at_ p.2)).mul r).mul p.1))
      (i, contribute ((h.core c.core).accRow d i) (fun n => (terms[n]?).toList.filter (fun t => !t.idle)) bound false)))
    { accForm c u 16 16 22 (if c.co.accBad a sh.m then resCause c a else Act.look act) with
      reads := vReads (maVa f) 0 ++ vReads (maVb f) 0 })

/-- AADDT (R258). -/
def execAaddt (f : FMA) (s : State) : Host.Outcome State Fault Refusal :=
  slotOp (.aaddt f) s (fun c =>
    let sh := shpArg c f.shp
    let fm := f.f.toNat
    let d := accPhys c f.acc
    let w0 := imgWord (tilePhys c f.t) sh
    let rows := (List.range sh.m).map (fun i => tileRow c.co w0 fm sh i sh.n)
    let act := fun (h : Hw) => putContribs c f.acc.toNat d (rows.zipIdx.map (fun r =>
      let els := r.1.map (mElem fm (fullCount fm))
      (r.2, contribute ((h.core c.core).accRow d r.2) (fun n => (els[n]?).toList.filter (fun t => !t.idle))
        (maxBound fm els + 1) (fmtInt fm))))
    accForm c (useAaddt c f) 16 16 20
      (Act.all [warnBits c (warnIf (fm == 0 && rows.any (fun r => r.any (fun x => x == 2))) wMisc), Act.look act,
        useBanks c.core (formBanks c (useAaddt c f) 2 c.t 16 16 16 20)]))

/-! ### Epilogue (R259, R260) -/

/-- EPI (R259). -/
def execEpi (f : FEpi) (s : State) : Host.Outcome State Fault Refusal :=
  slotOp (.epi f) s (fun c =>
    let sh := shpArg c f.shp
    let df := f.df.toNat
    let a := accPhys c f.acc
    let g := tilePhys c f.td
    let w0 := imgWord g sh
    let rm := rndOf f.rnd.toNat
    let rows := (List.range sh.m).map (fun i =>
      let r := c.co.accRow a i
      (List.range sh.n).map (fun j => if r.start then (0, false) else epiElem df rm r.satr r.e (r.at_ j)))
    let satn := rows.foldl (fun n r => n + (r.filter (fun e => e.2)).length) 0
    let bad := (List.range sh.m).any (fun i => (c.co.accRow a i).bad)
    let act := Act.all [
      (fun h => writeTile c.core (rows.zipIdx.flatMap (fun r =>
        tileRowWrites (h.core c.core) w0 (fmtPlanes df) (sh.row r.2) (r.1.zipIdx.map (fun e => (sh.col e.2, e.1.1))))) h),
      writeSide c.core (g + fmtGrans df - 1) (BitVec.ofNat 64 satn)]
    Out.check (useEpi c f).causes (Out.ok (Act.all [warnBits c (warnIf (f.rnd == 3) wMisc),
      if bad then resCause c a else act, holdPath c pEpi 16, markRd c.core (c.t + 16) (useEpi c f).rd,
      markWr c.core (c.t + 20) (useEpi c f).wr, useBanks c.core (formBanks c (useEpi c f) 3 (c.t + 5) 16 16 16 20)])))

/-- EPIX (R260). -/
def execEpix (f : FEpi) (s : State) : Host.Outcome State Fault Refusal :=
  slotOp (.epix f) s (fun c =>
    let a := accPhys c f.acc
    let g := tilePhys c f.td
    Out.check (useEpix c f).causes (Out.ok (Act.all [
      if c.co.accBad a 64 then resCause c a
      else writeTile c.core ((accImage c.co a).map (fun w => (512 * g + w.1, w.2))),
      holdPath c pEpi 64, markRd c.core (c.t + 64) (useEpix c f).rd, markWr c.core (c.t + 66) (useEpix c f).wr,
      useBanks c.core (formBanks c (useEpix c f) 3 (c.t + 3) 64 64 64 66)])))

/-! ### Accumulate windows (R261 to R263) -/

/-- AWIN (R261). -/
def execAwin (f : FMA) (s : State) : Host.Outcome State Fault Refusal :=
  slotOp (.awin f) s (fun c =>
    accForm c (useAwin c f) 1 0 0 (modCore c.core (fun co => { co with
      windows := co.windows ++ [{ seat := isSeat1 c.k, acc := f.acc.toNat, e := f.f.toNat + 1,
                                  gran := phys c .gran f.t.toNat, opens := c.now + 1 }] })))

/-- Insert an arrival by source, then issue order. (DEDUCED, log 82) -/
def arrInsert (x : Nat × Nat × Nat) : List (Nat × Nat × Nat) → List (Nat × Nat × Nat)
  | [] => [x]
  | y :: r => if y.1 < x.1 ∨ (y.1 = x.1 ∧ y.2.1 ≤ x.2.1) then y :: arrInsert x r else x :: y :: r

/-- The arrivals of a window in commit order (R94): ascending source, then issue order. -/
def Window.sorted (w : Window) : List (Nat × Nat × Nat) := w.arr.foldl (fun l x => arrInsert x l) []

/-- The rows of an arrival in its staging slot. -/
def Window.rows (w : Window) (co : Core) (slot : Nat) : List ARow :=
  accOfImage (fun i => (SMap.get 0 co.tile (512 * (w.gran + 8 * slot) + i)).toNat)

/-- One arrival's contributions to the accumulator as it stands (R263). -/
def arrivalContribs (co : Core) (d : Nat) (rows : List ARow) : List (Nat × Contrib) :=
  (rows.zipIdx.filter (fun r => !r.1.start)).map (fun r =>
    (r.2, contribute (co.accRow d r.2) (fun n => [accElem r.1.e (r.1.at_ n)].filter (fun t => !t.idle)) (r.1.e + r.1.tm) false))

/-- ACOMMIT (R245, R263): s is the ck after its issue; every arrival is checked before the first commits (R413); then the window closes. -/
def execAcommit (f : FMA) (s : State) : Host.Outcome State Fault Refusal :=
  slotOp (.acommit f) s (fun c =>
    let d := accPhys c f.acc
    let u := useAcommit c f
    match openWindow c f.acc with
    | none => Out.fails u.causes
    | some w =>
      let imgs := w.sorted.map (fun a => w.rows c.co a.2.2)
      let bad := imgs.any (fun l => l.any (fun r => r.bad))
      accForm c u (1 + 16 * w.e) (1 + 16 * w.e) (1 + 16 * w.e + 4) (Act.all [
        if bad then abortNote c.k (mkCause (0x48 + d) 0 c.sl)
        else Act.each imgs (fun l => Act.look (fun h => putContribs c f.acc.toNat d (arrivalContribs (h.core c.core) d l))),
        modCore c.core (fun co => { co with windows := co.windows.filter (fun x => !(x.seat == w.seat && x.acc == w.acc)) })]))

end Sys2Proof.Machine
end

