-- ==== Sys2Proof/Machine/Scan.lean ====
section
/-! DEFINITION. Combine programs and trees (R104 to R110, R268, R269), and the meanings of the scan path's forms (R265 to
R279). -/

namespace Sys2Proof.Machine

/-! ### Combine programs (R104, R106, R268, R269) -/

/-- A scan element: components a and b, and whether a combine on the way to it replaced a NaN image (R266). -/
structure SEl where
  a : Nat
  b : Nat
  rep : Bool := false
deriving DecidableEq, Repr

/-- The image of a that marks the identity (R266). -/
def idImg : Nat := 0xFFFFFFFF
def SEl.isId (x : SEl) : Bool := x.a == idImg
/-- An absent position. -/
def SEl.none_ : SEl := { a := idImg, b := 0 }

/-- Micro-operation u of a program. -/
def microOf (prog : BitVec 128) (u : Nat) : Nat := prog.toNat / 2 ^ (16 * u) % 2 ^ 16

/-- Is one present micro-operation well formed (R269)? -/
def microOk (w : Nat) : Bool :=
  decide (field w 12 10 ≤ 5) && (field w 3 1 == 0 || field w 15 13 == 3 || field w 15 13 == 7)

/-- The first micro-operation slot that breaks R269; none when the program is valid. -/
def badMicro (prog : BitVec 128) : Option Nat :=
  let n := ((List.range 8).takeWhile (fun u => bitOf (microOf prog u) 0)).length
  (List.range 8).find? (fun u => if u < n then !microOk (microOf prog u) else n == 0 || microOf prog u != 0)

/-- Number of present micro-operations. -/
def microCount (prog : BitVec 128) : Nat := ((List.range 8).filter (fun u => bitOf (microOf prog u) 0)).length

/-- The registers of a combine: L.a, L.b, R.a, R.b, T0, T1. -/
def microSrc (regs : List Nat) (code : Nat) : Nat :=
  if code = 6 then 0 else if code = 7 then 0x3F800000 else regs.getD code 0

/-- One micro-operation (R268). -/
def microStep (regs : List Nat) (w : Nat) : List Nat :=
  let s1 := microSrc regs (field w 9 7)
  let s2 := microSrc regs (field w 6 4)
  let s3 := microSrc regs (field w 3 1)
  let v := match field w 15 13 with
    | 0 => fp32.mul .ne s1 s2
    | 1 => fp32.add .ne s1 s2
    | 2 => fp32.sub .ne s1 s2
    | 3 => fp32.fma .ne s1 s2 s3
    | 4 => fp32.minmax true s1 s2
    | 5 => fp32.minmax false s1 s2
    | 6 => s1
    | _ => if (fp32.decode s3 != .nan) && !bitOf s3 31 then s1 else s2
  regs.set (field w 12 10) v

/-- combine(L, R): an identity returns the other side; a result that would read as the identity is the canonical NaN. -/
def combine (prog : BitVec 128) (l r : SEl) : SEl :=
  if l.isId then r
  else if r.isId then l
  else
    let ws := ((List.range 8).map (microOf prog)).filter (fun w => bitOf w 0)
    let f := ws.foldl microStep [l.a, l.b, r.a, r.b, 0, 0]
    let a := f.getD 0 0
    { a := if a = idImg then 0x7FC00000 else a, b := f.getD 1 0, rep := l.rep || r.rep || a == idImg }

/-- One level of the tree of R107: positions that `at_` selects combine with the one 2^d below. -/
def treeLevel (prog : BitVec 128) (d : Nat) (at_ : Nat → Bool) (s : List SEl) : List SEl :=
  s.zipIdx.map (fun e => if at_ e.2 then combine prog (s.getD (e.2 - 2 ^ d) .none_) e.1 else e.1)

/-- The up-sweep of R107. -/
def upSweep (prog : BitVec 128) (x : List SEl) : List SEl :=
  (List.range 6).foldl (fun s d => treeLevel prog d (fun k => (k + 1) % 2 ^ (d + 1) == 0) s) x

/-- The down-sweep of R107. -/
def downSweep (prog : BitVec 128) (x : List SEl) : List SEl :=
  [4, 3, 2, 1, 0].foldl (fun s d => treeLevel prog d
    (fun k => decide (2 ^ (d + 1) ≤ k) && k % 2 ^ (d + 1) == 2 ^ d - 1) s) x

/-- The scan of 64 positions. -/
def treeScan (prog : BitVec 128) (x : List SEl) : List SEl := downSweep prog (upSweep prog x)

/-- Did a combine on the way to some element replace its result? -/
def anyRep (l : List SEl) : Bool := l.any (fun e => e.rep)

/-! ### Row-layout images, state tiles, carry slots (R265, R267) -/

/-- A lane of a row-layout image from physical granule g. -/
def rowLane (co : Core) (g row col : Nat) : Nat :=
  (SMap.get 0 co.tile (512 * g + 32 * row + col / 2)).toNat / 2 ^ (32 * (col % 2)) % 2 ^ 32

/-- Write 4-byte lanes (granule, row, column, value) of row-layout images. -/
def writeLanes (core : Nat) (l : List (Nat × Nat × Nat × Nat)) : Act := fun h =>
  let co := h.core core
  writeTile core (l.foldl (fun (m : List (Nat × W64)) e =>
    let w := 512 * e.1 + 32 * e.2.1 + e.2.2.1 / 2
    let old := (match SMap.find m w with | some x => x | none => SMap.get 0 co.tile w).toNat
    let sh := 32 * (e.2.2.1 % 2)
    let cur := old / 2 ^ sh % 2 ^ 32
    SMap.insert m w (BitVec.ofNat 64 (old - cur * 2 ^ sh + e.2.2.2 * 2 ^ sh))) []) h

def htKey (tile row lane : Nat) : Nat := 4096 * tile + 64 * row + lane
def htLane (co : Core) (tile row lane : Nat) : Nat := (SMap.get 0 co.ht (htKey tile row lane)).toNat
/-- Write lanes (tile, row, lane, value) of state tiles. -/
def writeHt (core : Nat) (l : List (Nat × Nat × Nat × Nat)) : Act := modCore core (fun co =>
  { co with ht := SMap.setAll 0 co.ht (l.map (fun e => (htKey e.1 e.2.1 e.2.2.1, BitVec.ofNat 32 e.2.2.2))) })

/-- A pair image's element. -/
def pairEl (co : Core) (g row col : Nat) : SEl := { a := rowLane co g row col, b := rowLane co (g + 4) row col }
/-- The writes of a pair element. -/
def pairWrites (g row col : Nat) (x : SEl) : List (Nat × Nat × Nat × Nat) := [(g, row, col, x.a), (g + 4, row, col, x.b)]
/-- A carry slot's lane. -/
def slotEl (co : Core) (tile row lane : Nat) : SEl := { a := htLane co tile row lane, b := htLane co tile (row + 1) lane }
def slotWrites (tile row lane : Nat) (x : SEl) : List (Nat × Nat × Nat × Nat) := [(tile, row, lane, x.a), (tile, row + 1, lane, x.b)]

/-! ### Fields and uses -/

def scW16 (f : FScan) : Nat := match f.ext with | none => 0 | some x => x.w16.toNat
def scLand (f : FScan) : Nat := match f.ext with | none => 0 | some x => x.land.toNat
def htPhys (c : Ctx) (n : Nat) : Nat := phys c .ht n
/-- First row of the carry slot. -/
def slotRow (f : FScan) : Nat := scW16 f / 16
def progOf (c : Ctx) (f : FScan) : BitVec 128 := c.s.qr f.q.toNat

/-- A program that breaks R269 (R403, R414). -/
def progCauses (c : Ctx) (f : FScan) : List Cause :=
  match badMicro (progOf c f) with
  | none => []
  | some u => [mkCause 0x59 (f.q.toNat + 16 * u) c.sl]

def qItem (c : Ctx) (f : FScan) : Nat := itQ (isSeat1 c.k) f.q.toNat

/-- The window of a scan form: M rows, N columns of a 64 × 64 tile of 16 KiB (R265), which requires SGO = 0 (R61). -/
def scanShape (c : Ctx) (f : FScan) : List Cause :=
  let s := shpArg c f.shp
  shpCauses c f.shp s.m s.n 16384

/-- SCAN's and SCANT's group check (R415). -/
def groupCauses (c : Ctx) : List Cause :=
  let size := field c.s.scangrp.toNat 23 0
  if size = 0 ∨ size ≤ field c.s.scangrp.toNat 47 24 then [mkCause 0x180 0 c.sl] else []

/-- SCAN, SCANL, SCANC: a pair image, a carry slot, a program. -/
def useScan (c : Ctx) (f : FScan) (group wr : Bool) : MUse :=
  let gs := (tileGrans c f.tp 8).map itGran
  let t := itHt (htPhys c f.h.toNat)
  { causes := winCauses c .ht (f.h.toNat : Int) 1 ++ tileCauses c f.tp 8 ++ scanShape c f ++ progCauses c f ++
      (if group then groupCauses c else []),
    path := pScan, rd := gs ++ [t, qItem c f], wr := gs ++ (if wr then [t] else []) }

/-- SCANT. (DEDUCED, log 33) -/
def useScant (c : Ctx) (f : FScan) : MUse :=
  let t := itHt (htPhys c f.h.toNat)
  { causes := winCauses c .ht (f.h.toNat : Int) 1 ++ progCauses c f ++ groupCauses c, path := pScan, rd := [t, qItem c f], wr := [t] }

/-- QSET. -/
def useQset (c : Ctx) (f : FScan) : MUse :=
  { causes := tileCauses c f.tp 1, path := pScan, rd := (tileGrans c f.tp 1).map itGran }

/-- STEP and STEPY. -/
def useStep (c : Ctx) (f : FScan) (y : Bool) : MUse :=
  let gs := (tileGrans c f.tp 8).map itGran
  let ts := [itHt (htPhys c f.h.toNat), itHt (htPhys c (f.h.toNat + 1))]
  { causes := winCauses c .ht (f.h.toNat : Int) 2 ++ tileCauses c f.tp 8 ++ scanShape c f ++ progCauses c f,
    path := pScan, rd := gs ++ ts ++ [qItem c f], wr := ts ++ (if y then gs else []) }

/-- HLD and HST. -/
def useHmove (c : Ctx) (f : FScan) (ld : Bool) : MUse :=
  let gs := (tileGrans c f.tp 4).map itGran
  let t := [itHt (htPhys c f.h.toNat)]
  { causes := winCauses c .ht (f.h.toNat : Int) 1 ++ tileCauses c f.tp 4, path := pScan,
    rd := if ld then gs else t, wr := if ld then t else gs }

/-- HZERO. -/
def useHzero (c : Ctx) (f : FScan) : MUse :=
  { causes := winCauses c .ht (f.h.toNat : Int) 1, path := pScan, wr := [itHt (htPhys c f.h.toNat)] }

/-- What a scan-path form names. -/
def scUse (c : Ctx) (i : Instr) : Option MUse :=
  match i with
  | .scan f => some (useScan c f true true)
  | .scanl f => some (useScan c f false true)
  | .scant f => some (useScant c f)
  | .scanc f => some (useScan c f false false)
  | .qset f => some (useQset c f)
  | .step f => some (useStep c f false)
  | .stepy f => some (useStep c f true)
  | .hld f => some (useHmove c f true)
  | .hst f => some (useHmove c f false)
  | .hzero f => some (useHzero c f)
  | _ => none

/-- What holds a scan-path form. -/
def scHold (c : Ctx) (i : Instr) : Option Nat :=
  match scUse c i with
  | none => none
  | some u => u.hold c

/-- A form of the scan path that completes locally (R245). -/
def scForm (c : Ctx) (u : MUse) (occ rd wr : Nat) (a : Act) (sends : Bool := false) : Out :=
  Out.check u.causes (Out.ok (Act.all [a, holdPath c u.path occ,
    markRd c.core (c.t + rd) (u.rd.filter (fun i => decide (i < 276))), markWr c.core (c.t + wr) u.wr, scBanks c u occ rd wr sends]))
where
  /-- Its bank requests (R313): one in each ck in which it reads the tile store, or, where it only writes there, of its writes; what it
  has submitted, if it `sends`, goes later with it. -/
  scBanks (c : Ctx) (u : MUse) (occ rd wr : Nat) (sends : Bool) : Act :=
    let x := formBanks c { u with rd := u.rd.filter (fun i => decide (i < 276)) } 3 c.t rd occ rd wr
    if u.rd.any (fun i => decide (i < 256)) then Act.look (fun h => useBanks c.core { x with acc := if sends then some (h.glob.nextId - 1) else none })
    else Act.when (u.wr.any (fun i => decide (i < 256))) (useBanks c.core { x with next := c.t + wr + 1 - occ, left := occ })

/-- The note of a replaced combine result (R414). -/
def noteRep (c : Ctx) (b : Bool) : Act := Act.when b (noteSeat c.k (mkCause 0x5F 0 c.sl))

/-! ### Scans (R273 to R275) -/

/-- One lane of SCANL: column, the new elements by position, the new slot value. -/
structure LaneScan where
  col : Nat
  els : List SEl
  carry : SEl
  rep : Bool

/-- SCANL on one window lane: the tree over 64 tree positions, then the carry on the left. -/
def scanLane (c : Ctx) (f : FScan) (s : Shp) (j : Nat) : LaneScan :=
  let prog := progOf c f
  let g := tilePhys c f.tp
  let col := s.col j
  let pos := fun i => if f.rev then 63 - i else i
  let x := (List.range 64).map (fun k => let i := pos k
    if i < s.m then pairEl c.co g (s.row i) col else SEl.none_)
  let up := upSweep prog x
  let r := downSweep prog up
  let cs := slotEl c.co (htPhys c f.h.toNat) (slotRow f) col
  let els := (List.range s.m).map (fun i => combine prog cs (r.getD (pos i) .none_))
  let carry := combine prog cs (r.getD 63 .none_)
  { col := col, els := els, carry := carry, rep := anyRep r || anyRep els || carry.rep }

/-- The lanes of a scan. -/
def scanLanes (c : Ctx) (f : FScan) : List LaneScan :=
  let s := shpArg c f.shp
  (List.range s.n).map (scanLane c f s)

/-- The writes of a local scan. -/
def scanWrites (c : Ctx) (f : FScan) (l : List LaneScan) : Act :=
  let s := shpArg c f.shp
  let g := tilePhys c f.tp
  Act.all [
    writeLanes c.core (l.flatMap (fun e => e.els.zipIdx.flatMap (fun x => pairWrites g (s.row x.2) e.col x.1))),
    writeHt c.core (l.flatMap (fun e => slotWrites (htPhys c f.h.toNat) (slotRow f) e.col e.carry)),
    noteRep c (l.any (fun e => e.rep))]

/-- The submission of slot lanes under SCANGRP (R274), and its landing at core time t + d + LAND: the state tile is busy
until then. Either form's submission leaves 72 ck after its issue (R325). The seat's next round number of the tag is taken. -/
def submit (c : Ctx) (f : FScan) (d : Nat) (lanes : List (Nat × SEl)) : Act := withId (fun id => fun h =>
  let g := c.s.scangrp.toNat
  let tag := field g 63 48
  let m : ScanMsg := {
    seat := c.k, tag := tag, lpkg := (h.inst c.s.inst).pkg, round := SMap.get 0 (h.seat c.k).scanRound tag, ord := field g 47 24,
    size := field g 23 0, prog := progOf c f, acc := id,
    lanes := lanes.map (fun e => (e.1, BitVec.ofNat 32 e.2.a, BitVec.ofNat 32 e.2.b)) }
  let land := landOf c.s.cpdef (scLand f)
  Act.all [
    putAcc id { seat := c.k, kind := .scanRes (htPhys c f.h.toNat) (slotRow f) m, scPkg := pkgOfCore c.core,
                due := c.t + 72 },
    modSeat c.k (fun s => { s with scanRound := SMap.set 0 s.scanRound tag (m.round + 1) }),
    modCore c.core (fun co => { co with landings := co.landings ++
      [{ acc := id, seat := isSeat1 c.k, due := c.t + d + land, len := 1, tags := 0, book := false }] })] h)

/-- SCANL (R273). -/
def execScanl (f : FScan) (s : State) : Host.Outcome State Fault Refusal :=
  slotOp (.scanl f) s (fun c => scForm c (useScan c f false true) 64 72 72 (scanWrites c f (scanLanes c f)))

/-- SCAN (R274). -/
def execScan (f : FScan) (s : State) : Host.Outcome State Fault Refusal :=
  slotOp (.scan f) s (fun c =>
    let l := scanLanes c f
    scForm c (useScan c f true true) 64 72 72 (Act.all [scanWrites c f l, submit c f 72 (l.map (fun e => (e.col, e.carry)))]) true)

/-- SCANT (R274): the whole slot as it stands. -/
def execScant (f : FScan) (s : State) : Host.Outcome State Fault Refusal :=
  slotOp (.scant f) s (fun c =>
    let t := htPhys c f.h.toNat
    scForm c { useScant c f with wr := [] } 1 1 0
      (submit c f 0 ((List.range 64).map (fun n => (n, slotEl c.co t (slotRow f) n)))))

/-- SCANC (R275). -/
def execScanc (f : FScan) (s : State) : Host.Outcome State Fault Refusal :=
  slotOp (.scanc f) s (fun c =>
    let s := shpArg c f.shp
    let g := tilePhys c f.tp
    let prog := progOf c f
    let l := (List.range s.m).flatMap (fun i => (List.range s.n).map (fun j =>
      (s.row i, s.col j, combine prog (slotEl c.co (htPhys c f.h.toNat) (slotRow f) (s.col j)) (pairEl c.co g (s.row i) (s.col j)))))
    scForm c (useScan c f false false) 8 16 16 (Act.all [
      writeLanes c.core (l.flatMap (fun e => pairWrites g e.1 e.2.1 e.2.2)), noteRep c (l.any (fun e => e.2.2.rep))]))

/-! ### Programs, steps and state tiles (R272, R278, R279) -/

/-- QSET (R272): the q register is busy through c+2. -/
def execQset (f : FScan) (s : State) : Host.Outcome State Fault Refusal :=
  slotOp (.qset f) s (fun c =>
    let w := 512 * tilePhys c f.tp + 2 * scW16 f
    let lo := (SMap.get 0 c.co.tile w).toNat
    let hi := (SMap.get 0 c.co.tile (w + 1)).toNat
    scForm c (useQset c f) 1 1 0 (Act.all [
      modSeat c.k (fun s => { s with q := SMap.set 0 s.q f.q.toNat (BitVec.ofNat 128 (lo + hi * 2 ^ 64)) }),
      markWr c.core (c.t + 2) [qItem c f]]))

/-- The elements that STEP forms: row, column, new state. -/
def stepEls (c : Ctx) (f : FScan) : List (Nat × Nat × SEl) :=
  let s := shpArg c f.shp
  let g := tilePhys c f.tp
  let a := htPhys c f.h.toNat
  let b := htPhys c (f.h.toNat + 1)
  (List.range s.m).flatMap (fun i => (List.range s.n).map (fun j =>
    let r := s.row i
    let k := s.col j
    (r, k, combine (progOf c f) { a := htLane c.co a r k, b := htLane c.co b r k } (pairEl c.co g r k))))

/-- STEP and STEPY (R278). -/
def stepOut (c : Ctx) (f : FScan) (y : Bool) : Out :=
  let l := stepEls c f
  let a := htPhys c f.h.toNat
  let b := htPhys c (f.h.toNat + 1)
  scForm c (useStep c f y) 8 16 16 (Act.all [
    writeHt c.core (l.flatMap (fun e => [(a, e.1, e.2.1, e.2.2.a), (b, e.1, e.2.1, e.2.2.b)])),
    Act.when y (writeLanes c.core (l.flatMap (fun e => pairWrites (tilePhys c f.tp) e.1 e.2.1 e.2.2))),
    noteRep c (l.any (fun e => e.2.2.rep))])

/-- STEP. -/
def execStep (f : FScan) (s : State) : Host.Outcome State Fault Refusal := slotOp (.step f) s (fun c => stepOut c f false)

/-- STEPY. -/
def execStepy (f : FScan) (s : State) : Host.Outcome State Fault Refusal := slotOp (.stepy f) s (fun c => stepOut c f true)

/-- Every (row, lane) of a tile. -/
def tileCells : List (Nat × Nat) := (List.range 64).flatMap (fun r => (List.range 64).map (fun n => (r, n)))

/-- HLD (R279). -/
def execHld (f : FScan) (s : State) : Host.Outcome State Fault Refusal :=
  slotOp (.hld f) s (fun c =>
    let g := tilePhys c f.tp
    let t := htPhys c f.h.toNat
    scForm c (useHmove c f true) 32 32 34 (writeHt c.core (tileCells.map (fun e => (t, e.1, e.2, rowLane c.co g e.1 e.2)))))

/-- HST (R279). -/
def execHst (f : FScan) (s : State) : Host.Outcome State Fault Refusal :=
  slotOp (.hst f) s (fun c =>
    let g := tilePhys c f.tp
    let t := htPhys c f.h.toNat
    scForm c (useHmove c f false) 32 32 34 (writeLanes c.core (tileCells.map (fun e => (g, e.1, e.2, htLane c.co t e.1 e.2)))))

/-- HZERO (R279). -/
def execHzero (f : FScan) (s : State) : Host.Outcome State Fault Refusal :=
  slotOp (.hzero f) s (fun c =>
    let t := htPhys c f.h.toNat
    scForm c (useHzero c f) 1 0 1
      (writeHt c.core (tileCells.map (fun e => (t, e.1, e.2, if f.q = 0 then 0 else idImg)))))

end Sys2Proof.Machine
end

