-- ==== Sys2Proof/Machine/Window.lean ====
section
/-! DEFINITION. Reading the register window (R354 to R357, R360): configuration record, ownership, tables, head report. -/

namespace Sys2Proof.Machine

/-- The window node number of the system core's firmware: no 16-bit node id. -/
def fwNode : Nat := 65536

/-- The configuration record (R360). -/
def configWord (p : Pkg) (n : Nat) : Nat :=
  if n = 0 then
    bitsOf 12 (fun s => stkWorks p s) + (match p.chain with | none => 2 ^ 23 | some q => q % 2 ^ 11 * 2 ^ 12)
  else if n ≤ 144 then
    let c := n - 1
    bitsOf 8 (fun i => coreWorks p (8 * c + i)) * 2 ^ 40 + (rtrWorks p c).toNat * 2 ^ 39 + (!p.slcOff.contains c).toNat * 2 ^ 38
  else if n = 145 then bitsOf 36 (fun q => !p.linkOff.contains q)
  else 0

/-- Doubleword n of the register window (R354). Write-only and unassigned doublewords read zero. -/
def windowRead (h : Hw) (pk n : Nat) : W64 :=
  let p := h.pkg pk
  if n < 512 then BitVec.ofNat 64 (configWord p n)
  else if n = 512 then BitVec.ofNat 64 (p.owner % 2 ^ 16 + p.ownv.toNat * 2 ^ 16 + p.oport % 2 * 2 ^ 17)
  else if n = 513 then BitVec.ofNat 64 (p.succ % 2 ^ 16 + p.succv.toNat * 2 ^ 16)
  else if n = 514 then BitVec.ofNat 64 ((p.up.contains 0).toNat + (p.up.contains 1).toNat * 2)
  else if 2048 ≤ n ∧ n < 2176 then
    let im := SMap.get {} p.images ((n - 2048) / 8)
    let w := SMap.get 0 im.words (n % 8)
    match n % 8 with
    | 0 => BitVec.ofNat 64 (w.toNat % 2 ^ 52 / 2 ^ 6 * 2 ^ 6 + im.valid.toNat)
    | 1 => BitVec.ofNat 64 (w.toNat % 2 ^ 48)
    | 2 => BitVec.ofNat 64 (w.toNat % 2 ^ 52 / 2 ^ 6 * 2 ^ 6 + w.toNat % 2 ^ 5)
    | _ => 0
  else if n = 2176 then BitVec.ofNat 64 p.poolBase
  else if n = 2177 then BitVec.ofNat 64 (p.poolK % 16 + p.poolNs % 2 ^ 15 * 2 ^ 16)
  else if n = 2178 then BitVec.ofNat 64 p.privBase
  else if n = 2179 then BitVec.ofNat 64 (p.cl % 2 ^ 7 + p.ch % 2 ^ 7 * 2 ^ 8)
  else if 2208 ≤ n ∧ n < 2336 then SMap.get 0 p.domTab (n - 2208)
  else if 2432 ≤ n ∧ n < 2496 then
    BitVec.ofNat 64 ((List.range 8).foldr (fun i acc => acc * 256 + SMap.get 0 p.policy (8 * (n - 2432) + i)) 0)
  else if n = 2560 then (p.reports.headD (0, 0)).1
  else if n = 2561 then (p.reports.headD (0, 0)).2
  else 0

end Sys2Proof.Machine
end

