-- ==== Sys2Proof/Machine/Image.lean ====
section
/-! DEFINITION. Reading graph images in memory (R29, R30, R34 to R42, R130): header, sections and records. -/

namespace Sys2Proof.Machine

/-- Doubleword i of the image of a handle. -/
def imgWordN (h : Hw) (pk img i : Nat) : Nat := (read64 h ((SMap.get {} (h.pkg pk).images img).base + 8 * i)).toNat

/-- Section numbers in descriptor order (R29). -/
def secNodes : Nat := 0
def secDeps : Nat := 1
def secLrecs : Nat := 2
def secPlaces : Nat := 3
def secTensors : Nat := 4
def secModels : Nat := 5
def secQueues : Nat := 6
def secMiles : Nat := 7
def secParams : Nat := 8

/-- COUNT and physical address of a section. -/
def secCount (h : Hw) (pk img s : Nat) : Nat := imgWordN h pk img (3 + s) % 2 ^ 32
def secAddr (h : Hw) (pk img s : Nat) : Nat := (SMap.get {} (h.pkg pk).images img).base + imgWordN h pk img (3 + s) / 2 ^ 32

/-- Doubleword w of entry i of a section whose entries have `sz` bytes. -/
def secWord (h : Hw) (pk img s sz i w : Nat) : Nat := (read64 h (secAddr h pk img s + sz * i + 8 * w)).toNat

/-- Entry sizes in section order (R30, R121, R130). -/
def secSize : Nat → Nat
  | 0 => 16 | 1 => 4 | 2 => 64 | 3 => 8 | 4 => 32 | 5 => 16 | 6 => 8 | 7 => 16 | _ => 1

/-- Does an image pass the header checks of R29? -/
def imgHeaderOk (h : Hw) (pk img : Nat) : Bool :=
  let w := imgWordN h pk img 0
  w / 2 ^ 32 == 0x4B393647 && w / 2 ^ 16 % 2 ^ 16 == 1 && w % 2 ^ 16 == 0 && imgWordN h pk img 2 / 8 == 0 &&
  (List.range 9).all (fun s => imgWordN h pk img (3 + s) / 2 ^ 32 % 64 == 0)

/-- Does every section lie inside LENGTH (R29)? -/
def imgSectionsOk (h : Hw) (pk img : Nat) : Bool :=
  let len := imgWordN h pk img 1
  decide (len ≤ (SMap.get {} (h.pkg pk).images img).length) && decide (96 ≤ len) &&
  (List.range 9).all (fun s => decide (imgWordN h pk img (3 + s) / 2 ^ 32 + secSize s * secCount h pk img s ≤ len)) &&
  decide (secCount h pk img secParams ≤ 2 ^ 20)

/-- MAXI of an image. -/
def imgMaxi (h : Hw) (pk img : Nat) : Nat := imgWordN h pk img 2 % 8

/-- A node record (R34). -/
structure NodeImg where
  depn : Nat
  place : Nat
  lrec : Nat
  slist : Nat
  scnt : Nat
  nq : Nat
  nqen : Bool
  nbar : Bool
  res : Bool

def nodeImg (h : Hw) (pk img i : Nat) : NodeImg :=
  let a := secWord h pk img secNodes 16 i 0
  let b := secWord h pk img secNodes 16 i 1
  { depn := a / 2 ^ 48, place := a / 2 ^ 32 % 2 ^ 16, lrec := a / 2 ^ 16 % 2 ^ 16, slist := b / 2 ^ 40, scnt := b / 2 ^ 28 % 2 ^ 12,
    nq := b / 2 ^ 22 % 64, nqen := bitOf b 21, nbar := bitOf b 20, res := a % 2 ^ 16 != 0 || b % 2 ^ 20 != 0 }

def imgNodes (h : Hw) (pk img : Nat) : Nat := secCount h pk img secNodes

/-- The dependants of a node in SLIST order (R35). -/
def dependants (h : Hw) (pk img : Nat) (n : NodeImg) : List Nat :=
  (List.range n.scnt).map (fun i => readNat h (secAddr h pk img secDeps + 4 * (n.slist + i)) 4 % 2 ^ 16)

/-- The loop record of an index, and whether its reserved bits are zero (R40). -/
def lrecImg (h : Hw) (pk img i : Nat) : LoopRec × Bool :=
  let w := fun j => secWord h pk img secLrecs 64 i j
  ({ prol := w 0 % 2 ^ 56, kern := w 1 % 2 ^ 56, epil := w 2 % 2 ^ 56, argp := w 4 % 2 ^ 56,
     trip := w 3 / 2 ^ 32, ibnd := w 3 % 2 ^ 20,
     xn := w 5 / 2 ^ 58, vn := field (w 5) 57 51, gn := field (w 5) 50 42, an := field (w 5) 41 38, bn := field (w 5) 37 35,
     hn := field (w 5) 34 31, ln := field (w 5) 30 25,
     fbase := w 6 / 2 ^ 54, fcnt := field (w 6) 53 44, pri := field (w 6) 43 41, spri := field (w 6) 40 39 },
   w 0 / 2 ^ 56 == 0 && w 1 / 2 ^ 56 == 0 && w 2 / 2 ^ 56 == 0 && w 4 / 2 ^ 56 == 0 && w 7 == 0 &&
   field (w 3) 31 20 == 0 && w 5 % 2 ^ 25 == 0 && w 6 % 2 ^ 39 == 0)

/-- A placement record (R42). -/
structure PlaceImg where
  spd : Nat
  cps : Nat
  cpc : Nat
  seat : Nat
  jct : Bool
  xj : Bool
  sgbase : Nat
  res : Bool

def placeImg (h : Hw) (pk img i : Nat) : PlaceImg :=
  let w := secWord h pk img secPlaces 8 i 0
  { spd := field w 53 44, cps := field w 43 40, cpc := field w 39 36, seat := field w 35 34, jct := bitOf w 33, xj := bitOf w 32,
    sgbase := field w 31 22, res := w / 2 ^ 54 != 0 || w % 2 ^ 22 != 0 }

/-- The queue definitions of an image: cluster, queue, CAPL (R39). (DEDUCED, log 53) -/
def queueImgs (h : Hw) (pk img : Nat) : List (Nat × Nat × Nat) :=
  (List.range (secCount h pk img secQueues)).map (fun i =>
    let w := secWord h pk img secQueues 8 i 0
    (field w 31 24, field w 23 16, field w 15 12))

/-- The milestones of an image: time, relative, node (R38). -/
def milestoneImgs (h : Hw) (pk img : Nat) : List (Nat × Bool × Nat) :=
  (List.range (secCount h pk img secMiles)).map (fun i =>
    (secWord h pk img secMiles 16 i 0, bitOf (secWord h pk img secMiles 16 i 1) 63, secWord h pk img secMiles 16 i 1 % 2 ^ 16))

/-- A model entry with its layers (HOME address, SIZE) in index order (R130). -/
structure ModelImg where
  model : Nat
  mpri : Nat
  nl : Nat
  pfw : Nat
  layers : List (Nat × Nat)

/-- Walk the model and layer section: a model entry opens a model, layer entries join the last one. -/
def modelImgsAux (h : Hw) (pk img : Nat) : Nat → Nat → List ModelImg → List ModelImg
  | 0, _, acc => acc
  | f + 1, i, acc =>
    let a := secWord h pk img secModels 16 i 0
    let b := secWord h pk img secModels 16 i 1
    if bitOf a 63 then
      let acc' := match acc with
        | [] => []
        | m :: r => { m with layers := m.layers ++ [(field a 51 16 * 2 ^ 16, b / 2 ^ 44)] } :: r
      modelImgsAux h pk img f (i + 1) acc'
    else modelImgsAux h pk img f (i + 1)
      ({ model := field a 62 57, mpri := field a 56 54, nl := field a 53 43, pfw := field a 42 39, layers := [] } :: acc)

def modelImgs (h : Hw) (pk img : Nat) : List ModelImg :=
  (modelImgsAux h pk img (secCount h pk img secModels) 0 []).reverse

end Sys2Proof.Machine
end

