-- ==== Sys2Proof/Machine/Sync.lean ====
section
/-! DEFINITION. Drains, releases and what they issue: coverage and status of a DRAIN (R147, R218, R437), releases (R148,
R150, R211, R214, R438), flag packets (R209, R210, R452), SIGNAL (R214, R322), FWAIT (R213). -/

namespace Sys2Proof.Machine

/-! ### Coverage (R139, R147) -/

/-- Has a part performed (a read performs when its value is taken, R140)? -/
def partPerformed (p : Part) : Bool := p.st == 4 || p.st == 5 || p.st == 8

/-- Is a part inside a scope? A part not yet translated counts as inside every scope. -/
def partIn (h : Hw) (core scope : Nat) (p : Part) : Bool :=
  if p.st = 0 ∨ p.st = 6 then true
  else let m := memHome h core p.pa p.ms; inScope core scope m.1 m.2.1 m.2.2

/-- Does a scope of a core contain another core (R139)? -/
def coreIn (core scope c : Nat) : Bool :=
  inScope core scope (some (domCl c)) (some (12 * pkgOfCore c + stackOfCl (clOfCore c))) (pkgOfCore c)

/-- Does a scope of the seat's core contain a location of the access? -/
def accIn (h : Hw) (core scope : Nat) (a : Access) : Bool :=
  if !a.dests.isEmpty then a.dests.any (coreIn core scope)
  else if a.parts.isEmpty then inScope core scope a.scCluster a.scStack a.scPkg
  else a.parts.any (partIn h core scope) || (a.left != 0 && inScope core scope a.scCluster a.scStack a.scPkg)

/-- Is something of the access inside the scope still to perform? -/
def accOpen (h : Hw) (core scope : Nat) (a : Access) : Bool :=
  if !a.dests.isEmpty then a.left != 0 && a.dests.any (fun c => !a.reached.contains c && coreIn core scope c)
  else a.parts.any (fun p => !partPerformed p && partIn h core scope p) ||
  (a.left != 0 && inScope core scope a.scCluster a.scStack a.scPkg)

/-- The accesses that a DRAIN of seat k covers: those numbered below `before` whose location the scope contains. (DEDUCED, log 35) -/
def covered (h : Hw) (k scope before : Nat) : List (Nat × Access) :=
  h.accs.filter (fun a => a.2.seat == k && decide (a.1 < before) && accIn h (coreOf k) scope a.2)

/-- Has every covered access performed? -/
def drained (h : Hw) (k scope before : Nat) : Bool :=
  (covered h k scope before).all (fun a => !accOpen h (coreOf k) scope a.2)

/-- The status word (R437). -/
def drainStatus (h : Hw) (k scope before : Nat) (limit : Bool) : W64 :=
  let l := covered h k scope before
  let openN := if limit then (l.filter (fun a => accOpen h (coreOf k) scope a.2)).length else 0
  let bits := l.foldl (fun b a => b ||| a.2.fail) (if limit then 0x80 else 0)
  let n := l.foldl (fun n a => n + a.2.nfail) openN
  if bits = 0 then 0 else BitVec.ofNat 64 ((bits ||| 1) + min n 65535 * 2 ^ 32)

/-- Forget the failures that a drain has reported. -/
def reported (k scope before : Nat) : Act := Act.look (fun h =>
  Act.each (covered h k scope before) (fun a => Act.all [
    modAcc a.1 (fun a => { a with fail := 0, nfail := 0 }), reap a.1]))

/-! ### Flag packets (R209 to R211) -/

/-- A remote flag operation leaves seat k for one core. To the issuing core it is an arrival of the next ck (R209). -/
def sendFlag (k core flag : Nat) (a : FlagAct) : Act := withId (fun id => fun h =>
  let me := coreOf k
  let m : FlagMsg := { src := me, core := core, flag := flag, act := a, acc := id }
  Act.all [
    putAcc id { seat := k, kind := .flag, left := 1, scCluster := some (domCl core),
                scStack := some (12 * pkgOfCore core + stackOfCl (clOfCore core)), scPkg := pkgOfCore core },
    if core = me then after 1 (.remoteFlagArrival m)
    else if !reachable h (pkgOfCore me) (pkgOfCore core) then
      Act.all [record (domDie me) { code := 0x156, unitk := 8, unit := pkgOfCore core }, loseAccess id bitLink]
    else sendTo (domCl me) (me % 8) (domCl core) (core % 8) 1 none id (.event (.remoteFlagArrival m))] h)

/-- The cores that hold a seat of the node of a live group tag; none when the tag is not live (R210, R452). (DEDUCED, log 36) -/
def tagCores (h : Hw) (lpkg tag : Nat) : Option (List Nat) :=
  match (h.pkg lpkg).tagLive.find? (fun t => t.1 == tag) with
  | none => none
  | some t => some (((SMap.get {} (h.inst t.2.1).nodes t.2.2).seats.map coreOf).foldl (fun l c => if l.contains c then l else l ++ [c]) [])

/-- An FSET by group tag goes to the lead dispatcher of its package (R210, R452). -/
def sendFlagTag (k tag lpkg flag : Nat) (v : BitVec 16) : Act := withId (fun id => fun h =>
  let me := coreOf k
  let m : FlagMsg := { src := me, core := 0, flag := flag, act := .set v, acc := id, byTag := some (tag, lpkg) }
  Act.all [
    putAcc id { seat := k, kind := .flag, left := 1, scPkg := lpkg, dests := (tagCores h lpkg tag).getD [] },
    if !reachable h (pkgOfCore me) lpkg then
      Act.all [record (domDie me) { code := 0x156, unitk := 8, unit := lpkg }, loseAccess id bitLink]
    else sendTo (domCl me) (me % 8) (144 * lpkg + attachCl 0) 12 1 none id (.event (.remoteFlagArrival m))] h)

/-- One covered delivery of an access has performed. -/
def oneLess (id : Nat) : Act := Act.all [modAcc id (fun a => { a with left := a.left - 1 }), reap id]

/-- A flag packet arrives: at the lead dispatcher it is expanded to the node's cores, or dropped when its tag is not live
(R452); at a core it takes effect in this ck in the order of R64. -/
def flagArrives (m : FlagMsg) : Act := fun h =>
  match m.byTag with
  | some (tag, lpkg) =>
    let d := 4 * lpkg
    match tagCores h lpkg tag with
    | none => Act.all [record d { code := 0x150, unitk := 6, unit := d, tag := tag },
        modAcc m.acc (fun a => { a with fail := a.fail ||| 2 ^ bitStale, nfail := a.nfail + 1, left := 0 })] h
    | some cores => Act.all [
        modAcc m.acc (fun a => { a with left := cores.length, dests := cores }), reap m.acc,
        Act.each cores (fun c => sendTo (144 * lpkg + attachCl 0) 12 (domCl c) (c % 8) 1 none m.acc
          (.event (.remoteFlagArrival { m with core := c, byTag := none })))] h
  | none => Act.all [flagOpAt m.core (2 + m.src) m.flag m.act,
      modAcc m.acc (fun a => { a with reached := if a.dests.isEmpty then [] else m.core :: a.reached }), oneLess m.acc] h

/-! ### SIGNAL (R214, R322) -/

/-- A SIGNAL message leaves for the lead dispatcher. -/
def sendSignal (k node : Nat) : Act := fun h =>
  let s := h.seat k
  let p := (h.inst s.inst).pkg
  let me := coreOf k
  if !reachable h (pkgOfCore me) p then
    Act.all [record (domDie me) { code := 0x156, unitk := 8, unit := p }] h
  else sendTo (domCl me) (me % 8) (144 * p + attachCl 0) 12 16 none 0 (.event (.signalCounted s.inst node 0)) h

/-! ### Releases -/

/-- A release that writes a register writes it in the ck in which its drain ends (R285), in its place in the issue order (R142). -/
def relX (k xd order : Nat) (v : W64) : Act := fun h =>
  if xd = 0 then [] else modSeat k (fun s => s.addPend (xPend xd v (h.coreT (coreOf k)) order)) h

/-- The mailbox entry that a CREQ of seat k in place `order` of its issue order has reserved. -/
def MEntry.waitsFor (e : MEntry) (k n : Nat) : Bool := e.st == 0 && e.ticket == n && e.core == coreOf k && e.seat == isSeat1 k

/-- A reserved entry is posted: it takes the next ticket, and its place is behind those posted before (R302). -/
def Cluster.post (c : Cluster) (k n : Nat) : Cluster :=
  match c.mbox.find? (fun e => e.waitsFor k n) with
  | none => c
  | some e => { c with ticket := (c.ticket + 1) % 2 ^ 16, mbox := c.mbox.erase e ++ [{ e with ticket := c.ticket, st := 1 }] }

/-- What a release issues when its drain has ended with status zero. -/
def doRel (k : Nat) (op : RelOp) : Act :=
  match op with
  | .flagAdd loc core flag v =>
    if loc then flagOpAt core (if isSeat1 k then 1 else 0) flag (.add v) else sendFlag k core flag (.add v)
  | .flagSet cores flag v => Act.each cores (fun c => sendFlag k c flag (.set v))
  | .flagTag tag lpkg flag v => sendFlagTag k tag lpkg flag v
  | .signal node => sendSignal k node
  | .queuePush cl q place => modCluster cl (fun c =>
      let u := SMap.get {} c.queues q
      let v := { u with places := u.places.map (fun p => if p.id = place then { p with ready := true } else p) }
      { c with queues := SMap.insert c.queues q v })
  | .creq cl n xd => Act.look (fun h => Act.all [
      modCluster cl (fun c => c.post k n), relX k xd (n - 2 ^ 16) (BitVec.ofNat 64 (1 + (h.cluster cl).ticket * 2 ^ 16))])
  | .xdone cl ticket xd v order => Act.look (fun h =>
      let on := (h.cluster cl).mbox.any (fun e => e.ticket == ticket && e.st == 2)
      Act.all [
        modCluster cl (fun c => { c with mbox := c.mbox.map (fun e =>
          if e.ticket = ticket ∧ e.st = 2 then { e with st := 3, result := v } else e) }),
        relX k xd order (if on then 1 else 0)])

/-- What a release withholds when its drain has ended with a nonzero status (R416, R438). -/
def withholdRel (k : Nat) (op : RelOp) (status : W64) : Act :=
  match op with
  | .signal _ => noteSeat k { code := 0x73, tval := status, slots := 0 }
  | .queuePush cl q place => Act.look (fun h => Act.all [
      modCluster cl (fun c =>
        let u := SMap.get {} c.queues q
        let v := { u with places := u.places.filter (fun p => p.id != place) }
        { c with queues := SMap.insert c.queues q v }),
      record (domDie (coreOf k)) (seatRec h k { code := 0x123, tval := BitVec.ofNat 64 q, slots := 0 } 0 0),
      after 1 (.ext (.instanceAbort (h.seat k).inst (abortStatus (coreOf k) 0x123)))])
  | .creq cl n xd => Act.all [
      modCluster cl (fun c => { c with mbox := c.mbox.filter (fun e => !e.waitsFor k n) }),
      relX k xd (n - 2 ^ 16) 0,
      noteSeat k { code := 0x72, tval := status, slots := 0 }]
  | .xdone _ _ xd _ order => Act.all [relX k xd order 0, noteSeat k { code := 0x72, tval := status, slots := 0 }]
  | _ => noteSeat k { code := 0x72, tval := status, slots := 0 }

/-- Does the seat wait for a release (R211)? QPUSH reports its predicate at issue and the seat goes on (R208). -/
def RelOp.waits : RelOp → Bool
  | .queuePush _ _ _ => false
  | _ => true

/-- A release: drain at the scope, then the operation; at once when nothing is outstanding. -/
def release (c : Ctx) (scope : Nat) (op : RelOp) : Act := fun h =>
  let before := c.h.glob.nextId
  if drained c.h c.k scope before then
    let st := drainStatus c.h c.k scope before false
    if st = 0 then doRel c.k op h else Act.all [reported c.k scope before, withholdRel c.k op st] h
  else modSeat c.k (fun s => { s with
    rels := s.rels ++ [{ scope := scope, start := c.now, before := before, op := op }],
    wait := if op.waits then .release c.now else s.wait }) h

/-- The first release of a seat that can end: its drain is done, or has run 2^22 ck (R377). -/
def relReady (h : Hw) (k : Nat) : Option Rel :=
  let s := h.seat k
  s.rels.find? (fun r => (!r.op.waits || s.wait == .release r.start) &&
    (drained h k r.scope r.before || decide (r.start + 2 ^ 22 ≤ h.glob.now)))

/-- A release's drain ends (R148, R211, R438). A CREQ's waiting register and a waiting seat go on. -/
def relEnds (k : Nat) : Act := fun h =>
  match relReady h k with
  | none => []
  | some r =>
    let lim := !drained h k r.scope r.before
    let st := drainStatus h k r.scope r.before lim
    let t := h.coreT (coreOf k)
    Act.all [
      modSeat k (fun s => { s with
        rels := s.rels.erase r, wait := if r.op.waits then .none else s.wait,
        nextIssue := if r.op.waits then max s.nextIssue (t + 1 + s.stallW) else s.nextIssue }),
      reported k r.scope r.before,
      if st = 0 then doRel k r.op else withholdRel k r.op st] h

/-! ### DRAIN (R218) -/

/-- The place in the issue order of slot S of the bundle that a seat issued last: that of a wait's result (R142). -/
def Seat.lastOrder (s : Seat) : Nat := 8 * (s.issueNo - 1)

/-- A DRAIN ends: the status word is written in this ck. LIMIT raises 0x071 (R437). -/
def drainEnds (k : Nat) (lim : Bool) : Act := fun h =>
  match (h.seat k).wait with
  | .drain xd sc _ before =>
    let st := drainStatus h k sc before lim
    let t := h.coreT (coreOf k)
    Act.all [
      modSeat k (fun s =>
        let r := if xd = 0 then s else s.addPend (xPend xd st t s.lastOrder)
        { r with wait := .none, nextIssue := max r.nextIssue (t + 1 + r.stallW) }),
      Act.when lim (noteSeat k { code := 0x71, tval := st, slots := 0 }),
      reported k sc before] h
  | _ => []

/-! ### FWAIT (R213) -/

/-- An FWAIT ends with a value in this ck. -/
def fwaitEnds (k : Nat) (ok : Bool) : Act := fun h =>
  match (h.seat k).wait with
  | .fwait f _ _ _ xd _ _ =>
    let t := h.coreT (coreOf k)
    let v : W64 := if ok then BitVec.ofNat 64 (2 ^ 16 + (SMap.get 0 (h.core (coreOf k)).flags f).toNat) else 0
    modSeat k (fun s =>
      let r := if xd = 0 then s else s.addPend (xPend xd v t s.lastOrder)
      { r with wait := .none, nextIssue := max r.nextIssue (t + 1 + r.stallW) }) h
  | _ => []

end Sys2Proof.Machine
end

