-- ==== Sys2Proof/Machine/Copy.lean ====
section
/-! DEFINITION. The meanings of the copy slots' forms (R280 to R304, R307, R308), tensor addressing (R121 to R126, R132), and
what holds a copy form. Plans (XPLAN, XSTEP, XABORT) stand in Collective.lean. -/

namespace Sys2Proof.Machine

/-! ### Tensor and tile tables (R121 to R124) -/

/-- A tensor table entry. -/
structure Tens where
  rows : Nat := 0
  cols : Nat := 0
  fmt : Nat := 0
  lay : Nat := 0
  brl : Nat := 0
  bcl : Nat := 0
  cmp : Bool := false
  msf : Bool := false
  wr : Bool := false
  v : Bool := false
  ttb : Nat := 0
  ctb : Nat := 0
  own : Bool := false
  model : Nat := 0
  layer : Nat := 0

/-- The fields of an entry's four words. -/
def tensOf (l : List W64) : Tens :=
  let w := fun i => (l.getD i 0).toNat
  { rows := field (w 0) 63 40, cols := field (w 0) 39 16, fmt := field (w 0) 15 12, lay := field (w 0) 11 10,
    brl := field (w 0) 9 7, bcl := field (w 0) 6 4, cmp := bitOf (w 0) 3, msf := bitOf (w 0) 2, wr := bitOf (w 0) 1,
    v := bitOf (w 0) 0, ttb := field (w 1) 51 6 * 64, ctb := field (w 2) 51 6 * 64, own := bitOf (w 3) 16,
    model := field (w 3) 15 10, layer := field (w 3) 9 0 }

def Tens.ntr (t : Tens) : Nat := ceilDiv t.rows 64
def Tens.ntc (t : Tens) : Nat := ceilDiv t.cols 64
/-- Bytes of a tile. -/
def Tens.fb (t : Tens) : Nat := fmtBytes t.fmt
/-- Layer key of an owned tensor. -/
def Tens.key (t : Tens) : Nat := 1024 * t.model + t.layer

/-- The number of a tile (R122). -/
def Tens.tileNo (t : Tens) (tr tc : Nat) : Nat :=
  let br := 2 ^ t.brl
  let bc := 2 ^ t.bcl
  match t.lay with
  | 0 => tr * t.ntc + tc
  | 1 => tc * t.ntr + tr
  | _ => ((tr / br) * ceilDiv t.ntc bc + tc / bc) * br * bc + (tr % br) * bc + tc % bc

/-- Tiles of a 64 KiB frame. -/
def Tens.perFrame (t : Tens) : Nat := 65536 / t.fb

/-- Address of the tensor table entry of an id. -/
def tensPa (h : Hw) (pk img id : Nat) : Nat := secAddr h pk img secTensors + 32 * id

/-- A cached entry that is there. -/
def tabFind (l : List TabEnt) (img key : Nat) : Option TabEnt := l.find? (fun e => e.img == img && e.key == key && e.here)

/-- Put an entry first in a cache of n entries, unless it is there or its fetch is under way. -/
def tabPut (l : List TabEnt) (n : Nat) (e : TabEnt) : List TabEnt :=
  if l.any (fun x => x.img == e.img && x.key == e.key) then l else (e :: l).take n

/-- Make an entry the most recently used. -/
def tabTouch (l : List TabEnt) (img key : Nat) : List TabEnt :=
  l.filter (fun x => x.img == img && x.key == key) ++ l.filter (fun x => !(x.img == img && x.key == key))

/-- An entry that a form needs and the caches lack: a tensor id, or the address of a tile table entry. -/
inductive Need where
  | tens (id : Nat)
  | tab (pa : Nat)

/-- Does an access read a line for the tables of a core? -/
def readsTable (core line : Nat) (a : Access) : Bool :=
  match a.kind with
  | .table c _ => c == core && a.parts.any (fun p => lineOf p.pa == line)
  | _ => false

/-- Ask for a table entry through the home slice of its line (R124, R315, R428): nothing while it is there or under way; a line that is under way comes once. -/
def askTable (core : Nat) (img : Option Nat) (key pa : Nat) : Act := fun h =>
  let co := h.core core
  let known := match img with
    | some i => co.tens.any (fun e => e.img == i && e.key == key)
    | none => co.tabs.any (fun e => e.key == key)
  let put := modCore core (fun co => match img with
    | some i => { co with tens := tabPut co.tens 16 { img := i, key := key, here := false } }
    | none => { co with tabs := tabPut co.tabs 64 { img := 0, key := key, here := false } })
  if known then []
  else if !memOk h pa || !reachable h (pkgOfCore core) (pkgOfPa pa) then Act.all [put, tableFill core [(img, key, pa)] 0 [] true] h
  else match h.accs.find? (fun a => readsTable core (lineOf pa) a.2) with
    | some a => Act.all [put, modAcc a.1 (fun a => match a.kind with
        | .table c es => { a with kind := .table c (es ++ [(img, key, pa)]) }
        | _ => a)] h
    | none => Act.all [put, withId (fun id => Act.all [
        putAcc id { seat := resSeat, kind := .table core [(img, key, pa)], scPkg := pkgOfCore core,
                    parts := [{ va := 2 ^ 57 + pa, pa := 64 * lineOf pa, len := 64, st := 1 }] },
        sendTo (domCl core) (core % 8) (homeDom h pa) 8 10 none id (.slice {
          port := corePort core, arrived := 0, src := core, seat := false, acc := id, part := 0, line := lineOf pa })])] h

/-- Fetch what is missing. -/
def fetchNeeds (core img : Nat) (l : List Need) : Act := Act.each l (fun n => fun h =>
  match n with
  | .tens id => askTable core (some img) id (tensPa h (pkgOfCore core) img id) h
  | .tab pa => askTable core none pa pa h)

/-- What resolving an operand gives: entries still needed, causes, entries used. -/
structure Res where
  need : List Need := []
  causes : List Cause := []
  bad : List Nat := []
  used : List Need := []

def Res.join (a b : Res) : Res :=
  { need := a.need ++ b.need, causes := a.causes ++ b.causes, bad := a.bad ++ b.bad, used := a.used ++ b.used }

/-- The tensor that xXH names (R121, R428). -/
def tensRes (c : Ctx) (xh : XNum) : Res × Tens :=
  let id := xOp c xh % 2 ^ 20
  if secCount c.h (pkgOfCore c.core) c.s.img secTensors ≤ id then ({ causes := [mkCause 0xA0 id c.sl] }, {})
  else match tabFind c.co.tens c.s.img id with
    | none => ({ need := [.tens id] }, {})
    | some e =>
      if e.bad then ({ bad := [0xAC], used := [.tens id] }, { v := true })
      else
        let t := tensOf e.words
        ({ causes := if t.v then [] else [mkCause 0xA0 id c.sl], used := [.tens id] }, t)

/-- Pins of seat k on a layer whose LACQ has completed (R135): the stalled one admits nothing. -/
def donePins (h : Hw) (k key : Nat) : Nat :=
  let e := SMap.get {} (h.pkg (pkgOfCore (coreOf k))).layers key
  let n := ((e.pins.find? (fun q => q.1 == k)).map (fun q => q.2)).getD 0
  match (h.seat k).stalledPin with
  | some (m, l) => if 1024 * m + l = key then n - 1 else n
  | none => n

/-- The checks of R291 that the tensor entry decides: `cmp` the form's side, `store` a store. -/
def tensChecks (c : Ctx) (xh : XNum) (t : Tens) (cmp store : Bool) : List Cause :=
  let id := xOp c xh % 2 ^ 20
  (if t.cmp && !cmp then [mkCause 0xA5 id c.sl] else []) ++ (if !t.cmp && cmp then [mkCause 0xA6 id c.sl] else []) ++
  (if store && !t.wr then [mkCause 0xA7 id c.sl] else []) ++
  (if t.own && donePins c.h c.k t.key = 0 && !c.acq.contains t.key then [mkCause 0xA8 id c.sl] else []) ++
  (if t.lay = 3 ∨ 9 < t.fmt then
    [mkCause 0xAA (tensPa c.h (pkgOfCore c.core) c.s.img id) c.sl] else [])

/-- The coordinates of a form (R291). -/
def coordOf (c : Ctx) (xc : XNum) : Nat × Nat :=
  (imageNat 32 ((xOp c xc % 2 ^ 32 : Nat) + c.o2), imageNat 32 ((xOp c xc / 2 ^ 32 % 2 ^ 32 : Nat) + c.o3))

/-- The offsets of rows and columns keep 27 bits (R165, R166). -/
def rcCauses (c : Ctx) : List Cause := offCauses c 27 c.o2 ++ offCauses c 27 c.o3

def coordCauses (c : Ctx) (t : Tens) (tr tc : Nat) : List Cause :=
  if tr < t.ntr ∧ tc < t.ntc then [] else [mkCause 0xA1 (tr + tc * 2 ^ 32) c.sl]

/-- Is a frame address one of working HBM (R123)? -/
def frameOk (h : Hw) (pa : Nat) : Bool := memOk h pa && decide (pkgOfPa pa < h.glob.npkg)

/-- Frame F of a layer in the pool (R132); none when F ≥ SIZE. -/
def ownFrame (h : Hw) (pk key f : Nat) : Option Nat :=
  let p := h.pkg pk
  let e := SMap.get {} p.layers key
  if e.size ≤ f then none
  else some (p.poolBase + 2 ^ p.poolK * 65536 * (e.slots.getD (f / 2 ^ p.poolK) 0) + 65536 * (f % 2 ^ p.poolK))

/-- The address of frame f of an uncompressed tensor (R123, R132). -/
def frameRes (c : Ctx) (t : Tens) (f : Nat) : Res × Nat :=
  let ea := t.ttb + 8 * f
  match tabFind c.co.tabs 0 ea with
  | none => ({ need := [.tab ea] }, 0)
  | some e =>
    let w := (e.words.getD 0 0).toNat
    let fr := field w 51 16 * 2 ^ 16
    if e.bad then ({ bad := [0xAB], used := [.tab ea] }, 0)
    else if !bitOf w 0 then ({ causes := [mkCause 0xA3 ea c.sl] }, 0)
    else if w / 2 ^ 52 ≠ 0 ∨ field w 15 2 ≠ 0 ∨ (!t.own ∧ !frameOk c.h fr) then ({ causes := [mkCause 0xA4 ea c.sl] }, 0)
    else if t.own then match ownFrame c.h (pkgOfCore c.core) t.key (fr / 65536) with
      | none => ({ causes := [mkCause 0xA9 ea c.sl] }, 0)
      | some pa => ({ used := [.tab ea] }, pa)
    else ({ used := [.tab ea] }, fr)

/-- The address of tile n of an uncompressed tensor. -/
def tileRes (c : Ctx) (t : Tens) (n : Nat) : Res × Nat :=
  let r := frameRes c t (n / t.perFrame)
  (r.1, r.2 + n % t.perFrame * t.fb)

/-- The granules of a tile (R126). -/
def Tens.tileGranules (t : Tens) (n : Nat) : List Nat :=
  if 4096 ≤ t.fb then rangeFrom (n * (t.fb / 4096)) (t.fb / 4096) else [n / (4096 / t.fb)]

/-- Granules of a compressed tensor (R126). -/
def Tens.granules (t : Tens) : Nat :=
  let n := if t.lay < 2 then t.ntr * t.ntc else ceilDiv t.ntr (2 ^ t.brl) * 2 ^ t.brl * (ceilDiv t.ntc (2 ^ t.bcl) * 2 ^ t.bcl)
  ceilDiv (n * t.fb) 4096

/-- Every frame that a form needs. -/
def framesRes (c : Ctx) (t : Tens) (fs : List Nat) : Res := fs.foldl (fun r f => r.join (frameRes c t f).1) {}

/-- Keep the first occurrence of each number. -/
def uniq (l : List Nat) : List Nat := l.foldl (fun a x => if a.contains x then a else a ++ [x]) []

/-! ### What a form names, and what holds it (R280 to R285) -/

/-- What a copy form names: its causes, entries to fetch, items read and written, its landing (LAND, length, tags, whether it
books a tile-store interval), the neighbour buffer it fills (cluster, buffer, bytes), and the first 256-byte block that it reads. -/
structure CUse where
  res : Res := {}
  causes : List Cause := []
  rd : List Nat := []
  wr : List Nat := []
  acc : Option Nat := none
  land : Option (Nat × Nat × Nat × Bool) := none
  room : Option (Nat × Nat × Nat) := none
  blk : Nat := 0

def ctLand (f : FCT) : Nat := match f.ext with | none => 0 | some x => x.land.toNat
def cnLand (e : Option CNExt) : Nat := match e with | none => 0 | some x => x.land.toNat
def ctSteps (f : FCT) : Nat × Nat × Nat := match f.ext with | none => (0, 0, 0) | some x => (x.tstep.toNat, x.rstep.toNat, x.cstep.toNat)

/-- LAND and length of a landing of B bytes; more tags than LN is an operand fault (R281, R282). -/
def landUse (c : Ctx) (land b : Nat) : Nat × Nat × Nat × Bool := (landOf c.s.cpdef land, ceilDiv b 256, ceilDiv b 2048, true)
def tagCauses (c : Ctx) (tags : Nat) : List Cause :=
  if c.s.lrec.ln < tags then [operandFault c.sl 1 (c.s.lrec.ln % 2 ^ 10 + Kind.tags.code * 2 ^ 12)] else []

/-- The register after xXC (R284). -/
def pairCauses (c : Ctx) (xc : XNum) : List Cause :=
  let n := xc.toNat + 1
  if 31 < n ∨ c.s.lrec.xn ≤ n then [operandFault c.sl 0 n] else []
def pairOp (c : Ctx) (xc : XNum) : Nat := (c.s.xr (xc.toNat + 1)).toNat

/-- Placement of an image (R291). -/
def placeCauses (c : Ctx) (sgo fb : Nat) : List Cause :=
  if (4096 ≤ fb ∧ sgo ≠ 0) ∨ (fb < 4096 ∧ 4096 < 512 * sgo + fb) then [operandFault c.sl 2 sgo] else []

/-- TLD, TLDM without DEC, TST: one whole tile; the address of the tile. -/
def useTile (c : Ctx) (f : FCT) (store : Bool) : CUse × Tens × Nat :=
  let base := xLim c [f.xh, f.xc] ++ rcCauses c
  let tr := tensRes c f.xh
  let t := tr.2
  let co := coordOf c f.xc
  let sgo := f.md.toNat % 8
  if !base.isEmpty ∨ !tr.1.causes.isEmpty ∨ !tr.1.need.isEmpty ∨ !tr.1.bad.isEmpty then ({ res := tr.1, causes := base }, t, 0)
  else
    let n := fmtGrans t.fmt
    let cs := coordCauses c t co.1 co.2 ++ tensChecks c f.xh t false store
    let more := tileCauses c f.t n ++ placeCauses c sgo t.fb ++ (if store then [] else tagCauses c (ceilDiv t.fb 2048))
    let items := (tileGrans c f.t n).map itGran
    let fr := if cs.isEmpty then tileRes c t (t.tileNo co.1 co.2) else ({}, 0)
    ({ res := tr.1.join fr.1, causes := base ++ cs ++ more, rd := if store then items else [], wr := if store then [] else items,
       land := if store then none else some (landUse c (ctLand f) t.fb) }, t, fr.2)

/-- TLDD and TLDM with DEC: the granules of a tile, as addresses of their entries. -/
def useDec (c : Ctx) (f : FCT) : CUse × Tens × List Nat :=
  let base := xLim c [f.xh, f.xc] ++ rcCauses c
  let tr := tensRes c f.xh
  let t := tr.2
  let co := coordOf c f.xc
  if !base.isEmpty ∨ !tr.1.causes.isEmpty ∨ !tr.1.need.isEmpty ∨ !tr.1.bad.isEmpty then ({ res := tr.1, causes := base }, t, [])
  else
    let us := t.tileGranules (t.tileNo co.1 co.2)
    let cs := coordCauses c t co.1 co.2 ++ tensChecks c f.xh t true false
    let ents := us.map (fun u => t.ttb + 8 * u)
    ({ res := tr.1.join { used := (ents.filter (fun e => (tabFind c.co.tabs 0 e).isSome)).map .tab },
       causes := base ++ cs ++ tileCauses c f.t us.length ++ tagCauses c (2 * us.length),
       wr := (tileGrans c f.t us.length).map itGran, land := some (landUse c (ctLand f) (4096 * us.length)) }, t, ents)

/-- An index list (R289): its entries and the granule. -/
def idxGran (c : Ctx) (xc : XNum) : Nat := pairOp c xc % 256
def idxList (c : Ctx) (xc : XNum) (n : Nat) : List Nat :=
  let w := pairOp c xc
  let a := 512 * phys c .gran (w % 256) + 32 * (w / 256 % 16)
  (List.range n).map (fun i => (SMap.get 0 c.co.tile (a + i / 2)).toNat / 2 ^ (32 * (i % 2)) % 2 ^ 32)

/-- The first entry beyond the tensor's rows (R294, R428). -/
def gatherCauses (c : Ctx) (t : Tens) (l : List Nat) : List Cause :=
  match l.zipIdx.find? (fun e => decide (e.1 < 2 ^ 31) && decide (64 * t.ntr ≤ e.1)) with
  | none => []
  | some e => [mkCause 0xA2 (e.1 + e.2 * 2 ^ 32) c.sl]

/-- The tile numbers that a list names. -/
def listTiles (t : Tens) (tc : Nat) (l : List Nat) : List Nat :=
  uniq ((l.filter (fun e => decide (e < 2 ^ 31))).map (fun e => t.tileNo (e / 64) tc))

/-- TLDG and TSTS: rows of a tile column; the list and the tile column. -/
def useRows (c : Ctx) (f : FCT) (store : Bool) : CUse × Tens × List Nat × Nat :=
  let base := xLim c [f.xh, f.xc] ++ pairCauses c f.xc ++ rcCauses c
  let tr := tensRes c f.xh
  let t := tr.2
  let tc := imageNat 32 ((xOp c f.xc / 2 ^ 32 % 2 ^ 32 : Nat) + c.o3)
  if !base.isEmpty ∨ !tr.1.causes.isEmpty ∨ !tr.1.need.isEmpty ∨ !tr.1.bad.isEmpty then ({ res := tr.1, causes := base }, t, [], tc)
  else
    let n := fmtGrans t.fmt
    let ig := granCauses c (idxGran c f.xc : Nat) 1
    let l := if ig.isEmpty then idxList c f.xc (f.md.toNat + 1) else []
    let cs := (if tc < t.ntc then [] else [mkCause 0xA1 (xOp c f.xc % 2 ^ 32 + tc * 2 ^ 32) c.sl]) ++
      gatherCauses c t l ++ tensChecks c f.xh t false store
    let more := ig ++ tileCauses c f.t n ++ (if store then [] else tagCauses c (ceilDiv t.fb 2048))
    let items := (tileGrans c f.t n).map itGran
    let i := [itGran (phys c .gran (idxGran c f.xc))]
    let fr := if cs.isEmpty then framesRes c t (uniq ((listTiles t tc l).map (· / t.perFrame))) else {}
    ({ res := tr.1.join fr, causes := base ++ cs ++ more, rd := if store then i ++ items else i, wr := if store then [] else items,
       blk := if store then 0 else pairOp c f.xc / 256 % 16, land := if store then none else some (landUse c (ctLand f) t.fb) }, t, l, tc)

/-- The stores' dirty region also needs its frames' entries only to mark them; TST's own tile decides the causes. -/
def useTst (c : Ctx) (f : FCT) : CUse × Tens × Nat :=
  let u := useTile c f true
  ({ u.1 with causes := u.1.causes ++ pairCauses c f.xc }, u.2)

/-- TCPY (R297). -/
def useTcpy (c : Ctx) (f : FCT) : CUse :=
  let n := f.md.toNat % 8 + 1
  { causes := xLim c [f.xh] ++ tileCauses c f.t n, rd := (tileGrans c f.t n).map itGran }

/-- RACC (R298). -/
def useRacc (c : Ctx) (f : FCT) : CUse :=
  let a := f.t.toNat % 8
  { causes := xLim c [f.xh] ++ winCauses c .acc (a : Int) 1, rd := [itAcc (phys c .acc a)] }

/-- TPF (R296): what would fault does nothing. -/
def useTpf (c : Ctx) (f : FCT) : CUse :=
  let tr := tensRes c f.xh
  let t := tr.2
  let co := coordOf c f.xc
  if !tr.1.causes.isEmpty ∨ !tr.1.need.isEmpty ∨ !tr.1.bad.isEmpty then
    { res := { tr.1 with causes := [], bad := [] }, causes := xLim c [f.xh, f.xc] ++ rcCauses c }
  else
    let ok := (coordCauses c t co.1 co.2 ++ tensChecks c f.xh t t.cmp false).isEmpty
    let n := t.tileNo co.1 co.2
    let need := if !ok then [] else if t.cmp then
        ((t.tileGranules n).map (fun u => t.ttb + 8 * u)).filter (fun e => (tabFind c.co.tabs 0 e).isNone) |>.map .tab
      else (tileRes c t n).1.need
    { res := { need := need, used := tr.1.used }, causes := xLim c [f.xh, f.xc] ++ rcCauses c }

/-- The working systolic neighbour of a domain cluster in a direction (R299, R336). -/
def nbrWorks (h : Hw) (cl dir : Nat) : Option Nat :=
  match nbrCl (cl % 144) dir with
  | none => none
  | some n =>
    let p := h.pkg (cl / 144)
    if rtrWorks p n && rtrWorks p (cl % 144) && !p.nbrOff.contains (cl % 144, dir) then some (144 * (cl / 144) + n) else none

/-- The opposite direction. -/
def oppDir (d : Nat) : Nat := match d with | 0 => 1 | 1 => 0 | 2 => 3 | _ => 2

/-- The number of a receive buffer: seat and direction. -/
def nbufKey (seat dir : Nat) : Nat := 4 * seat + dir

/-- Bytes that a buffer of a cluster holds or has promised. -/
def nbufUsed (cl : Cluster) (key : Nat) : Nat :=
  (cl.nbuf.filter (fun m => nbufKey (seatKey m.core m.seat) m.dir == key)).foldl (fun n m => n + 256 * m.rows.length) 0 +
  (cl.nres.filter (fun r => r.1 == key)).foldl (fun n r => n + r.2.2) 0

/-- The seat key that NSEND's xa names in a domain cluster. -/
def nsendSeat (cl xa : Nat) : Nat := seatKey (1152 * (cl / 144) + 8 * (cl % 144) + xa % 8) (xa / 8 % 2 == 1)

/-- The rows of a window. -/
def Shp.rowList (s : Shp) : List Nat := (List.range s.m).map s.row

/-- NSEND (R299). -/
def useNsend (c : Ctx) (f : FCN) : CUse :=
  let s := shpArg c f.shp
  let me := domCl c.core
  { causes := xLim c [f.a] ++ tileCauses c f.t 4 ++ shpCauses c f.shp s.m 1 16384 ++
      (if (nbrWorks c.h me f.dir.toNat).isNone then [mkCause 0x15D 0 c.sl] else []),
    blk := s.row 0, rd := (rowGrans (tilePhys c f.t) s.rowList).map itGran,
    room := (nbrWorks c.h me f.dir.toNat).map (fun n => (n, nbufKey (nsendSeat n (xOp c f.a)) (oppDir f.dir.toNat), 256 * s.m)) }

/-- The oldest message of a seat's buffer that an NRECV may take. -/
def nbrPick (l : List NbrMsg) (k dir : Nat) (tag : Option Nat) : Option NbrMsg :=
  l.find? (fun m => seatKey m.core m.seat == k && m.dir == dir && (match tag with | none => true | some t => m.tag == t))

def nrecvTag (c : Ctx) (f : FCN) : Option Nat := if f.any then none else some c.s.tag

/-- NRECV (R299). -/
def useNrecv (c : Ctx) (f : FCN) : CUse :=
  let s := shpArg c f.shp
  let me := domCl c.core
  { causes := tileCauses c f.t 4 ++ shpCauses c f.shp s.m 1 16384 ++ tagCauses c (ceilDiv (256 * s.m) 2048) ++
      (if (nbrWorks c.h me f.dir.toNat).isNone then [mkCause 0x15D 0 c.sl] else
        match nbrPick (c.h.cluster me).nbuf c.k f.dir.toNat (nrecvTag c f) with
        | some m => if m.rows.length = s.m then [] else [mkCause 0x15D 0 c.sl]
        | none => []),
    wr := (rowGrans (tilePhys c f.t) s.rowList).map itGran, land := some (landUse c (cnLand f.ext) (256 * s.m)) }

/-- The carry slot of C.Y (R307), and its first row. -/
def cySlot (c : Ctx) (f : FCY) : Int := ((f.t.toNat % 8 : Nat) : Int) + c.o1
def cyCauses (c : Ctx) (f : FCY) : List Cause :=
  xLim c [f.a] ++ winCauses c .ht (f.h.toNat : Int) 1 ++ offCauses c 10 c.o1 ++
  (if 0 ≤ cySlot c f ∧ cySlot c f < 8 then [] else [operandFault c.sl 1 (imageNat 10 (cySlot c f) + 4 * 2 ^ 12)])
def cyRow (c : Ctx) (f : FCY) : Nat := 2 * (cySlot c f).toNat

/-- Does a CYSND of this core leave through the external carry output? -/
def cyExt (c : Ctx) (f : FCY) : Bool := domDie c.core % 4 == 3 && bitOf (xOp c f.a) 26

/-- CYSND (R307, R459). -/
def useCysnd (c : Ctx) (f : FCY) : CUse :=
  { causes := cyCauses c f ++ (if 36 ≤ xOp c f.a % 64 then [operandFault c.sl 2 (xOp c f.a)] else []) ++
      (if cyExt c f && (c.h.pkg (pkgOfCore c.core)).chain.isNone then [mkCause 0x196 0 c.sl] else []),
    rd := [itHt (htPhys c f.h.toNat)] }

/-- CYRCV (R308). -/
def useCyrcv (c : Ctx) (f : FCY) : CUse :=
  { causes := cyCauses c f ++ tagCauses c 1, wr := [itHt (htPhys c f.h.toNat)],
    land := some (landOf c.s.cpdef (cnLand f.ext), 1, 1, false) }

/-- What a copy form names. -/
def cUse (c : Ctx) (i : Instr) : CUse :=
  match i with
  | .tld f => (useTile c f false).1
  | .tldm f => if bitOf f.md.toNat 3 then { (useDec c f).1 with causes := (useDec c f).1.causes ++ pairCauses c f.xc }
               else { (useTile c f false).1 with causes := (useTile c f false).1.causes ++ pairCauses c f.xc }
  | .tldd f => (useDec c f).1
  | .tldg f => (useRows c f false).1
  | .tst f => (useTst c f).1
  | .tsts f => (useRows c f true).1
  | .tcpy f => useTcpy c f
  | .racc f => useRacc c f
  | .tpf f => useTpf c f
  | .nsend f => useNsend c f
  | .nrecv f => useNrecv c f
  | .cysnd f => useCysnd c f
  | .cyrcv f => useCyrcv c f
  | _ => {}

/-- The landing that a form would book at core time t; `acc` its access. -/
def CUse.landing (u : CUse) (c : Ctx) (acc : Nat) : List Landing :=
  match u.land with
  | none => []
  | some (land, len, tags, book) => [{ acc := acc, seat := isSeat1 c.k, due := c.t + land, len := len, tags := tags, book := book }]

/-- Does an interval overlap a booked one (R281)? -/
def overlaps (l : List Landing) (due len : Nat) : Bool :=
  l.any (fun x => x.book && !x.held && decide (x.due < due + len) && decide (due < x.due + x.len))

/-- Landing tags of a seat in use. -/
def tagsUsed (l : List Landing) (s1 : Bool) : Nat := (l.filter (fun x => x.seat == s1)).foldl (fun n x => n + x.tags) 0

/-- May a form write an item: a landing does not wait for an earlier landing on the same granule, from which its interval is
apart (R246, R281, R469). -/
def landOk (c : Ctx) (u : CUse) (i : Nat) : Bool := if u.land.isSome && decide (i < 256) then canWrite c.co i c.t else wrOk c i

/-- What the earlier operations of a repetition take, though the state does not show it yet: landings, flat vector loads, bytes of neighbour
buffers by cluster and buffer. -/
structure Extra where
  lands : List Landing := []
  vloads : Nat := 0
  rooms : List (Nat × Nat × Nat) := []

/-- What holds a copy form, `extra` counting what the bundle's earlier copy form takes. (DEDUCED, log 19) -/
def cHold (c : Ctx) (i : Instr) (extra : Extra) : Option Nat :=
  let u := cUse c i
  let p := pCopy (if c.sl = .c1 then 1 else 0)
  let ls := c.co.landings ++ extra.lands
  if !u.causes.isEmpty || !u.res.causes.isEmpty then none
  else if !u.res.need.isEmpty then some p
  else if u.rd.any (fun i => !rdOk c i) || u.wr.any (fun i => !landOk c u i) then some 9
  else
    let landHold := (match u.land with
      | none => false
      | some (land, len, tags, book) => (book && overlaps ls (c.t + land) len) ||
          decide (c.s.lrec.ln < tagsUsed ls (isSeat1 c.k) + tags))
    let roomHold := (match u.room with
      | none => false
      | some (cl, key, n) => decide (32768 < nbufUsed (c.h.cluster cl) key + n +
          (extra.rooms.filter (fun r => r.1 == cl && r.2.1 == key)).foldl (fun t r => t + r.2.2) 0))
    if landHold || roomHold then some p else none

/-- What the copy engine fetches for a held form. -/
def cFetch (c : Ctx) (i : Instr) : Act := fetchNeeds c.core c.s.img (cUse c i).res.need

/-! ### Starting a transfer -/

/-- The entries that a form used become the most recently used. -/
def touchUsed (c : Ctx) (r : Res) : Act := modCore c.core (fun co => r.used.foldl (fun co n =>
  match n with
  | .tens id => { co with tens := tabTouch co.tens c.s.img id }
  | .tab pa => { co with tabs := tabTouch co.tabs 0 pa }) co)

/-- A read error of a table, found after acceptance (R429): poisoned data at the landing cycle; a store is charged at the
next repetition. (DEDUCED, log 16) -/
def badCauses (c : Ctx) (u : CUse) : Act :=
  match u.res.bad with
  | [] => Act.nil
  | b :: r => modSeat c.k (fun s => { s with pendCause := s.pendCause ++
      [{ code := r.foldl min b, tval := 0, slots := 0, due := c.t + (match u.land with | none => 0 | some x => landOf c.s.cpdef x.1) }] })

/-- The bank requests of a copy form's source reads (R283, R313): `n` ck from c+1 on, or the index list of a load in c; the access that
it starts, number `id`, sends later what it reads later. -/
def copyBanks (c : Ctx) (u : CUse) (n id : Nat) : Act := Act.when (u.rd.any (fun i => decide (i < 256))) (useBanks c.core {
  cls := 5, sub := if c.sl = .c1 then 1 else 0, seat := isSeat1 c.k, next := c.t + (if n = 0 then 0 else 1), left := max 1 n,
  masks := blocksFrom u.blk, rd := marks (c.t + n + 1) u.rd, acc := if n = 0 then none else some id })

/-- A form with its checks, warnings and busy source reads: `n` the ck of its source reads (R283). -/
def copyForm (c : Ctx) (u : CUse) (reads : List XNum) (warn : BitVec 8) (n : Nat) (a : Act) : Out :=
  Out.check (u.causes ++ u.res.causes)
    { act := Act.all [warnBits c warn, touchUsed c u.res, badCauses c u,
        Act.look (fun h => Act.all [copyBanks c u n h.glob.nextId, Act.when u.res.bad.isEmpty a]), markRd c.core (c.t + n + 1) u.rd],
      reads := xReads reads }

/-- WARN of ignored steps and LAND (R284): which steps the form has, and whether it lands. -/
def ctWarn (f : FCT) (t r cl land : Bool) : BitVec 8 :=
  let s := ctSteps f
  warnIf (!land && ctLand f != 0) wMisc |||
  warnIf ((!t && s.1 != 0) || (!r && s.2.1 != 0) || (!cl && s.2.2 != 0)) wStepign

/-- Copy requests carry addresses above every flat one, so that no flat access is held behind them. -/
def copyVa (pa : Nat) : Nat := 2 ^ 57 + pa

/-- The line parts of n bytes at a physical address. -/
def tileParts (pa n off : Nat) (ms : Bool) : List Part :=
  (List.range (ceilDiv n 64)).map (fun i =>
    { va := copyVa (pa + 64 * i), pa := pa + 64 * i, off := off + 64 * i, len := min 64 (n - 64 * i), st := 7, ms := ms })

/-- Put an access and send its parts, those of a store as their bytes are read from c+1 on (R283); `key` the layer it counts in (R135). -/
def startCopy (c : Ctx) (id : Nat) (a : Access) (key : Option Nat) : Act := Act.all [
  putAcc id { a with layer := key, counted := key.isSome },
  (match key with
    | none => Act.nil
    | some l => modPkg (pkgOfCore c.core) (fun p =>
        let e := SMap.get {} p.layers l
        { p with layers := SMap.insert p.layers l { e with inflight := e.inflight + 1 } })),
  (match a.kind with
    | .tstore => Act.each a.parts.zipIdx (fun p => after (1 + p.1.off / 256) (.lateDataArrival id p.2))
    | _ => Act.each (List.range a.parts.length) (fun i => sendPart id i)),
  layerDone id, reap id]

/-- The layer of an owned tensor. -/
def Tens.ownKey (t : Tens) : Option Nat := if t.own then some t.key else none

/-- Book the landing of a form. -/
def bookLanding (c : Ctx) (u : CUse) (id : Nat) : Act := modCore c.core (fun co => { co with landings := co.landings ++ u.landing c id })

/-- A granule name after a step, out of every window when negative. -/
def dtStep (dt : Nat) (o : Int) : Nat := if (dt : Int) + o < 0 then 1024 else ((dt : Int) + o).toNat

/-- A carried flag operation (R287): adds 1 or writes 1. -/
def carried (on : Bool) (flag : Nat) (set : Bool) : Option (Nat × FlagAct) :=
  if on then some (flag, if set then .set 1 else .add 1) else none

/-- The multicast word (R288). -/
def mcWord (c : Ctx) (f : FCT) : McWord :=
  let w := pairOp c f.xc
  let cl := domCl c.core
  { cores := ((List.range 8).map (fun i => 1152 * (cl / 144) + 8 * (cl % 144) + i)).filter
      (fun n => n != c.core && bitOf w (n % 8)),
    dt := dtStep (field w 16 9) c.o1, dseat := bitOf w 8, flag := carried (bitOf w 17) (field w 26 18) (bitOf w 27) }

/-- The access of a tile load. -/
def loadAcc (c : Ctx) (kind : AccKind) (parts : List Part) (left : Nat) : Access :=
  { seat := c.k, kind := kind, cls := 2, bypass := true, parts := parts, left := left,
    scCluster := some (domCl c.core), scStack := some (12 * pkgOfCore c.core + stackOfCl (clOfCore c.core)), scPkg := pkgOfCore c.core }

/-! ### Tile loads and stores (R290 to R296) -/

/-- TLD, and TLDM without DEC. -/
def tldOut (c : Ctx) (f : FCT) (mc : Option McWord) (more : List Cause) (reads : List XNum) : Out :=
  let r := useTile c f false
  let u := { r.1 with causes := r.1.causes ++ more }
  let t := r.2.1
  copyForm c u reads 0 0 (withId (fun id => Act.all [
    bookLanding c u id,
    startCopy c id (loadAcc c (.tload (tilePhys c f.t) (f.md.toNat % 8) t.fb [] mc) (tileParts r.2.2 t.fb 0 t.msf)
      ((mc.map (fun m => m.cores.length)).getD 0)) t.ownKey]))

/-- The block of a granule entry as the core has it (R126, R429, R430): its address, or the cause when the entry's read failed or V = 0. -/
def granBlock (co : Core) (h : Hw) (ea : Nat) : Except Nat Nat :=
  let e := (tabFind co.tabs 0 ea).getD { img := 0, key := ea, words := [read64 h ea] }
  let w := (e.words.getD 0 0).toNat
  let pa := field w 51 6 * 64
  if e.bad then .error 0xAB else if !bitOf w 0 then .error 0xB9 else if memOk h pa then .ok pa else .error 0xBA

/-- The same of an entry that the caches hold; none when it has still to be fetched. -/
def granAt (co : Core) (h : Hw) (ea : Nat) : Option (Except Nat Nat) :=
  if (tabFind co.tabs 0 ea).isSome then some (granBlock co h ea) else none

/-- A granule that fails for want of its block: its cause and TVAL (R431). -/
def granFail (q code : Nat) : Nat × Nat × W64 := (q, code, BitVec.ofNat 64 (if code = 0xB9 then q % 16 * 2 ^ 60 else 0))


/-- The header line of granule q of a decode at a block address. -/
def hdrPart (q pa : Nat) : Part := { va := copyVa pa, pa := pa, off := 65536 * q, len := 64, st := 7 }

/-- TLDD, and TLDM with DEC: the headers are fetched first, behind the entries that the caches lack, which hold no form back (R428); a granule without an entry fails at
its landing (R430). -/
def tlddOut (c : Ctx) (f : FCT) (mc : Option McWord) (more : List Cause) (reads : List XNum) : Out :=
  let r := useDec c f
  let u := { r.1 with causes := r.1.causes ++ more }
  let t := r.2.1
  let blocks := (r.2.2.map (granAt c.co c.h)).zipIdx
  let parts := blocks.filterMap (fun b => match b.1 with | some (.ok pa) => some (hdrPart b.2 pa) | _ => none)
  copyForm c u reads 0 0 (withId (fun id => Act.all [
    bookLanding c u id,
    startCopy c id { loadAcc c (.tdec (tilePhys c f.t) r.2.2 t.ctb mc) parts ((mc.map (fun m => m.cores.length)).getD 0) with
      rep := 8 * t.granules, gst := blocks.map (fun b => match b.1 with | some (.error _) => 4 | _ => 0),
      gfail := blocks.filterMap (fun b => match b.1 with | some (.error code) => some (granFail b.2 code) | _ => none) } t.ownKey,
    fetchNeeds c.core 0 ((r.2.2.filter (fun e => (granAt c.co c.h e).isNone)).map .tab)]))

/-- CNOP (R301). -/
def execCnop (s : State) : Host.Outcome State Fault Refusal := slotOp .cnop s (fun _ => Out.ok Act.nil)

/-- TLD (R292). -/
def execTld (f : FCT) (s : State) : Host.Outcome State Fault Refusal :=
  slotOp (.tld f) s (fun c => tldOut c f none [] [f.xh, f.xc])

/-- TLDM (R293). -/
def execTldm (f : FCT) (s : State) : Host.Outcome State Fault Refusal :=
  slotOp (.tldm f) s (fun c =>
    let rs := [f.xh, f.xc, f.xc + 1]
    if bitOf f.md.toNat 3 then tlddOut c f (some (mcWord c f)) (pairCauses c f.xc) rs
    else tldOut c f (some (mcWord c f)) (pairCauses c f.xc) rs)

/-- TLDD (R292). -/
def execTldd (f : FCT) (s : State) : Host.Outcome State Fault Refusal :=
  slotOp (.tldd f) s (fun c => tlddOut c f none [] [f.xh, f.xc])

/-- The parts of a gather or scatter: row words of the planes, from or to the rows that a list names. -/
def rowParts (c : Ctx) (t : Tens) (l : List Nat) (tc : Nat) (src : Option (Nat → Nat → W64)) : List Part :=
  (List.range (fmtPlanes t.fmt)).flatMap (fun p => l.zipIdx.filterMap (fun e =>
    if 2 ^ 31 ≤ e.1 then none else
    let pa := (tileRes c t (t.tileNo (e.1 / 64) tc)).2 + 512 * p + 8 * (e.1 % 64)
    some { va := copyVa pa, pa := pa, off := 512 * p + 8 * e.2, len := 8, st := 7, ms := t.msf,
           wdata := match src with | none => [] | some w => writeNat 0 8 (w p e.2).toNat }))

/-- TLDG (R294). -/
def execTldg (f : FCT) (s : State) : Host.Outcome State Fault Refusal :=
  slotOp (.tldg f) s (fun c =>
    let r := useRows c f false
    let t := r.2.1
    let l := r.2.2.1
    let zeros := (List.range (fmtPlanes t.fmt)).flatMap (fun p => (l.zipIdx.filter (fun e => decide (2 ^ 31 ≤ e.1))).map (fun e => 64 * p + e.2))
    copyForm c r.1 [f.xh, f.xc, f.xc + 1] (ctWarn f true false true true) 0 (withId (fun id => Act.all [
      bookLanding c r.1 id,
      startCopy c id (loadAcc c (.tload (tilePhys c f.t) 0 t.fb zeros none) (rowParts c t l r.2.2.2 none) 0) t.ownKey])))

/-- The entries of the frames of a declared region are marked dirty in one burst (R125, R295): in memory, in the cached
copies, and for an owned tensor at its layer. A burst that meets an unreadable line does nothing and answers false. -/
def dirtyBurst (c : Ctx) (t : Tens) (tiles : List Nat) (go : Act) : Act := fun h =>
  let ents := (uniq (tiles.map (· / t.perFrame))).map (fun f => t.ttb + 8 * f)
  if ents.any (fun e => h.glob.poison.contains (lineOf e) || paFenced h e) then
    modSeat c.k (fun s => { s with pendCause := s.pendCause ++ [{ code := 0xAF, tval := 0, slots := 0, due := c.t }] }) h
  else Act.all [
    writeMem (ents.map (fun e => (e, BitVec.ofNat 8 ((Memory.read h.mem e).toNat ||| 2)))),
    modCore c.core (fun co => { co with tabs := co.tabs.map (fun e =>
      if ents.contains e.key then { e with words := e.words.map (· ||| 2) } else e) }),
    Act.when t.own (modPkg (pkgOfCore c.core) (fun p =>
      let e := SMap.get {} p.layers t.key
      let new := ents.map (fun a => (field (read64 h a).toNat 51 16, a))
      { p with layers := SMap.insert p.layers t.key { e with dirty := e.dirty ++ new.filter (fun x => !e.dirty.contains x) } })),
    go] h

/-- The tiles of TST's declared region, clipped to the tensor (R289, R295). -/
def regionTiles (c : Ctx) (f : FCT) (t : Tens) : List Nat :=
  let w := pairOp c f.xc
  let co := coordOf c f.xc
  let rh := max 1 (w % 2 ^ 16)
  let rw := max 1 (w / 2 ^ 16 % 2 ^ 16)
  (rangeFrom co.1 (min rh (t.ntr - co.1))).flatMap (fun r => (rangeFrom co.2 (min rw (t.ntc - co.2))).map (fun k => t.tileNo r k))

/-- A store's access. -/
def storeAcc (c : Ctx) (parts : List Part) : Access :=
  { seat := c.k, kind := .tstore, cls := 3, parts := parts, scPkg := pkgOfCore c.core }

/-- TST (R295). -/
def execTst (f : FCT) (s : State) : Host.Outcome State Fault Refusal :=
  slotOp (.tst f) s (fun c =>
    let r := useTst c f
    let t := r.2.1
    let w0 := 512 * tilePhys c f.t + 64 * (f.md.toNat % 8)
    let parts := (tileParts r.2.2 t.fb 0 t.msf).map (fun p => { p with
      wdata := (List.range 8).flatMap (fun i => writeNat (8 * i) 8 (SMap.get 0 c.co.tile (w0 + p.off / 8 + i)).toNat) })
    copyForm c r.1 [f.xh, f.xc, f.xc + 1] (ctWarn f true true true false) (ceilDiv t.fb 256)
      (dirtyBurst c t (t.tileNo (coordOf c f.xc).1 (coordOf c f.xc).2 :: regionTiles c f t)
        (withId (fun id => startCopy c id (storeAcc c parts) t.ownKey))))

/-- TSTS (R295). -/
def execTsts (f : FCT) (s : State) : Host.Outcome State Fault Refusal :=
  slotOp (.tsts f) s (fun c =>
    let r := useRows c f true
    let t := r.2.1
    let l := r.2.2.1
    let w0 := 512 * tilePhys c f.t
    let parts := rowParts c t l r.2.2.2 (some (fun p i => SMap.get 0 c.co.tile (w0 + 64 * p + i)))
    copyForm c r.1 [f.xh, f.xc, f.xc + 1] (ctWarn f true false true false) (ceilDiv t.fb 256)
      (dirtyBurst c t (listTiles t r.2.2.2 l) (withId (fun id => startCopy c id (storeAcc c parts) t.ownKey))))

/-- The lines of a compressed block (R127): header and payload. -/
def blockLines (h : Hw) (pa : Nat) : Nat := ceilDiv (16 + field (readNat h pa 16) 76 64) 64

/-- TPF (R296): lines of this package that are not memory-side; a form that would fault does nothing. -/
def execTpf (f : FCT) (s : State) : Host.Outcome State Fault Refusal :=
  slotOp (.tpf f) s (fun c =>
    let u := useTpf c f
    let tr := tensRes c f.xh
    let t := tr.2
    let co := coordOf c f.xc
    let n := t.tileNo co.1 co.2
    let ok := tr.1.causes.isEmpty && tr.1.bad.isEmpty && (coordCauses c t co.1 co.2 ++ tensChecks c f.xh t t.cmp false).isEmpty
    let lines := if !ok then [] else if t.cmp then
        (t.tileGranules n).flatMap (fun g => match granBlock c.co c.h (t.ttb + 8 * g) with
          | .error _ => []
          | .ok pa => tileParts pa (64 * blockLines c.h pa) 0 false)
      else
        let r := tileRes c t n
        if r.1.causes.isEmpty && r.1.bad.isEmpty && !t.msf then tileParts r.2 t.fb 0 false else []
    let mine := lines.filter (fun p => p.pa / 2 ^ 46 == pkgOfCore c.core)
    copyForm c u [f.xh, f.xc] (ctWarn f false true true false) 0 (Act.when (!mine.isEmpty)
      (withId (fun id => startCopy c id
        { seat := c.k, kind := .prefetch, cls := 2, bypass := true, parts := mine, scPkg := pkgOfCore c.core } none))))

/-! ### Core to core (R297, R298) -/

/-- Is a number a core of the domain that works (R407)? -/
def coreExists (h : Hw) (n : Nat) : Bool :=
  decide (n < sysBase) && decide (pkgOfCore n < h.glob.npkg) && coreWorks (h.pkg (pkgOfCore n)) (n % 1152)

/-- A delivery of an access is refused: DRAIN bit REFUSED (R407, R437). (DEDUCED, log 22) -/
def refuseAcc (id : Nat) : Act := Act.all [modAcc id (fun a => { a with fail := a.fail ||| (2 ^ bitRefused), nfail := a.nfail + 1 }), oneLess id]

/-- Is there a working cluster in which a core of that number would stand? -/
def clusterThere (h : Hw) (n : Nat) : Bool :=
  decide (pkgOfCore n < h.glob.npkg) && rtrWorks (h.pkg (pkgOfCore n)) (clOfCore n)

/-- Send a transfer of some bytes to a core, read at 256 bytes a ck from c+1 on (R283). The receiving core decides on it when it arrives
(R407); where no working cluster would take it in, 0x03C is decided here. An unreachable package loses it. (DEDUCED, log 22) -/
def sendCore (c : Ctx) (kind : AccKind) (dcore bytes : Nat) (ev : Nat → Event) : Act := withId (fun id => fun h =>
  Act.all [
    putAcc id { seat := c.k, kind := kind, left := 1, scCluster := some (domCl dcore),
                scStack := some (12 * pkgOfCore dcore + stackOfCl (clOfCore dcore)), scPkg := pkgOfCore dcore },
    if decide (pkgOfCore dcore < h.glob.npkg) && !clusterThere h dcore then Act.all [
      record (domDie c.core) { code := 0x3C, tval := BitVec.ofNat 64 c.core, unit := dcore }, refuseAcc id]
    else if !reachable h (pkgOfCore c.core) (pkgOfCore dcore) then
      Act.all [record (domDie c.core) { code := 0x156, unitk := 8, unit := pkgOfCore dcore }, loseAccess id bitLink]
    else sendMsg (domCl c.core) (c.core % 8) (domCl dcore) (dcore % 8) 1 id bytes 1 2 none (.event (ev id))] h)

/-- TCPY (R297). -/
def execTcpy (f : FCT) (s : State) : Host.Outcome State Fault Refusal :=
  slotOp (.tcpy f) s (fun c =>
    let u := useTcpy c f
    let n := f.md.toNat % 8 + 1
    let w := xOp c f.xh
    let g := tilePhys c f.t
    let words := (List.range (512 * n)).map (fun i => (8 * i, SMap.get 0 c.co.tile (512 * g + i)))
    let side := (List.range n).map (fun i => (i, SMap.get 0 c.co.side (g + i)))
    copyForm c u [f.xh] (ctWarn f true false false false) (16 * n)
      (sendCore c .copy (w % 2 ^ 17) (4096 * n) (fun id => .inboundRemoteWrite {
        src := c.core, acc := id, core := w % 2 ^ 17, seat := bitOf w 17, granule := dtStep (field w 25 18) c.o1, grans := n,
        bytes := 4096 * n, words := words, side := side, fillSide := false,
        flag := carried (bitOf w 26) (field w 35 27) (bitOf w 36) })))

/-- RACC (R298): a residue mismatch sends nothing (R413). -/
def execRacc (f : FCT) (s : State) : Host.Outcome State Fault Refusal :=
  slotOp (.racc f) s (fun c =>
    let u := useRacc c f
    let w := xOp c f.xh
    let a := phys c .acc (f.t.toNat % 8)
    let key := w % 2 ^ 18 * 8 + field w 20 18
    let seq := SMap.get 0 c.s.raccSeq key
    copyForm c u [f.xh] (ctWarn f false false false false) 127
      (if c.co.accBad a 64 then abortNote c.k (mkCause (0x40 + a) 0 c.sl)
      else Act.all [
        modSeat c.k (fun s => { s with raccSeq := SMap.set 0 s.raccSeq key (seq + 1) }),
        sendCore c .racc (w % 2 ^ 17) 32768 (fun id => .accumulateArrival {
          src := c.core, seq := seq, acc := id, core := w % 2 ^ 17, seat := bitOf w 17, win := field w 20 18,
          words := accImage c.co a, flag := carried (bitOf w 26) (field w 35 27) (bitOf w 36) })]))

/-! ### Neighbours (R299, R300) -/

/-- A row of the row layout as one value. -/
def rowValue (co : Core) (g row : Nat) : BitVec 2048 := ofLanes (fun n => rowLane co g row n)

/-- One-way time of a neighbour link (R300). -/
def nbrLen (a b : Nat) : Nat := if isBridge (a % 144) (b % 144) then 14 else 6

/-- NSEND (R299, R300): the link serves its messages in issue order; buffer space is taken from the credit now. -/
def execNsend (f : FCN) (s : State) : Host.Outcome State Fault Refusal :=
  slotOp (.nsend f) s (fun c =>
    let u := useNsend c f
    let sh := shpArg c f.shp
    let me := domCl c.core
    let g := tilePhys c f.t
    copyForm c u [f.a] (warnIf (cnLand f.ext != 0) wMisc) sh.m
      (match u.room with
        | none => Act.nil
        | some (n, key, b) => withId (fun id => fun h =>
            let dk := nsendSeat n (xOp c f.a)
            let start := max c.now (SMap.get 0 (h.cluster me).nfree f.dir.toNat)
            let m : NeighMsg := { src := c.core, acc := id, core := coreOf dk, seat := isSeat1 dk, dir := oppDir f.dir.toNat,
                                  tag := c.s.tag, rows := sh.rowList.map (rowValue c.co g) }
            Act.all [
              putAcc id { seat := c.k, kind := .nsend, left := 1, scCluster := some n,
                          scStack := some (12 * (n / 144) + stackOfCl (n % 144)), scPkg := n / 144 },
              modCluster n (fun cl => { cl with nres := cl.nres ++ [(key, id, b)] }),
              modCluster me (fun cl => { cl with nfree := SMap.set 0 cl.nfree f.dir.toNat (start + 2 * sh.m) }),
              schedule (start + nbrLen me n + 2 * sh.m) (.neighbourMessageArrival m)] h)))

/-- The words that the rows of a message land. -/
def rowWords (rows : List (BitVec 2048)) : List (Nat × W64) :=
  rows.zipIdx.flatMap (fun r => (List.range 32).map (fun w => (32 * r.2 + w, r.1.extractLsb' (64 * w) 64)))

/-- Give a message to a waiting NRECV: it leaves the buffer, and its rows wait for the landing. -/
def nbrTake (cl id : Nat) (m : NbrMsg) : Act := Act.all [
  modCluster cl (fun x => { x with nbuf := x.nbuf.erase m }),
  modAcc id (fun a => { a with data := rowWords m.rows, arrived := true })]

/-- NRECV (R299, R300). -/
def execNrecv (f : FCN) (s : State) : Host.Outcome State Fault Refusal :=
  slotOp (.nrecv f) s (fun c =>
    let u := useNrecv c f
    let sh := shpArg c f.shp
    let me := domCl c.core
    copyForm c u [] 0 0 (withId (fun id => Act.all [
      bookLanding c u id,
      putAcc id { seat := c.k, kind := .nrecv (tilePhys c f.t) f.dir.toNat (nrecvTag c f) sh.rowList,
                  scCluster := some me, scStack := some (12 * (me / 144) + stackOfCl (me % 144)), scPkg := me / 144 },
      Act.look (fun h => match nbrPick (h.cluster me).nbuf c.k f.dir.toNat (nrecvTag c f) with
        | none => Act.nil
        | some m => Act.when (m.rows.length == sh.m) (nbrTake me id m))])))

/-! ### Residency (R134, R136, R301, R440) -/

/-- Model and layer that xa names. -/
def layerArg (c : Ctx) (a : XNum) : Nat × Nat := (xOp c a / 2 ^ 10 % 2 ^ 6, xOp c a % 2 ^ 10)

def pkOf (c : Ctx) : Pkg := c.h.pkg (pkgOfCore c.core)

/-- The instance's image defines the model and the layer. -/
def layerDefined (c : Ctx) (m l : Nat) : Bool :=
  (c.h.inst c.s.inst).models.contains m && decide (l < (SMap.get {} (pkOf c).models m).nl)

def undefCauses (c : Ctx) (m l : Nat) : List Cause := if layerDefined c m l then [] else [mkCause 0xC7 0 c.sl]

/-- Has the seat a pin waiting for this LACQ? -/
def hasPin (c : Ctx) (m l : Nat) : Bool := c.s.stalledPin == some (m, l) || c.s.pinDone.contains (m, l)

/-- The pin quota (R391). -/
def quotaCauses (c : Ctx) (m l : Nat) : List Cause :=
  let key := 1024 * m + l
  let ls := (pkOf c).layers
  let total : Nat := (SMap.get ({} : Layer) ls key).pins.foldl (fun n q => n + q.2) 0
  let mine := ls.filter (fun e => e.2.pins.any (fun q => q.1 == c.k))
  if hasPin c m l then []
  else if decide (255 ≤ total) || (decide (64 ≤ mine.length) && !mine.any (fun e => e.1 == key)) then [mkCause 0xC5 0 c.sl] else []

/-- Layers i+1 to i+W that are ABSENT become prefetch candidates (R136). -/
def prefetchAfter (p m l : Nat) : Act := modPkg p (fun pk =>
  let md := SMap.get {} pk.models m
  { pk with layers := pk.layers.map (fun e =>
      let i := e.1 % 1024
      if e.1 / 1024 = m ∧ l < i ∧ i ≤ l + md.win ∧ e.2.st = LayerSt.absent ∧ !e.2.failed then (e.1, { e.2 with cand := true }) else e) })

/-- An LACQ completes: the pin stands, and prefetches follow. -/
def lacqDone (k m l : Nat) : Act := fun h =>
  let p := pkgOfCore (coreOf k)
  let s := h.seat k
  let key := 1024 * m + l
  Act.all [
    if s.stalledPin = some (m, l) then modSeat k (fun s => { s with stalledPin := none })
    else if s.pinDone.contains (m, l) then modSeat k (fun s => { s with pinDone := s.pinDone.erase (m, l) })
    else modPkg p (fun pk =>
      let e := SMap.get {} pk.layers key
      let n := ((e.pins.find? (fun q => q.1 == k)).map (fun q => q.2)).getD 0
      { pk with layers := SMap.insert pk.layers key { e with pins := (k, n + 1) :: e.pins.filter (fun q => q.1 != k) } }),
    modSeat k (fun s => { s with lastLayer := some (m, l) }),
    prefetchAfter p m l] h

/-- LACQ (R134, R301): completes when the layer is RESIDENT, else stalls its bundle. -/
def execLacq (a : XNum) (s : State) : Host.Outcome State Fault Refusal :=
  slotOp (.lacq a) s (fun c =>
    let ml := layerArg c a
    let res := decide ((SMap.get {} (pkOf c).layers (1024 * ml.1 + ml.2)).st = LayerSt.resident)
    Out.check (xLim c [a] ++ undefCauses c ml.1 ml.2 ++ quotaCauses c ml.1 ml.2)
      { act := Act.when res (lacqDone c.k ml.1 ml.2), reads := xReads [a],
        issue := fun i => if res ∨ i.stallPin.isSome then i else { i with stallPin := some ml } })

/-- LREL (R134). -/
def execLrel (a : XNum) (s : State) : Host.Outcome State Fault Refusal :=
  slotOp (.lrel a) s (fun c =>
    let ml := layerArg c a
    let und := undefCauses c ml.1 ml.2
    Out.check (xLim c [a] ++ und ++
        (if und.isEmpty ∧ donePins c.h c.k (1024 * ml.1 + ml.2) = 0 then [mkCause 0xC6 0 c.sl] else []))
      { act := Act.all [dropPin c.k ml.1 ml.2, modSeat c.k (fun s => { s with lastLayer := some ml })], reads := xReads [a] })

/-- LHINT (R301, R441). -/
def execLhint (a b : XNum) (s : State) : Host.Outcome State Fault Refusal :=
  slotOp (.lhint a b) s (fun c =>
    let ml := layerArg c a
    let key := 1024 * ml.1 + ml.2
    Out.check (xLim c [a, b] ++ undefCauses c ml.1 ml.2)
      { act := Act.all [
          modPkg (pkgOfCore c.core) (fun pk =>
            let e := SMap.get {} pk.layers key
            { pk with models := SMap.insert pk.models ml.1 { SMap.get {} pk.models ml.1 with win := xOp c b % 16 },
                      layers := if e.st = LayerSt.absent ∧ !e.failed then SMap.insert pk.layers key { e with cand := true } else pk.layers }),
          modSeat c.k (fun s => { s with lastLayer := some ml })],
        reads := xReads [a, b] })

/-! ### Mailbox (R302 to R304, R454) -/

/-- CREQ (R302): a place is reserved now, and the entry POSTED with its ticket when the release at CLUSTER scope has ended. (DEDUCED, log 37) -/
def execCreq (f : FCX) (s : State) : Host.Outcome State Fault Refusal :=
  slotOp (.creq f) s (fun c =>
    Out.check (xLim c [f.d, f.a, f.b])
      { act := Act.look (fun h =>
          let cl := domCl c.core
          let x := h.cluster cl
          if 16 ≤ x.mbox.length then wX c f.d 0 0
          else Act.all [
            modCluster cl (fun x => { x with
              mbox := x.mbox ++ [{ ticket := 2 ^ 16 + c.order, core := c.core, seat := isSeat1 c.k, inst := c.s.inst, fn := f.fn.toNat,
                                   a := c.s.xr f.a.toNat, b := c.s.xr f.b.toNat, st := 0 }] }),
            release c 0 (.creq cl (2 ^ 16 + c.order) f.d.toNat)]),
        reads := xReads [f.a, f.b] })

/-- CPOLL (R303). -/
def execCpoll (d a : XNum) (s : State) : Host.Outcome State Fault Refusal :=
  slotOp (.cpoll d a) s (fun c =>
    Out.check (xLim c [d, a])
      { act := Act.look (fun h =>
          let cl := domCl c.core
          match (h.cluster cl).mbox.find? (fun e => e.ticket == xOp c a % 2 ^ 16 && e.core == c.core && e.seat == isSeat1 c.k &&
              e.inst == c.s.inst && e.st != 0) with
          | none => wX c d 0 0
          | some e => Act.all [wX c d (BitVec.ofNat 64 (e.st + e.result.toNat * 2 ^ 32)) 0,
              Act.when (decide (3 ≤ e.st)) (modCluster cl (fun x => { x with mbox := x.mbox.erase e }))]),
        reads := xReads [a] })

/-- Off a junction core (R305, R405). -/
def jctCauses (c : Ctx) : List Cause := if isJct c.h c.core then [] else [mkCause 0x1A3 0 c.sl]

/-- An XSTAT action: its registers are checked, and it looks at the cluster as it stands. (DEDUCED, log 38) -/
def xstatForm (c : Ctx) (d : XNum) (regs : List XNum) (a : Hw → Act) : Out :=
  Out.check (jctCauses c ++ xLim c (d :: regs)) { act := Act.look a, reads := xReads regs }

/-- XSTAT FN 0 (R304). -/
def execXstatStatus (d a b : XNum) (s : State) : Host.Outcome State Fault Refusal :=
  slotOp (.xstatStatus d a b) s (fun c => xstatForm c d [a, b] (fun h =>
    let x := h.cluster (domCl c.core)
    wX c d (BitVec.ofNat 64 (x.plans.length + x.mbox.length * 2 ^ 16)) 0))

/-- XSTAT FN 1 (R304). -/
def execXstatTake (d a b : XNum) (s : State) : Host.Outcome State Fault Refusal :=
  slotOp (.xstatTake d a b) s (fun c => xstatForm c d [a, b] (fun h =>
    let cl := domCl c.core
    match (h.cluster cl).mbox.find? (fun e => e.st == 1) with
    | none => wX c d 0 0
    | some e => Act.all [
        wX c d (BitVec.ofNat 64 (2 ^ 63 + e.fn * 2 ^ 20 + e.seat.toNat * 2 ^ 19 + e.core % 8 * 2 ^ 16 + e.ticket)) 0,
        modCluster cl (fun x => { x with mbox := x.mbox.map (fun y => if y.ticket = e.ticket ∧ y.st = 1 then { y with st := 2 } else y) })]))

/-- An operand of a ticket; 0 when no entry holds it. -/
def xstatRead (c : Ctx) (d a b : XNum) (g : MEntry → W64) : Out := xstatForm c d [a, b] (fun h =>
  match (h.cluster (domCl c.core)).mbox.find? (fun e => e.ticket == xOp c a % 2 ^ 16 && e.st != 0) with
  | none => wX c d 0 0
  | some e => wX c d (g e) 0)

/-- XSTAT FN 2 (R304). -/
def execXstatReadA (d a b : XNum) (s : State) : Host.Outcome State Fault Refusal :=
  slotOp (.xstatReadA d a b) s (fun c => xstatRead c d a b (fun e => e.a))

/-- XSTAT FN 3 (R304). -/
def execXstatReadB (d a b : XNum) (s : State) : Host.Outcome State Fault Refusal :=
  slotOp (.xstatReadB d a b) s (fun c => xstatRead c d a b (fun e => e.b))

/-- Is a ticket TAKEN? -/
def ticketTaken (h : Hw) (cl t : Nat) : Bool := (h.cluster cl).mbox.any (fun e => e.ticket == t && e.st == 2)

/-- XSTAT FN 4 (R304): a release at CLUSTER scope. -/
def execXstatComplete (d a b : XNum) (s : State) : Host.Outcome State Fault Refusal :=
  slotOp (.xstatComplete d a b) s (fun c => xstatForm c d [a, b] (fun h =>
    let cl := domCl c.core
    let t := xOp c a % 2 ^ 16
    if ticketTaken h cl t then release c 0 (.xdone cl t d.toNat (BitVec.ofNat 32 (xOp c b)) c.order) else wX c d 0 0))

/-- XSTAT FN 5 (R304). -/
def execXstatFail (d a b : XNum) (s : State) : Host.Outcome State Fault Refusal :=
  slotOp (.xstatFail d a b) s (fun c => xstatForm c d [a, b] (fun h =>
    let cl := domCl c.core
    let t := xOp c a % 2 ^ 16
    if ticketTaken h cl t then Act.all [
      modCluster cl (fun x => { x with mbox := x.mbox.map (fun e =>
        if e.ticket = t ∧ e.st = 2 then { e with st := 4, result := BitVec.ofNat 32 (xOp c b) } else e) }),
      wX c d 1 0]
    else wX c d 0 0))

/-- XSTAT FN 6 (R304). (DEDUCED, log 38) -/
def execXstatPlanStatus (d a b : XNum) (s : State) : Host.Outcome State Fault Refusal :=
  slotOp (.xstatPlanStatus d a b) s (fun c => xstatForm c d [a, b] (fun h =>
    match SMap.find (h.cluster (domCl c.core)).plans (xOp c a % 256) with
    | none => wX c d 0 0
    | some p => wX c d (BitVec.ofNat 64 (p.done + p.phases.length % 2 ^ 16 * 2 ^ 16 +
        (if p.running then p.chunksDone % 2 ^ 16 * 2 ^ 32 + 2 ^ 63 else 0))) 0))

/-! ### Carry messages (R307, R308) -/

/-- The next die along the carry ring, or through the external output (R20, R307, R337). -/
def carryNext (h : Hw) (die : Nat) (ext : Bool) : Nat :=
  if ext then 4 * ((h.pkg (die / 4)).chain.getD 0) else 4 * (die / 4) + (die % 4 + 1) % 4

/-- A seat's message enters a die's carry channel: one every 4 ck (R307). -/
def carrySend (die flight : Nat) (e : Event) : Act := fun h =>
  let start := max h.glob.now (h.die die).chanFree
  Act.all [modDie die (fun d => { d with chanFree := start + 4 }), schedule (start + flight) e] h

/-- Is the carry channel out of a die failed (R446, R458)? -/
def carryDown (h : Hw) (die : Nat) (ext : Bool) : Bool :=
  (h.pkg (die / 4)).carryOff.contains (if ext then 4 else die % 4) || (ext && (h.pkg (carryNext h die true / 4)).carryOff.contains 5)

/-- A row of a carry slot as one value. -/
def htRow (co : Core) (tile row : Nat) : BitVec 2048 := ofLanes (fun n => htLane co tile row n)

/-- CYSND (R307, R458). -/
def execCysnd (f : FCY) (s : State) : Host.Outcome State Fault Refusal :=
  slotOp (.cysnd f) s (fun c =>
    let u := useCysnd c f
    let w := xOp c f.a
    let die := domDie c.core
    let nd := carryNext c.h die (cyExt c f)
    let dcore := 1152 * (nd / 4) + 8 * clOfLocal (nd % 4) (w % 64) + field w 8 6
    let tile := htPhys c f.h.toNat
    let key := field w 25 10
    let seq := SMap.get 0 c.s.carrySeq key
    copyForm c u [f.a] (warnIf (cnLand f.ext != 0 || (bitOf w 26 && domDie c.core % 4 != 3)) wMisc) 2
      (withId (fun id => Act.all [
        putAcc id { seat := c.k, kind := .cysnd, left := 1, scCluster := some (domCl dcore),
                    scStack := some (12 * pkgOfCore dcore + stackOfCl (clOfCore dcore)), scPkg := pkgOfCore dcore },
        modSeat c.k (fun s => { s with carrySeq := SMap.set 0 s.carrySeq key ((seq + 1) % 16) }),
        if carryDown c.h die (cyExt c f) then loseAccess id bitLink else carrySend die (if cyExt c f then 683 else 32) (.carryMessageArrival {
          src := c.k, core := dcore, seat := bitOf w 9, tag := key, seq := seq, acc := id,
          rowA := htRow c.co tile (cyRow c f), rowB := htRow c.co tile (cyRow c f + 1) })])))

/-- The oldest carry message for a seat with a tag. -/
def cyPick (l : List CarryMsg) (s1 : Bool) (tag : Nat) : Option CarryMsg := l.find? (fun m => m.seat == s1 && m.tag == tag)

/-- Give a carry message to a waiting CYRCV. -/
def cyTake (core id : Nat) (m : CarryMsg) : Act := Act.all [
  modCore core (fun co => { co with carry := co.carry.erase m }),
  modAcc id (fun a => { a with data := rowWords [m.rowA, m.rowB], arrived := true })]

/-- Room in a receive buffer lets the head of the die's carry channel come (R308). (DEDUCED, log 61) -/
def chanDrain (die : Nat) : Act := fun h =>
  match (h.die die).chanQ with
  | [] => []
  | e :: r => Act.all [modDie die (fun d => { d with chanQ := r, chanOpen := true }), schedule h.glob.now e] h

/-- CYRCV (R308). -/
def execCyrcv (f : FCY) (s : State) : Host.Outcome State Fault Refusal :=
  slotOp (.cyrcv f) s (fun c =>
    let u := useCyrcv c f
    copyForm c u [f.a] 0 0 (withId (fun id => Act.all [
      bookLanding c u id,
      putAcc id { seat := c.k, kind := .cyrcv (htPhys c f.h.toNat) (cyRow c f) (xOp c f.a % 2 ^ 16),
                  scCluster := some (domCl c.core), scPkg := pkgOfCore c.core },
      Act.look (fun h => match cyPick (h.core c.core).carry (isSeat1 c.k) (xOp c f.a % 2 ^ 16) with
        | none => Act.nil
        | some m => Act.all [cyTake c.core id m, chanDrain (domDie c.core)])])))

end Sys2Proof.Machine
end

