-- ==== Sys2Proof/Machine/Pool.lean ====
section
/-! DEFINITION. The streams of a package's residency engine (R133, R441 to R443, R473, R476): line by line between a layer's
HOME and its slots. -/

namespace Sys2Proof.Machine

/-- Is an access a stream of a residency engine? -/
def Access.isStream (a : Access) : Bool := a.seat == resSeat && a.kind == .copy

/-- Is a line of a frame poisoned (R435)? -/
def framePoison (h : Hw) (pa : Nat) : Bool := h.glob.poison.any (fun l => l / 1024 == pa / 65536)

/-- Copy a 64 KiB frame; whole lines are written, so the poison of the destination is cleared (R435). -/
def copyFrame (src dst : Nat) : Act := fun h =>
  let cells := (h.mem.filter (fun e => decide (src ≤ e.1) && decide (e.1 < src + 65536))).map (fun e => (dst + (e.1 - src), e.2))
  Act.all [(fun _ => [.memDrop dst (dst + 65536)]), writeMem cells,
    modGlob (fun g => { g with poison := g.poison.filter (fun l => l / 1024 != dst / 65536) })] h

/-- Slots of a layer. -/
def slotNeed (p : Pkg) (e : Layer) : Nat := ceilDiv e.size (2 ^ p.poolK)

/-- Free slots, ascending. -/
def freeSlots (p : Pkg) : List Nat :=
  let used := p.layers.flatMap (fun e => e.2.slots)
  (List.range p.poolNs).filter (fun s => !used.contains s)

/-- The layer at a key of a package. -/
def layerAt (h : Hw) (pk key : Nat) : Layer := SMap.get {} (h.pkg pk).layers key
def modLayer (pk key : Nat) (f : Layer → Layer) : Act := modPkg pk (fun p => { p with layers := SMap.insert p.layers key (f (SMap.get {} p.layers key)) })

/-- A frame has come whole: an arriving one is written to its slot; an evicted one is written to HOME and its D bit cleared
in one step. An uncorrectable source stops an arrival and loses an evicted frame. -/
def frameMove (pk key : Nat) (p : Part) : Act := fun h =>
  let e := layerAt h pk key
  match ownFrame h pk key p.off with
  | none => []
  | some slot =>
    if e.st = LayerSt.arriving then
      (if framePoison h p.pa then schedule h.glob.now (.ext (.arrivalFailure pk key 1)) h else copyFrame p.pa slot h)
    else if paFenced h p.pa then
      schedule h.glob.now (.ext (.writeBackFailure pk key)) h
    else
      let ds := e.dirty.filter (fun d => d.1 == p.off)
      Act.all [
        if framePoison h slot then modLayer pk key (fun e => { e with lost := true }) else copyFrame slot p.pa,
        writeMem (ds.map (fun d => (d.2, BitVec.ofNat 8 ((Memory.read h.mem d.2).toNat &&& 0xFD)))),
        modLayer pk key (fun e => { e with dirty := e.dirty.filter (fun d => d.1 != p.off) })] h

/-! ### The lines of a stream (R473, R476)

Line n of a stream is line n % 1024 of its part n / 1024. The engine asks for four lines in each ck, 256 bytes, and each line goes four
legs: event 4n + 1, it has been read at its memory; 4n + 2, it is at the engine; 4n + 3, it is at the memory that it is written to;
4n + 4, it has been written. Event 0 is the engine's next ck. -/

/-- The engine that serves a stream, by the die of HOME's stack: its die. (DESIGN CHOICE, log 81) -/
def streamDie (a : Access) : Nat := stackOfPa (a.parts.getD 0 {}).pa % 12 / 3

/-- The cluster at which that engine attaches. -/
def streamCl (a : Access) : Nat := 144 * a.scPkg + attachCl (streamDie a)

/-- Where a stream reads line n, and where it writes it. -/
def streamLine (h : Hw) (a : Access) (n : Nat) : Nat × Nat :=
  let p := a.parts.getD (n / 1024) {}
  let key := a.layer.getD 0
  let home := p.pa + 64 * (n % 1024)
  let slot := (ownFrame h a.scPkg key p.off).getD 0 + 64 * (n % 1024)
  if (layerAt h a.scPkg key).st = LayerSt.arriving then (home, slot) else (slot, home)

/-- One way between the engine and an address's home (R312). -/
def streamLeg (h : Hw) (a : Access) (pa : Nat) : Nat :=
  10 + if pa / 2 ^ 46 = a.scPkg then routeCk (h.pkg a.scPkg) (attachCl (streamDie a)) (homeCl (h.pkg a.scPkg) pa) else crossCk

/-- Is a request of a stream held, at a slice or for a full queue (R317)? -/
def streamHeld (h : Hw) (id : Nat) : Bool :=
  h.glob.mcWait.any (fun q => q.2.any (fun r => r.acc == id)) ||
  h.clusters.any (fun c => c.2.sliceQ.any (fun r => r.acc == id && decide (r.arrived < h.glob.now)))

/-- Ask for line n at its home slice, on port 8 (R315): the first request is a packet of the engine. (DESIGN CHOICE, log 81) -/
def askLine (id : Nat) (a : Access) (n : Nat) : Act := fun h =>
  let pa := (streamLine h a n).1
  let d : Deliver := .slice { port := 8, arrived := 0, src := sysBase + 4 * a.scPkg + streamDie a, seat := false, acc := id, part := n, line := lineOf pa }
  if n = 0 then sendTo (streamCl a) 14 (homeDom h pa) 8 10 none 0 d h
  else atUnit (homeDom h pa) (h.glob.now + streamLeg h a pa) d h

/-- One ck of a stream: four lines more, while none that it asked for is held. -/
def streamAsk (id : Nat) (a : Access) : Act := fun h =>
  let total := 1024 * a.parts.length
  let n := if streamHeld h id then 0 else min 4 (total - a.asked)
  Act.all [
    Act.each (rangeFrom a.asked n) (askLine id a),
    modAcc id (fun a => { a with asked := a.asked + n }),
    Act.when (a.asked + n < total) (after 1 (.lateDataArrival id 0))] h

/-- A line of a stream is served at its home slice: a hit is on its way, a miss enters the pseudo-channel in class 4 (R316). -/
def streamServe (cl : Nat) (r : SliceReq) (hit : Bool) : Act := fun h =>
  if hit then after 0 (.lateDataArrival r.acc (4 * r.part + 1)) h
  else pushMem (64 * r.line) { cls := 4, acc := r.acc, part := 4 * r.part + 1, line := r.line, slice := cl, at_ := h.glob.now } h

/-- A frame has been written; the last one ends the arrival or the eviction. -/
def frameDone (id i : Nat) (a : Access) : Act := fun h =>
  let pk := a.scPkg
  let key := a.layer.getD 0
  let p := a.parts.getD i {}
  let rest := a.parts.zipIdx.filter (fun q => q.2 != i)
  Act.all [
    frameMove pk key p,
    Act.when (rest.all (fun q => q.1.put == 1024)) (Act.all [dropAcc id,
      if (layerAt h pk key).st = LayerSt.arriving then after 0 (.arrivalComplete pk key) else after 0 (.evictionComplete pk key)])] h

/-- The next leg of a line of a stream, or the engine's next ck. -/
def resStep (id e : Nat) : Act := fun h =>
  match h.acc? id with
  | none => []
  | some a =>
    if e = 0 then streamAsk id a h else
    let n := (e - 1) / 4
    let x := streamLine h a n
    match (e - 1) % 4 with
    | 0 => Act.all [slicePut (homeDom h x.1) (lineOf x.1) false,
        if n = 0 then sendTo (homeDom h x.1) 8 (streamCl a) 14 10 none 0 (.event (.lateDataArrival id (e + 1)))
        else after (streamLeg h a x.1) (.lateDataArrival id (e + 1))] h
    | 1 => after (streamLeg h a x.2) (.lateDataArrival id (e + 1)) h
    | 2 => Act.all [dropLine x.2,
        pushMem x.2 { cls := 4, acc := id, part := e + 1, line := lineOf x.2, slice := homeDom h x.2, at_ := h.glob.now }] h
    | _ =>
      let i := n / 1024
      let p := a.parts.getD i {}
      Act.all [modPart id i (fun q => { q with put := q.put + 1 }), Act.when (p.put + 1 == 1024) (frameDone id i a)] h

end Sys2Proof.Machine
end

