-- ==== Sys2Proof/Machine/Landing.lean ====
section
/-! DEFINITION. Data on its way into a core: late data and its landing (R142, R281, R292 to R294), the inline decompressor
(R126 to R129, R430, R431), poisoned data (R429, R435, R443), page walks and atomics (R120, R151, R203), overdue landings and
the freeze watchdog (R432, R433), and deferred causes (R386). -/

namespace Sys2Proof.Machine

/-! ### Landing intervals (R281) -/

/-- The granules of a decode that have not landed. -/
def notLanded (a : Access) : List Nat := (List.range a.gst.length).filter (fun q => a.gst.getD q 0 != 5)

/-- Is what ck j of a landing interval writes there? -/
def stepHere (a : Access) (j : Nat) : Bool :=
  match a.kind with
  | .tload _ _ _ _ _ => a.parts.all (fun p => p.st == 5 || decide (256 * (j + 1) ≤ p.off))
  | .tdec _ _ _ _ => decide (3 ≤ a.gst.getD ((notLanded a).getD (j / 16) 0) 0)
  | .nrecv _ _ _ _ => a.arrived
  | .cyrcv _ _ _ => a.arrived
  | .scanRes _ _ _ => a.arrived
  | _ => true

/-- Does a landing lack what core time t needs? -/
def lackLanding (h : Hw) (t : Nat) (l : Landing) : Bool :=
  !l.held && decide (l.due ≤ t) && (match h.acc? l.acc with
    | none => false
    | some a => !stepHere a (l.done + (t - l.due)))

/-- Does a result lack its data at core time t? A retry entry does not wait (R424). -/
def lackPend (h : Hw) (t : Nat) (p : Pend) : Bool :=
  decide (p.due ≤ t) && (match p.acc with
    | none => false
    | some id => match h.acc? id with
      | none => false
      | some a => !a.parts.any (fun q => q.st == 6))

/-- The accesses that seat k lacks at core time t. -/
def lackOf (h : Hw) (k t : Nat) : List Nat :=
  ((h.seat k).pend.filter (lackPend h t)).filterMap (·.acc) ++
  (((h.core (coreOf k)).landings.filter (fun l => l.seat == isSeat1 k && lackLanding h t l)).map (·.acc))

/-- Does the core lack data (R142)? -/
def coreLacks (h : Hw) (core : Nat) : Bool :=
  let t := h.coreT core
  !(lackOf h (2 * core) t).isEmpty || !(lackOf h (2 * core + 1) t).isEmpty

/-- Does the core's clock stand still in this ck (R142, R281, R379)? -/
def coreStill (h : Hw) (core : Nat) : Bool := trapFreeze h core || coreLacks h core

/-- A freeze for data becomes the freeze of a capture: this ck is lost too. -/
def freezeNow (core : Nat) : Act := fun h => modCore core (fun co => { co with frzTo := max co.frzTo h.glob.now }) h

/-! ### Writing what has landed -/

/-- An access that landed: forgotten, or kept for the deliveries and failures that a DRAIN still asks for. -/
def endLanding (id : Nat) : Act := fun h =>
  match h.acc? id with
  | none => []
  | some a => if a.fail = 0 ∧ a.left = 0 then dropAcc id h
    else modAcc id (fun a => { a with kind := .copy, parts := a.parts.map (fun p => { p with st := 5 }) }) h

/-- Zero the sidecars of the granules that a list of words fills whole (R286). -/
def sideZero (core : Nat) (ws : List (Nat × W64)) : Act :=
  Act.each (uniq (ws.map (fun e => e.1 / 512))) (fun g =>
    Act.when (((ws.filter (fun e => e.1 / 512 == g)).length) == 512) (writeSide core g 0))

/-- The words of a part. -/
def partWords (base : Nat) (p : Part) : List (Nat × W64) :=
  (List.range (p.len / 8)).map (fun i => (base + p.off / 8 + i, BitVec.ofNat 64 (leVal ((p.rdata.drop (8 * i)).take 8))))

/-- An uncorrectable resident frame (R443): the layer is evicted when its pins have dropped; a dirty frame makes it lost. -/
def layerBad (pk key : Nat) (pas : List Nat) : Act := fun h =>
  modPkg pk (fun p =>
    let e := SMap.get {} p.layers key
    let hit := e.dirty.any (fun d => pas.any (fun a => ownFrame h pk key d.1 == some (a / 65536 * 65536)))
    { p with layers := SMap.insert p.layers key { e with lost := e.lost || hit, evictNow := true } }) h

/-- The words that ck j of a landing from word `base` on writes: 256 bytes in ascending order (R281). -/
def stepWords (base j : Nat) (ws : List (Nat × W64)) : List (Nat × W64) :=
  ws.filter (fun e => decide (base + 32 * j ≤ e.1) && decide (e.1 < base + 32 * (j + 1)))

/-- The parts of a tile load that ck j of its landing concerns. -/
def stepParts (j : Nat) (l : List Part) : List Part :=
  l.filter (fun p => decide (p.off < 256 * (j + 1)) && decide (256 * j < p.off + p.len))

/-- Ck j of a tile load's landing (R281, R292 to R294): poisoned bytes stay unlanded, and the cause is charged from the first of them
on (R429); a granule whose bytes have all been written has its sidecars zeroed (R286). -/
def landTload (core id : Nat) (a : Access) (due gran sgo : Nat) (zeros : List Nat) (j : Nat) : Act :=
  let base := 512 * gran + 64 * sgo
  let all := fun (l : List Part) => (l.filter (fun p => !p.poison)).flatMap (partWords base) ++ zeros.map (fun z => (base + z, 0))
  let ws := stepWords base j (all (stepParts j a.parts))
  let bad := (stepParts j a.parts).any (fun p => p.poison) && !(List.range j).any (fun i => (stepParts i a.parts).any (fun p => p.poison))
  Act.all [
    writeTile core ws,
    Act.when ((base + 32 * (j + 1)) % 512 == 0) (sideZero core ((all a.parts).filter (fun e => e.1 / 512 == (base + 32 * j) / 512))),
    Act.when bad (Act.all [
      modOwner a.seat (fun s => { s with pendCause := s.pendCause ++
        [{ code := if a.layer.isSome then 0xCB else 0xAD, tval := 0, slots := 0, due := due }] }),
      (match a.layer with | none => Act.nil | some key => layerBad (pkgOfCore core) key ((a.parts.filter (fun p => p.poison)).map (fun p => p.pa))),
      modAcc id (fun a => { a with fail := a.fail ||| (2 ^ bitPoison), nfail := a.nfail + 1 })])]

/-- The words of decoded granule q, and ck j of the landing of a tile's decoded granules (R281, R292). -/
def granWords (a : Access) (q : Nat) : List (Nat × W64) := (a.data.filter (fun e => e.1 / 512 == q)).map (fun e => (e.1 % 512, e.2))

def landTdec (core : Nat) (a : Access) (gran j : Nat) : Act :=
  let q := (notLanded a).getD (j / 16) 0
  Act.when (a.gst.getD q 0 == 3) (Act.all [
    writeTile core ((stepWords 0 (j % 16) (granWords a q)).map (fun e => (512 * (gran + q) + e.1, e.2))),
    Act.when (j % 16 == 15) (writeSide core (gran + q) 0)])

/-- The half of the banks that ck j of a landing takes (R313); none where it does not write the tile store. -/
def landHalf (a : Access) (j : Nat) : Option Nat :=
  match a.kind with
  | .tload _ _ _ _ _ => some j
  | .tdec _ _ _ _ => some j
  | .nrecv _ _ _ rows => some (rows.getD j 0)
  | _ => none

/-- What ck j of a landing writes (R142, R281). -/
def landNow (core : Nat) (l : Landing) (j : Nat) : Act := fun h =>
  match h.acc? l.acc with
  | none => []
  | some a =>
    (match a.kind with
      | .tload g sgo _ zeros _ => landTload core l.acc a (l.due - l.done) g sgo zeros j
      | .tdec g _ _ _ => landTdec core a g j
      | .nrecv g _ _ rows => writeTile core ((stepWords 0 j a.data).map (fun (e : Nat × W64) => (512 * g + 32 * rows.getD (e.1 / 32) 0 + e.1 % 32, e.2)))
      | .cyrcv t r _ => writeHt core (a.data.flatMap (fun (e : Nat × W64) =>
          let n := 2 * (e.1 % 32)
          [(t, r + e.1 / 32, n, e.2.toNat % 2 ^ 32), (t, r + e.1 / 32, n + 1, e.2.toNat / 2 ^ 32)]))
      | .scanRes t r _ => writeHt core (a.data.flatMap (fun (e : Nat × W64) =>
          [(t, r, e.1, e.2.toNat % 2 ^ 32), (t, r + 1, e.1, e.2.toNat / 2 ^ 32)]))
      | _ => Act.nil) h

/-- The decoded granules of an access have landed. -/
def landedGrans (id : Nat) : Act := modAcc id (fun a => { a with gst := a.gst.map (fun g => if g = 3 then 5 else g) })

/-- The landing after its interval: gone, or held for the granules that failed (R431). -/
def landAfter (core : Nat) (l : Landing) : Act := Act.all [landedGrans l.acc, Act.look (fun h =>
  let drop : Act := modCore core (fun co => { co with landings := co.landings.erase l })
  match h.acc? l.acc with
  | none => drop
  | some a =>
    let n := (notLanded a).length
    match a.kind with
    | .tdec _ _ _ _ =>
      if n = 0 then Act.all [drop, endLanding l.acc]
      else modCore core (fun co => { co with landings := co.landings.map (fun x =>
        if x = l then { x with held := true, due := 0, len := 16 * n, done := 0 } else x) })
    | _ => Act.all [drop, endLanding l.acc])]

/-- A failed granule is charged at its landing cycle (R431). -/
def chargeGran (core : Nat) (l : Landing) : Act := fun h =>
  match h.acc? l.acc with
  | none => []
  | some a =>
    let t := h.coreT core
    let j := l.done + (t - l.due)
    let q := (notLanded a).getD (j / 16) 0
    if j % 16 = 0 ∧ a.gst.getD q 0 = 4 then
      let c := (a.gfail.find? (fun e => e.1 == q)).getD (q, 0xBA, 0)
      Act.all [
        modAcc l.acc (fun a => { a with gst := a.gst.set q 6, gfail := a.gfail.filter (fun e => e.1 != q) }),
        modOwner a.seat (fun s => { s with pendCause := s.pendCause ++ [{ code := c.2.1, tval := c.2.2, slots := 0, due := t }] })] h
    else []

/-- The landings of a core in a ck in which its clock runs. -/
def landTick (core : Nat) : Act := Act.look (fun h =>
  let t := h.coreT core
  Act.each ((h.core core).landings.filter (fun l => !l.held && decide (l.due ≤ t))) (fun l => Act.all [
    chargeGran core l, landNow core l (l.done + (t - l.due)),
    Act.when (decide (l.due + l.len ≤ t + 1)) (landAfter core l)]))

/-- The banks that the landings of a core take at core time t. -/
def landBanks (h : Hw) (core t : Nat) : Nat :=
  ((h.core core).landings.filter (fun l => !l.held && decide (l.due ≤ t) && decide (t < l.due + l.len))).foldl (fun m l =>
    match h.acc? l.acc with
    | none => m
    | some a => match landHalf a (l.done + (t - l.due)) with
      | none => m
      | some b => m ||| halfBanks b) 0

/-! ### Multicast deliveries (R293) -/

/-- The words, by word number of the destination image's first granule, that a TLDM delivers. -/
def mcWords (a : Access) : List (Nat × W64) :=
  match a.kind with
  | .tload _ sgo _ _ _ => a.parts.flatMap (partWords (64 * sgo))
  | .tdec _ _ _ _ => a.data
  | _ => []

/-- Has everything come that a multicast delivers? -/
def mcReady (a : Access) : Bool :=
  match a.kind with
  | .tload _ _ _ _ _ => a.parts.all (fun p => p.st == 5)
  | .tdec _ _ _ _ => a.gst.all (fun g => g == 3 || g == 5)
  | _ => false

/-- The multicast of an access: its word, the granules and bytes of the image. -/
def mcOf (a : Access) : Option (McWord × Nat × Nat) :=
  match a.kind with
  | .tload _ sgo b _ (some m) => some (m, ceilDiv (512 * sgo + b) 4096, b)
  | .tdec _ e _ (some m) => some (m, e.length, 4096 * e.length)
  | _ => none

/-- Deliver a multicast when all its bytes have come; poisoned bytes are delivered nowhere. (DEDUCED, log 21) -/
def mcSend (id : Nat) : Act := fun h =>
  match h.acc? id with
  | none => []
  | some a =>
    match mcOf a with
    | none => []
    | some (m, grans, bytes) =>
      if a.sent || !mcReady a then []
      else if a.parts.any (fun p => p.poison) then
        modAcc id (fun a => { a with sent := true, left := 0, fail := a.fail ||| (2 ^ bitPoison), nfail := a.nfail + m.cores.length }) h
      else
        let words := (mcWords a).map (fun e => (8 * e.1, e.2))
        Act.all [
          modAcc id (fun a => { a with sent := true }),
          Act.each m.cores (fun n => after 1 (.inboundRemoteWrite {
            src := coreOf a.seat, acc := id, core := n, seat := m.dseat, granule := m.dt, grans := grans, bytes := bytes,
            words := words, side := [], fillSide := true, flag := m.flag })),
          after (2 ^ 21) (.multicastAckTimeout id)] h

/-! ### The inline decompressor (R126 to R129, R430) -/

/-- The bytes of a block as they have come: the parts of granule q in order. -/
def blockBytes (a : Access) (q : Nat) : List Byte :=
  (a.parts.filter (fun p => p.off / 65536 == q)).flatMap (fun p => p.rdata)

/-- The block address of granule q. -/
def blockPa (a : Access) (q : Nat) : Nat :=
  ((a.parts.find? (fun p => p.off == 65536 * q)).map (fun p => p.pa)).getD 0

/-- The tests of a header (R430), none when it is good. -/
def hdrBad (hd : Nat) : Option Nat :=
  if hd % 2 ^ 16 ≠ 0xB10C then some 0xB0
  else if field hd 95 77 ≠ 0 ∨ field hd 50 21 ≠ 0 then some 0xB3
  else if field hd 63 51 ≠ 4096 then some 0xB1
  else
    let clen := field hd 76 64
    if clen = 0 ∨ 4096 < clen ∨ (bitOf hd 20 ∧ clen ≠ 4096) then some 0xB2 else none

/-- Lines of a block beyond the first, by its header. -/
def moreLines (hd : Nat) : Nat := if (hdrBad hd).isSome then 0 else ceilDiv (16 + field hd 76 64) 64 - 1

/-- The code lengths of a table (R128). -/
def codeLens (h : Hw) (tab : Nat) : List Nat :=
  (readBytes h tab 128).flatMap (fun b => [b.toNat % 16, b.toNat / 16])

/-- The canonical code (RFC 1951): per length, the first code, the number of codes and the symbols in order. -/
def canon (lens : List Nat) : List (Nat × List Nat) :=
  let syms := fun l => (lens.zipIdx.filter (fun e => e.1 == l)).map (·.2)
  ((List.range 12).foldl (fun (acc : List (Nat × List Nat) × Nat) l =>
    let s := syms (l + 1)
    (acc.1 ++ [(acc.2, s)], 2 * (acc.2 + s.length))) ([], 0)).1

/-- The state of decoding: symbols still wanted, code bits read and their value, the symbols (last first), failure. -/
structure Huff where
  want : Nat := 4096
  len : Nat := 0
  code : Nat := 0
  out : List Nat := []
  bad : Bool := false

/-- One payload bit. -/
def Huff.bit (tab : List (Nat × List Nat)) (s : Huff) (b : Bool) : Huff :=
  if s.want = 0 ∨ s.bad then s
  else
    let code := 2 * s.code + b.toNat
    let e := tab.getD s.len (0, [])
    if e.1 ≤ code ∧ code - e.1 < e.2.length then
      { s with want := s.want - 1, len := 0, code := 0, out := e.2.getD (code - e.1) 0 :: s.out }
    else if 12 ≤ s.len + 1 then { s with bad := true }
    else { s with len := s.len + 1, code := code }

/-- The bits of a byte from bit 0 upward. -/
def byteBits (b : Byte) : List Bool := (List.range 8).map b.getLsbD

/-- One step of CRC-32C on a bit-reversed register. -/
def crcByte (c : Nat) (b : Nat) : Nat :=
  (List.range 8).foldl (fun x _ => if x % 2 = 1 then x / 2 ^^^ 0x82F63B78 else x / 2) (c ^^^ b)

def crc32c (l : List Nat) : Nat := l.foldl crcByte 0xFFFFFFFF ^^^ 0xFFFFFFFF

/-- The words of 4,096 bytes. -/
def bytesToWords (l : List Nat) : List (Nat × W64) :=
  (List.range 512).map (fun i => (i, BitVec.ofNat 64 (((l.drop (8 * i)).take 8).foldr (fun b n => b + 256 * n) 0)))

/-- Decode a granule: the cause that decides (R430), or its bytes and whether its padding is nonzero. (PRESUMED, log 23) -/
def decodeBlock (h : Hw) (a : Access) (q ctb : Nat) : Except Nat (List Nat × Bool) :=
  let bs := blockBytes a q
  let hd := leVal (bs.take 16)
  if a.parts.any (fun p => p.off / 65536 == q && p.poison) then .error 0xBA
  else match hdrBad hd with
    | some c => .error c
    | none =>
      let clen := field hd 76 64
      let pay := (bs.drop 16).take clen
      let pad := ((bs.drop (16 + clen)).any (fun b => b != 0))
      let fin := fun (l : List Nat) => if crc32c l = hd / 2 ^ 96 then Except.ok (l, pad) else Except.error 0xB8
      if bitOf hd 20 then fin (pay.map (·.toNat))
      else
        let tab := ctb + 128 * field hd 19 16
        let lens := codeLens h tab
        if !memOk h tab then .error 0xBE
        else if h.glob.poison.contains (lineOf tab) || h.glob.poison.contains (lineOf (tab + 64)) then .error 0xBB
        else if lens.any (fun l => decide (12 < l)) then .error 0xB4
        else if 4096 < lens.foldl (fun n l => if l = 0 then n else n + 2 ^ (12 - l)) 0 then .error 0xB5
        else
          let r := (pay.flatMap byteBits).foldl (Huff.bit (canon lens)) {}
          if r.bad then .error 0xB6 else if r.want ≠ 0 then .error 0xB7 else fin r.out.reverse

/-- Does job x go before job y (R129)? -/
def jobBefore (x y : DecJob) : Bool :=
  decide (x.hdrAt < y.hdrAt) || (x.hdrAt == y.hdrAt && (decide (x.core < y.core) ||
    (x.core == y.core && (decide (x.acc < y.acc) || (x.acc == y.acc && decide (x.gran < y.gran))))))

/-- The ready job that the decoder takes next. -/
def nextJob (l : List DecJob) : Option DecJob :=
  match l.filter (fun j => j.ready) with
  | [] => none
  | j :: r => some (r.foldl (fun b x => if jobBefore x b then x else b) j)

/-- Has a free decoder a ready granule? Every granule that became ready in this ck takes part (R129). -/
def decDue (h : Hw) (cl : Nat) : Bool := decide ((h.cluster cl).decBusy = 0) && (nextJob (h.cluster cl).dec).isSome

/-- A free decoder takes the next ready granule: it stands first in the list while it is decoded, 64 ck. -/
def decStart (cl : Nat) : Act := fun h =>
  let x := h.cluster cl
  if x.decBusy ≠ 0 then []
  else match nextJob x.dec with
    | none => []
    | some j => Act.all [modCluster cl (fun x => { x with dec := j :: x.dec.erase j, decBusy := h.glob.now + 64 }),
        after 64 (.granuleDecode cl)] h

/-- A part of a decode has come: a header asks for its payload lines, a block that leaves memory being unreadable (R111, R430); with the
last line the granule is ready. -/
def decArrives (id i : Nat) : Act := fun h =>
  match h.acc? id with
  | none => []
  | some a =>
    let p := a.parts.getD i {}
    let q := p.off / 65536
    let core := coreOf a.seat
    let cl := domCl core
    let isHdr := decide (p.off % 65536 = 0)
    let lines := if isHdr && !p.poison then moreLines (leVal (p.rdata.take 16)) else 0
    let out := !memOk h (p.pa + 64 * lines)
    let more := if out then 0 else lines
    let n := a.parts.length
    let new := (List.range more).map (fun j => ({ p with
      va := p.va + 64 * (j + 1), pa := p.pa + 64 * (j + 1), off := p.off + 64 * (j + 1), st := 7, rdata := [], poison := false } : Part))
    Act.all [
      Act.when isHdr (Act.all [
        modAcc id (fun a => { a with parts := a.parts ++ new, gst := a.gst.set q (if more = 0 then 2 else 1) }),
        Act.when out (modPart id i (fun p => { p with poison := true })),
        modCluster cl (fun x => { x with dec := x.dec ++ [{ acc := id, gran := q, hdrAt := h.glob.now, ready := more == 0, core := core }] }),
        Act.each (List.range more) (fun j => sendPart id (n + j))]),
      Act.when (!isHdr && (a.parts.filter (fun r => r.off / 65536 == q)).all (fun r => r.st == 5)) (Act.all [
        modAcc id (fun a => { a with gst := a.gst.set q 2 }),
        modCluster cl (fun x => { x with dec := x.dec.map (fun j => if j.acc = id ∧ j.gran = q then { j with ready := true } else j) })]),
      layerDone id] h

/-- GRANULE_DECODE: a free decoder takes its next granule; the granule in the decoder is done: delivered to its landing, or failed
(R128, R129, R430, R431). Nonzero padding is recorded (0x0BD). -/
def decEnds (cl : Nat) : Act := fun h =>
  let x := h.cluster cl
  if x.decBusy = 0 then decStart cl h
  else match x.dec with
    | [] => modCluster cl (fun x => { x with decBusy := 0 }) h
    | j :: r =>
      Act.all [
        modCluster cl (fun x => { x with dec := r, decBusy := 0 }),
        (match h.acc? j.acc with
          | none => Act.nil
          | some a =>
            match a.kind with
            | .tdec _ _ ctb _ =>
              (match decodeBlock h a j.gran ctb with
                | .error code => modAcc j.acc (fun a => { a with
                    gst := a.gst.set j.gran 4,
                    gfail := a.gfail ++ [(j.gran, code, BitVec.ofNat 64 (blockPa a j.gran % 2 ^ 52 + j.gran % 16 * 2 ^ 60))] })
                | .ok (l, pad) => Act.all [
                    modAcc j.acc (fun a => { a with
                      gst := a.gst.set j.gran 3, data := a.data ++ (bytesToWords l).map (fun e => (512 * j.gran + e.1, e.2)) }),
                    Act.when pad (noteSeat a.seat { code := 0xBD, tval := 0, slots := 0 }),
                    mcSend j.acc])
            | _ => Act.nil)] h

def execGranuleDecode (s : State) : Host.Outcome State Fault Refusal :=
  match s.ev with
  | .granuleDecode cl => eventAct s (decEnds cl)
  | _ => eventAct s Act.nil

/-- The entry of granule q is there: its header is asked for, or it fails at its landing (R430). -/
def granArrives (id q : Nat) : Act := fun h =>
  match h.acc? id with
  | none => []
  | some a =>
    match a.kind with
    | .tdec _ ents _ _ =>
      (match granBlock (h.core (coreOf a.seat)) h (ents.getD q 0) with
        | .error code => Act.all [modAcc id (fun a => { a with gst := a.gst.set q 4, gfail := a.gfail ++ [granFail q code] }), layerDone id] h
        | .ok pa => Act.all [modAcc id (fun a => { a with parts := a.parts ++ [hdrPart q pa] }), sendPart id a.parts.length] h)
    | _ => []

/-- Failed granules are decoded again from their entries as they then stand (R431); what they had read moves out of the way. -/
def redecode (k : Nat) : Act := Act.look (fun h =>
  let core := coreOf k
  Act.each (seatAccs h k) (fun e =>
    match e.2.kind with
    | .tdec _ ents _ _ =>
      Act.each ((List.range e.2.gst.length).filter (fun q => e.2.gst.getD q 0 == 6)) (fun q => Act.look (fun h =>
        let ea := ents.getD q 0
        Act.all [
          modAcc e.1 (fun a => { a with
            gst := a.gst.set q 0, parts := a.parts.map (fun p => if p.off / 65536 = q then { p with off := 2 ^ 26 + p.off } else p) }),
          if (tabFind (h.core core).tabs 0 ea).isSome then granArrives e.1 q else fetchNeeds core 0 [.tab ea]]))
    | _ => Act.nil))

/-! ### Late data (R142, R152) -/

/-- Has a memory-side access of a line reached its unit and not executed (R152)? -/
def msWaits (h : Hw) (line : Nat) : Bool := h.accs.any (fun a => a.2.parts.any (fun p => p.st == 3 && p.ms && lineOf p.pa == line))

/-- A memory-side part reaches its unit: an atomic queues in class 1, other accesses in class 2 (R316, R317). -/
def memSide (id i : Nat) (a : Access) (p : Part) : Act := fun h =>
  let cls := match a.kind with | .amo _ _ _ _ _ => 1 | _ => if a.pkg = p.pa / 2 ^ 46 then 2 else 3
  Act.all [dropLine p.pa, modPart id i (fun q => { q with st := 3 }),
    pushMem p.pa { cls := cls, acc := id, part := i, line := lineOf p.pa, slice := partHome h p, at_ := h.glob.now }] h

/-- Is the access a write or an atomic (its line becomes dirty)? (DEDUCED, log 57) -/
def dirties (a : Access) : Bool := a.kind.writes

/-- LATE_DATA_ARRIVAL: the next leg of a part's way: to its memory-side unit, from memory into its slice, or to its core; the next entry of a
walk; the next
leg of a residency stream's frame, a carry from the scan network in its slot, or the granule entry of a decode. -/
def lateArrives (id i : Nat) : Act := fun h =>
  match h.acc? id with
  | none => []
  | some a =>
    let p := a.parts.getD i {}
    if a.isStream then resStep id i h
    else if walkPartNo ≤ i then walkStep id (i - walkPartNo) h
    else if 2 ^ 16 ≤ i ∧ a.parts.length ≤ i then granArrives id (i - 2 ^ 16) h
    else if a.parts.isEmpty then modAcc id (fun a => { a with arrived := true }) h else
    match p.st with
    | 1 => memSide id i a p h
    | 3 => Act.all [Act.when (!p.ms && !msWaits h (lineOf p.pa)) (slicePut (partHome h p) (lineOf p.pa) (dirties a)), performPart id i] h
    | 4 => Act.all [partArrives id i,
        (match a.kind with
          | .tdec _ _ _ _ => decArrives id i
          | .tload _ _ _ _ _ => mcSend id
          | _ => Act.nil)] h
    | 7 => Act.when (a.kind == .tstore) (sendPart id i) h
    | _ => []

def execLateDataArrival (s : State) : Host.Outcome State Fault Refusal :=
  match s.ev with
  | .lateDataArrival id i => eventAct s (lateArrives id i)
  | _ => eventAct s Act.nil

/-- PAGE_WALK_COMPLETE (R120). -/
def execPageWalkComplete (s : State) : Host.Outcome State Fault Refusal :=
  match s.ev with
  | .pageWalkComplete id i => eventAct s (walkEnds id i)
  | _ => eventAct s Act.nil

/-! ### Atomics (R151, R203, R435, R436) -/

/-- The new value of a location of `bits` bits. (DEDUCED, log 42) -/
def amoNew (op : AmoOp) (bits old b e : Nat) : Nat :=
  match op with
  | .add => (old + b) % 2 ^ bits
  | .and => old &&& b
  | .or => old ||| b
  | .xor => old ^^^ b
  | .min => if sextNat bits b < sextNat bits old then b else old
  | .max => if sextNat bits old < sextNat bits b then b else old
  | .minu => min old b
  | .maxu => max old b
  | .swap => b
  | .cas => if old = e then b else old
  | .fadd => fp32.add .ne old b

/-- ATOMIC_EXECUTION: one step at the point of coherence. A line that is poisoned fails it (reason 3); a partition under
reset refuses it (reason 2, a retry entry). -/
def atomicAct (id i : Nat) : Act := fun h =>
  match h.acc? id with
  | none => []
  | some a =>
    match a.kind with
    | .amo op _ w b e =>
      let p := a.parts.getD i {}
      let core := coreOf a.seat
      let site := atomicSite core p.pa p.ms
      let bits := if w then 32 else 64
      if paFenced h p.pa then
        Act.all [modPart id i (fun q => { q with st := 6, why := 0x102 + 4 * site }), chargeWalks id] h
      else if h.glob.poison.contains (lineOf p.pa) then
        Act.all [
          loseResult a.seat id,
          modOwner a.seat (fun s => { s with
            pendCause := s.pendCause ++ [{ code := 0x103 + 4 * site, tval := BitVec.ofNat 64 p.va, slots := 0, due := h.coreT core }] }),
          modPart id i (fun q => { q with st := 8 }),
          modAcc id (fun a => { a with fail := a.fail ||| (2 ^ bitData), nfail := a.nfail + 1 })] h
      else
        let old := readNat h p.pa p.len
        Act.all [
          Act.when p.code (noteCode (pkgOfCore core) a.img (rangeFrom p.pa p.len)),
          writeMem (writeNat p.pa p.len (amoNew op bits old (b.toNat % 2 ^ bits) (e.toNat % 2 ^ bits))),
          modPart id i (fun q => { q with st := 4, fill := false, rdata := leBytes p.len old }),
          replyPart id i] h
    | _ => []

def execAtomicExecution (s : State) : Host.Outcome State Fault Refusal :=
  match s.ev with
  | .atomicExecution id i => eventAct s (atomicAct id i)
  | _ => eventAct s Act.nil

/-! ### Overdue landings and the freeze watchdog (R377, R432, R433) -/

/-- The cause of an overdue access. -/
def overdueCode (a : Access) : Nat :=
  match a.kind with
  | .load _ _ _ => 0x6A
  | .amo _ _ _ _ _ => 0x6A
  | .vload _ _ => 0x6B
  | .tload _ _ _ _ _ => 0x6C
  | .tdec _ _ _ _ => 0x6D
  | .nrecv _ _ _ _ => 0x6F
  | _ => 0x6E

/-- Has the core been frozen for n ck? -/
def frozenFor (h : Hw) (core n : Nat) : Bool :=
  let co := h.core core
  decide (co.frzFrom ≠ 0) && decide (co.frzFrom + n ≤ h.glob.now + 1)

/-- The access of seat k that is 2^20 ck late, if there is one. -/
def overdueAcc (h : Hw) (k : Nat) : Option Nat :=
  if frozenFor h (coreOf k) (2 ^ 20) then (lackOf h k (h.coreT (coreOf k))).head? else none

/-- A landing that is waited for starts again at the ck it had reached. -/
def rebaseLanding (core id t : Nat) : Act := modCore core (fun co => { co with landings := co.landings.map (fun l =>
  if l.acc = id ∧ !l.held ∧ l.due < t then { l with done := l.done + (t - l.due), len := l.len - (t - l.due), due := t } else l) })

/-- LANDING_OVERDUE: the seat is charged and keeps the awaited entry at offset 0. -/
def overdueAct (k id : Nat) : Act := fun h =>
  match h.acc? id with
  | none => []
  | some a => Act.all [
      freezeNow (coreOf k), rebaseLanding (coreOf k) id (h.coreT (coreOf k)),
      modAcc id (fun a => { a with overdue := true }),
      trapEntry k [{ code := overdueCode a, tval := 0, slots := 0 }]] h

def execLandingOverdue (s : State) : Host.Outcome State Fault Refusal :=
  match s.ev with
  | .landingOverdue k id => eventAct s (overdueAct k id)
  | _ => eventAct s Act.nil

/-- Is the watchdog of a core due? -/
def freezeDue (h : Hw) (core : Nat) : Bool := frozenFor h core (2 ^ 22) && coreLacks h core

/-- FREEZE_WATCHDOG: the seats whose entries are due are charged, seat 0 first. -/
def freezeAct (core : Nat) : Act := fun h =>
  let t := h.coreT core
  let ks := [2 * core, 2 * core + 1].filter (fun k => !(lackOf h k t).isEmpty)
  Act.all [
    freezeNow core,
    Act.each ks (fun k => Act.all [
      Act.each (lackOf h k t) (fun id => Act.all [rebaseLanding core id t, modAcc id (fun a => { a with overdue := true })]),
      trapEntry k [{ code := 0x70, tval := 0, slots := 0 }]])] h

def execFreezeWatchdog (s : State) : Host.Outcome State Fault Refusal :=
  match s.ev with
  | .freezeWatchdog core => eventAct s (freezeAct core)
  | _ => eventAct s Act.nil

/-- Results and landings that wait for one access wait for another. -/
def renameAcc (k old new : Nat) : Act :=
  let sub := fun (p : Pend) => if p.acc = some old then { p with acc := some new } else p
  Act.all [
    modSeat k (fun s => { s with pend := s.pend.map sub, captured := s.captured.map sub }),
    modCore (coreOf k) (fun co => { co with landings := co.landings.map (fun l => if l.acc = old then { l with acc := new } else l) })]

/-- A fresh access in the place of an old one, whose late reply finds nothing. -/
def freshAcc (k old : Nat) (a : Access) : Act := withId (fun id => Act.all [
  putAcc id { a with overdue := false }, renameAcc k old id, dropAcc old,
  Act.each (List.range a.parts.length) (fun i =>
    if (a.parts.getD i {}).st = 0 then startWalk (coreOf k) id i
    else if (a.parts.getD i {}).st = 7 then sendPart id i else Act.nil)])

/-- On resumption the overdue requests that may be made again are made again; the others wait on (R432). -/
def reissueOver (k : Nat) : Act := Act.look (fun h =>
  Act.each ((seatAccs h k).filter (fun e => e.2.overdue)) (fun e =>
    let a := e.2
    match a.kind with
    | .load _ _ _ => freshAcc k e.1 { a with parts := a.parts.map (fun p => { p with st := 0, fill := false, redo := false }) }
    | .vload _ _ => freshAcc k e.1 { a with parts := a.parts.map (fun p => { p with st := 0, fill := false, redo := false }) }
    | .tload _ _ _ _ none => freshAcc k e.1 { a with parts := a.parts.map (fun p => { p with st := 7 }) }
    | .tdec _ _ _ none => freshAcc k e.1 { a with
        parts := (a.parts.filter (fun p => p.off % 65536 == 0 && decide (p.off < 2 ^ 26) && decide (a.gst.getD (p.off / 65536) 0 < 3))).map (fun p => { p with st := 7 }),
        gst := a.gst.map (fun g => if g < 3 then 0 else g) }
    | _ => modAcc e.1 (fun a => { a with overdue := false })))

/-! ### Deferred causes (R386, R423) -/

/-- The causes of a seat that are due. -/
def dueCauses (h : Hw) (k : Nat) : List Cause :=
  (h.seat k).pendCause.filter (fun c => decide (c.due ≤ h.coreT (coreOf k)))

/-- DEFERRED_CAUSE_CHARGE: causes of class N or C are recorded; the others take the exception. (DEDUCED, log 13) -/
def deferredAct (k : Nat) : Act := fun h =>
  let cs := dueCauses h k
  let soft := cs.filter (fun c => recov c.code == .n || recov c.code == .c)
  let hard := cs.filter (fun c => !(recov c.code == .n || recov c.code == .c))
  Act.all [
    modSeat k (fun s => { s with pendCause := s.pendCause.filter (fun c => !cs.contains c) }),
    Act.each soft (noteSeat k),
    Act.when (!hard.isEmpty) (trapEntry k hard)] h

def execDeferredCauseCharge (s : State) : Host.Outcome State Fault Refusal :=
  match s.ev with
  | .deferredCauseCharge k => eventAct s (deferredAct k)
  | _ => eventAct s Act.nil

end Sys2Proof.Machine
end

