-- ==== Sys2Proof/Machine/Fabric.lean ====
section
/-! DEFINITION. The shared units of the fabric: cache slices (R116, R315), memory controllers (R316, R317), mesh routers
and multicast trees (R318, R319, R327 to R332), the banks of the tile stores (R313, R314), and what arrives at a core or cluster from elsewhere (R145, R153, R262, R300, R308, R407, R450). -/

namespace Sys2Proof.Machine

/-! ### Cache slices (R116, R315) -/

/-- Is a miss of the line on its way from memory? -/
def missPending (h : Hw) (line : Nat) : Bool :=
  h.accs.any (fun a => a.2.parts.any (fun p => p.st == 3 && !p.ms && lineOf p.pa == line))

/-- A store, an atomic or a load with .b of the flat path, which keep issue order at a line (R146). -/
def Access.inOrder (a : Access) : Bool :=
  match a.kind with
  | .store => true
  | .vstore => true
  | .amo _ _ _ _ _ => true
  | .load _ _ _ => a.bypass
  | .vload _ _ => a.bypass
  | _ => false

/-- Does an access come from the flat path of a seat at all? -/
def Access.flat (a : Access) : Bool :=
  a.inOrder || (match a.kind with | .load _ _ _ => true | .vload _ _ => true | _ => false)

/-- Has a seat an older access to the line that its access `id` must not pass (R146, R201)? Every flat access follows the older stores
and atomics; stores, atomics and .b loads follow the older .b loads too. -/
def olderOpen (h : Hw) (id line : Nat) : Bool :=
  match h.acc? id with
  | none => false
  | some a => a.flat && h.accs.any (fun b => decide (b.1 < id) && b.2.seat == a.seat && b.2.inOrder && (b.2.kind.writes || a.inOrder) &&
      b.2.parts.any (fun p => (p.st == 1 || p.st == 3) && lineOf p.pa == line))

/-- Can a request be served in this ck: a hit that no fill of its line precedes, or a miss with room in the queue, and in its seat's
order at the line? The read of a table by a walk costs what a hit does (R312). -/
def sliceCan (h : Hw) (cl : Nat) (r : SliceReq) : Bool :=
  (decide (walkPartNo ≤ r.part) && !(match h.acc? r.acc with | some a => a.isStream | none => false)) ||
  (!missPending h r.line && (sliceHas h cl r.line || !mcFull h (64 * r.line)) && !olderOpen h r.acc r.line)

/-- The order of one port's requests (R315). -/
def reqBefore (x y : SliceReq) : Bool :=
  decide (x.arrived < y.arrived) || (x.arrived == y.arrived &&
    (decide (x.src < y.src) || (x.src == y.src && (!x.seat && y.seat))))

/-- The oldest request of a port for a bank that has arrived by a ck. -/
def portHead (now : Nat) (l : List SliceReq) (bank port : Nat) : Option SliceReq :=
  match l.filter (fun r => decide (r.arrived ≤ now) && r.port == port && r.line % 4 == bank) with
  | [] => none
  | r :: t => some (t.foldl (fun b x => if reqBefore x b then x else b) r)

/-- The port a bank serves now: the first at or after its pointer with a request that can be served. Each bank takes a port's requests for
it in their own order, and passes a port whose oldest one cannot be served. (DEDUCED, log 73) -/
def slicePick (h : Hw) (cl bank : Nat) : Option SliceReq :=
  let x := h.cluster cl
  let p0 := SMap.get 0 x.sliceRR bank
  (List.range 10).findSome? (fun d => match portHead h.glob.now x.sliceQ bank ((p0 + d) % 10) with
    | none => none
    | some r => if sliceCan h cl r then some r else none)

/-- Has a bank something to do in this ck? -/
def sliceDue (h : Hw) (cl bank : Nat) : Bool :=
  decide (SMap.get 0 (h.cluster cl).sliceAt bank ≤ h.glob.now) && (slicePick h cl bank).isSome

/-- A line of a tensor that a collective engine reads or writes (part 1) is served: a miss enters the pseudo-channel in class 3 (R316). -/
def engineServe (cl : Nat) (r : SliceReq) : Act := fun h => Act.all [
  Act.when (!sliceHas h cl r.line) (pushMem (64 * r.line) { cls := 3, acc := 0, part := 0, line := r.line, slice := cl, at_ := h.glob.now }),
  slicePut cl r.line (decide (r.part = 1))] h

/-- SLICE_REQUEST: a hit performs; a miss goes to memory (R312, R315); the entry of a walk goes back to its walker. -/
def sliceAct (cl bank : Nat) : Act := fun h =>
  match slicePick h cl bank with
  | none => []
  | some r =>
    Act.all [
      modCluster cl (fun x => { x with
        sliceQ := x.sliceQ.erase r, sliceRR := SMap.set 0 x.sliceRR bank ((r.port + 1) % 10),
        sliceAt := SMap.insert x.sliceAt bank (h.glob.now + 1) }),
      (match h.acc? r.acc with
        | none =>
          if r.acc = 0 then engineServe cl r
          else Act.when (decide (walkPartNo ≤ r.part)) (schedule h.glob.now (.pageWalkComplete r.acc (r.part - walkPartNo)))
        | some a =>
          if a.isStream then Act.all [Act.when (sliceHas h cl r.line) (slicePut cl r.line false), streamServe cl r (sliceHas h cl r.line)]
          else if walkPartNo ≤ r.part then Act.all [lineRead (64 * r.line),
            sendTo cl 8 (domCl r.src) (r.src % 8) 10 none r.acc (.event (.lateDataArrival r.acc r.part))]
          else if sliceHas h cl r.line then Act.all [slicePut cl r.line (dirties a), performPart r.acc r.part]
          else
            let p := a.parts.getD r.part {}
            Act.all [modPart r.acc r.part (fun q => { q with st := 3 }),
              pushMem p.pa { cls := if a.pkg = cl / 144 then 2 else 3, acc := r.acc, part := r.part, line := r.line, slice := cl, at_ := h.glob.now }])] h

def execSliceRequest (s : State) : Host.Outcome State Fault Refusal :=
  match s.ev with
  | .sliceRequest cl bank => eventAct s (sliceAct cl bank)
  | _ => eventAct s Act.nil

/-! ### Memory controllers (R316, R317) -/

/-- The rank of an entry: refresh class and class 1, then compute and communication by R317, then residency; a residency entry ranks as
compute while a seat waits on its layer, or a demand on its slots. -/
def mcRank (h : Hw) (hi : Bool) (r : MemReq) : Nat :=
  match r.cls with
  | 0 => 0
  | 1 => 1
  | 2 => 3
  | 3 => if hi then 2 else 4
  | _ => match h.acc? r.acc with
    | none => 5
    | some a =>
      let p := h.pkg a.scPkg
      let key := a.layer.getD 0
      let e := SMap.get {} p.layers key
      if e.st = LayerSt.evicting then
        (if p.layers.any (fun x => x.2.demandAt.isSome && x.2.st == LayerSt.absent && decide ((freeSlots p).length < slotNeed p x.2)) then 3 else 5)
      else if h.seats.any (fun s => match s.2.wait with | .lacq m l _ => 1024 * m + l == key | _ => false) then 3 else 5

/-- May an entry issue: no older entry of its line stands before it, and none of its class? -/
def mcIssuable (l : List MemReq) (n : Nat) (r : MemReq) : Bool :=
  (l.take n).all (fun x => x.line != r.line && x.cls != r.cls)

/-- Communication above compute (R317). -/
def mcHigh (h : Hw) (key : Nat) : Bool :=
  let p := h.pkg (key / 768)
  let n := ((SMap.get [] h.glob.mcq key).filter (fun r => r.cls == 3)).length
  if SMap.get 0 h.glob.mcHi key = 1 then decide (p.cl < n) else decide (p.ch ≤ n)

/-- The entry that a controller issues now. -/
def mcPick (h : Hw) (key : Nat) : Option MemReq :=
  let l := SMap.get [] h.glob.mcq key
  let hi := mcHigh h key
  match (l.zipIdx.filter (fun e => mcIssuable l e.2 e.1)).map (·.1) with
  | [] => none
  | r :: t => some (t.foldl (fun b x => if mcRank h hi x < mcRank h hi b then x else b) r)

/-- Does a slice port hold a miss for a full queue? -/
def sliceHolds (h : Hw) (key : Nat) : Bool :=
  (stackCls (key % 768 / 64)).any (fun c => (h.cluster (144 * (key / 768) + c)).sliceQ.any (fun r =>
    decide (r.arrived ≤ h.glob.now) && mcKey (64 * r.line) == key && !sliceHas h (144 * (key / 768) + c) r.line))

/-- A freed entry goes to the held request of the highest class, the slices' own misses being of the compute class (R317). -/
def mcAdmit (key : Nat) : Act := fun h =>
  let hi := mcHigh h key
  match SMap.get [] h.glob.mcWait key with
  | [] => []
  | x :: t =>
    let r := t.foldl (fun b x => if mcRank h hi x < mcRank h hi b then x else b) x
    if 64 ≤ (SMap.get [] h.glob.mcq key).length ∨ (3 < mcRank h hi r ∧ sliceHolds h key) then []
    else modGlob (fun g => { g with
      mcWait := SMap.set [] g.mcWait key ((x :: t).erase r),
      mcq := SMap.insert g.mcq key (mcInsert { r with at_ := g.now } (SMap.get [] g.mcq key)) }) h

/-- Has a controller something to do in this ck? -/
def mcDue (h : Hw) (key : Nat) : Bool := decide (SMap.get 0 h.glob.mcAt key ≤ h.glob.now) && (mcPick h key).isSome

/-- MEMORY_CONTROLLER_ISSUE: one entry per ck; its data is there 110 ck later (R312). -/
def mcAct (key : Nat) : Act := fun h =>
  match mcPick h key with
  | none => []
  | some r =>
    let hi := mcHigh h key
    Act.all [
      modGlob (fun g => { g with
        mcq := SMap.set [] g.mcq key ((SMap.get [] g.mcq key).erase r), mcAt := SMap.insert g.mcAt key (g.now + 1),
        mcHi := SMap.set 0 g.mcHi key (if hi then 1 else 0) }),
      Act.when (r.acc != 0) (after 110 (.lateDataArrival r.acc r.part)), mcAdmit key] h

def execMemoryControllerIssue (s : State) : Host.Outcome State Fault Refusal :=
  match s.ev with
  | .memoryControllerIssue st pc => eventAct s (mcAct (64 * st + pc))
  | _ => eventAct s Act.nil

/-! ### The mesh (R318, R319, R327 to R331, R449) -/

/-- The packets in flight in a package: cluster and packet. -/
def flying (h : Hw) (pk : Nat) : List Packet :=
  (h.clusters.filter (fun c => c.1 / 144 == pk)).flatMap (fun c => c.2.pkts)

/-- Was packet x injected before y by one cluster? Of the replicas of one packet, the one with the lowest destination goes first (R331). -/
def injBefore (x y : Packet) : Bool :=
  decide (x.born < y.born) || (x.born == y.born && (decide (x.seq < y.seq) || (x.seq == y.seq && decide (x.dst < y.dst))))

/-- The golden packet of a package (R319). -/
def goldenPkt (h : Hw) (pk : Nat) : Option Packet :=
  let p := h.pkg pk
  if !rtrWorks p p.golden || p.fenced.contains (12 * pk + stackOfCl p.golden) then none
  else match (flying h pk).filter (fun q => q.src == p.golden) with
    | [] => none
    | q :: r => some (r.foldl (fun b x => if injBefore x b then x else b) q)

/-- Is an output of a router usable? -/
def portWorks (p : Pkg) (cl dir : Nat) : Bool :=
  match nbrCl cl dir with
  | none => false
  | some n => rtrWorks p n && !p.failedRtr.contains n && !p.failedRtr.contains cl

/-- Arbitration order at a router (R318). -/
def pktBefore (g : Option Packet) (x y : Packet) : Bool :=
  if g = some x then true else if g = some y then false
  else decide (x.born < y.born) || (x.born == y.born && (decide (x.src < y.src) || (x.src == y.src &&
    (decide (x.inDir < y.inDir) || (x.inDir == y.inDir && decide (x.dst < y.dst))))))

def pktInsert (g : Option Packet) (x : Packet) : List Packet → List Packet
  | [] => [x]
  | y :: r => if pktBefore g x y then x :: y :: r else y :: pktInsert g x r

/-! ### Multicast trees (R332) -/

/-- The branch of a subtree on which a cluster lies, seen from a router: 0 west, 1 east, 2 north, 3 south, 4 here. A replica goes along its
row first. -/
def branchOf (cl c : Nat) : Nat :=
  if c % 12 < cl % 12 then 0 else if cl % 12 < c % 12 then 1 else if c / 12 < cl / 12 then 2 else if cl / 12 < c / 12 then 3 else 4

/-- The replicas that part at a router: one for each branch, and single packets where the branch begins at a router that does not work. -/
def splitAt (p : Pkg) (cl : Nat) (x : Packet) : List Packet :=
  if x.subs.isEmpty then [x]
  else [0, 1, 2, 3, 4].flatMap (fun b =>
    let l := x.subs.filter (fun e => branchOf cl e.1 == b)
    if l.isEmpty then [] else if b = 4 ∨ !portWorks p cl b then l.map (fun e => x.for [e]) else [x.for l])

/-- The productive ports of a packet: a replica's is that of its branch. -/
def portsFor (p : Pkg) (cl : Nat) (x : Packet) : List Nat :=
  if x.subs.isEmpty then productive p cl x.dst else [branchOf cl x.dst]

/-- The output that a packet takes: 4 ejection, else a productive port, else the first free one; none when every port is
taken. `used` are the ports already taken. -/
def pktPort (p : Pkg) (cl : Nat) (used : List Nat) (x : Packet) : Option Nat :=
  let free := (List.range 4).filter (fun d => portWorks p cl d && !used.contains d)
  if x.dst = cl ∧ x.subs.isEmpty ∧ !used.contains 4 then some 4
  else match (portsFor p cl x).find? (fun d => free.contains d) with
    | some d => some d
    | none => free.head?

/-- Move a packet over a port. -/
def hop (pk cl dir : Nat) (x : Packet) : Act := fun h =>
  match nbrCl cl dir with
  | none => []
  | some n =>
    let t := h.glob.now + 2 + (if isBridge cl n then 8 else 0)
    modCluster (144 * pk + n) (fun c => { c with pkts := c.pkts ++ [{ x with ready := t, inDir := oppDir dir }] }) h

/-- Must a packet wait at its unit for an earlier one of its source and line (R330), still on its way or held there? -/
def mustHold (h : Hw) (pk cl : Nat) (x : Packet) : Bool :=
  x.line.isSome && ((flying h pk ++ (h.cluster (144 * pk + cl)).held).any (fun y =>
    y.src == x.src && y.line == x.line && y.dst == x.dst && y.du == x.du && injBefore y x))

/-- Abort an instance for a loss in the fabric. -/
def lossAbort (inst unit code : Nat) : Act := after 1 (.ext (.instanceAbort inst (abortStatus unit code)))

/-- A lost flag operation, or the node that a lost SIGNAL named, is charged: its instance goes (R416); TVAL is the number named (R403). -/
def loseNamed (e : Event) : Act := fun h =>
  match e with
  | .remoteFlagArrival m =>
    (match h.acc? m.acc with
      | none => Act.nil
      | some a => Act.all [
          record (domDie (coreOf a.seat)) (seatRec h a.seat { code := 0x12B, tval := BitVec.ofNat 64 m.flag, slots := 0 } 0 0),
          lossAbort (h.seat a.seat).inst (coreOf a.seat) 0x12B]) h
  | .signalCounted inst node _ => Act.all [
      record (4 * (h.inst inst).pkg) { code := 0x12F, tval := BitVec.ofNat 64 node, unitk := 6, unit := 4 * (h.inst inst).pkg,
                                       inst := (h.inst inst).num },
      lossAbort inst (4 * (h.inst inst).pkg) 0x12F] h
  | _ => []

/-- A packet is lost: DRAIN reports LINK (R448); with a flag operation or a SIGNAL its instance goes (R416). -/
def losePkt (x : Packet) : Act := Act.all [
  (match x.deliver with | .event e => loseNamed e | _ => Act.nil), loseAccess x.acc bitLink]

/-- A beat is at the Stehayth port by which it leaves; where the port has failed meanwhile, it goes on to another of its candidates (R460). -/
def atPort (pk : Nat) (x : Packet) : Act := Act.look (fun h =>
  let p := h.pkg pk
  if p.linkDown.contains x.port then
    match x.out with
    | [] => Act.nil
    | (dc, d) :: _ => match hashPort h pk (dc / 144) (hashOf x.line d) with
      | none => losePkt x
      | some port => putPackets (144 * pk + portCl x.port) [({ x with src := portCl x.port, su := 13, legs := 0, begun := false } : Packet).via p port x.out]
  else joinLink pk x.port x)

/-- A beat is at its unit (R327): a single one delivers; of several, the first where the message takes effect as it comes, else the last. -/
def beatArrives (k : Nat) (x : Packet) : Act := if !x.out.isEmpty then atPort (k / 144) x else Act.look (fun h =>
  let go := atUnit k (h.glob.now + x.delay) x.deliver
  let n := SMap.get 0 (h.cluster k).asm x.msg + 1
  if x.beats ≤ 1 then go
  else Act.all [
    modCluster k (fun c => { c with asm := if n = x.beats && !x.deliver.streams then SMap.erase c.asm x.msg else SMap.insert c.asm x.msg n }),
    Act.when (n == if x.deliver.streams then 1 else x.beats) go])

/-- Packets that a unit held go on in their order once nothing earlier is on its way. -/
def releaseHeld (pk cl : Nat) : Act := Act.look (fun h =>
  let first := (h.cluster (144 * pk + cl)).held.foldl (fun l x => l.filter (fun y => injBefore y x) ++ [x] ++ l.filter (fun y => !injBefore y x)) []
  Act.each first (fun x => Act.look (fun h => Act.when (!mustHold h pk cl x) (Act.all [
    modCluster (144 * pk + cl) (fun c => { c with held := c.held.erase x }), beatArrives (144 * pk + cl) x]))))

/-- A packet is ejected to its unit. -/
def eject (pk cl : Nat) (x : Packet) : Act := Act.look (fun h =>
  if mustHold h pk cl x then modCluster (144 * pk + cl) (fun c => { c with held := c.held ++ [x] })
  else Act.all [beatArrives (144 * pk + cl) x, releaseHeld pk cl])

/-- A packet without a route is dropped and counted (R393: reason 2). -/
def dropPkt (pk cl : Nat) (x : Packet) : Act := Act.look (fun h => Act.all [
  record (4 * pk + dieOfCl cl) { code := 0x152, unitk := 3, unit := 144 * pk + cl },
  if isFenced h (144 * pk + x.dst) then loseAccess x.acc bitReset else losePkt x])

/-- Give ports to the packets at a router, in order; answers what it does and the ports taken. -/
def routeAll (p : Pkg) (pk cl : Nat) : List Packet → List Nat → List Act × List Nat
  | [], used => ([], used)
  | x :: r, used =>
    if x.dst ≠ cl ∧ x.subs.isEmpty ∧ (distOf p cl x.dst).isNone then
      let q := routeAll p pk cl r used
      ([modCluster (144 * pk + cl) (fun c => { c with pkts := c.pkts.erase x }), dropPkt pk cl x] ++ q.1, q.2)
    else match pktPort p cl used x with
      | none => routeAll p pk cl r used
      | some d =>
        let q := routeAll p pk cl r (d :: used)
        ([modCluster (144 * pk + cl) (fun c => { c with pkts := c.pkts.erase x }),
          if d = 4 then eject pk cl x else hop pk cl d x] ++ q.1, q.2)

/-- The local unit whose turn it is (R318): the slice, the collective engine, then cores 0 to 7. -/
def injUnits : List Nat := [8, 9, 0, 1, 2, 3, 4, 5, 6, 7]
/-- Other units inject with the collective engine. -/
def injUnit (su : Nat) : Nat := if su < 9 then su else 9
def injNext (now : Nat) (l : List Packet) (rr : Nat) : Option (Nat × Packet) :=
  (List.range 10).findSome? (fun d =>
    let i := (rr + d) % 10
    (l.find? (fun x => injUnit x.su == injUnits.getD i 0 && decide (x.ready ≤ now))).map (fun x => (i, x)))

/-- The packets of a cluster that fly: the replicas of a multicast are one packet of their source. -/
def flyingOf (h : Hw) (pk cl : Nat) : Nat :=
  (((flying h pk).filter (fun y => y.src == cl)).map (fun y => y.seq)).foldl (fun l n => if l.contains n then l else n :: l) [] |>.length

/-- The output of each replica of a packet to be injected, on the ports that are free, and the replicas that find none. -/
def injPorts (p : Pkg) (cl : Nat) : List Packet → List Nat → List (Packet × Nat) × List Packet
  | [], _ => ([], [])
  | x :: r, used => match pktPort p cl used x with
    | none => let q := injPorts p cl r used; (q.1, x :: q.2)
    | some d => let q := injPorts p cl r (d :: used); ((x, d) :: q.1, q.2)

/-- Inject one local packet onto a free port, while fewer than 64 of the cluster's packets fly (R330); of a multicast, each replica that
parts here takes a port of its own, and those that find none wait (R332). A reduction packet counts as injected when it was formed (R331). -/
def inject (pk cl : Nat) (used : List Nat) : Act := fun h =>
  let p := h.pkg pk
  let k := 144 * pk + cl
  let c := h.cluster k
  match injNext h.glob.now c.inj c.injRR with
  | none => []
  | some (i, x) =>
    if 64 ≤ flyingOf h pk cl && !x.begun then []
    else
      let born := h.cycle pk - match x.deliver with | .event (.reductionPacketArrival _) => h.glob.now - x.ready | _ => 0
      let y := if x.begun then x else { x with icyc := born % 2 ^ 32, born := born, seq := c.seq }
      let took := fun (l : List Packet) => modCluster k (fun c => { c with inj := l ++ c.inj.erase x, injRR := (i + 1) % 10, seq := if x.begun then c.seq else (c.seq + 1) % 2 ^ 16 })
      if x.subs.isEmpty ∧ (distOf p cl x.dst).isNone then Act.all [took [], dropPkt pk cl x] h
      else
        let q := injPorts p cl (splitAt p cl y) (4 :: used)
        if q.1.isEmpty then [] else Act.all [
          took (q.2.map (fun z => { z with begun := true })), Act.each q.1 (fun z => hop pk cl z.2 z.1)] h

/-- Has a router something to do in this ck? -/
def routeDue (h : Hw) (k : Nat) : Bool :=
  let c := h.cluster k
  decide (c.routedAt ≤ h.glob.now) && (c.inj.any (fun x => decide (x.ready ≤ h.glob.now)) || c.pkts.any (fun x => decide (x.ready ≤ h.glob.now)) || !c.held.isEmpty)

/-- PACKET_ROUTE: one ck of one router. -/
def routeAct (k : Nat) : Act := fun h =>
  let pk := k / 144
  let cl := k % 144
  let p := h.pkg pk
  let g := goldenPkt h pk
  let there := fun (x : Packet) => decide (x.ready ≤ h.glob.now)
  let here := ((h.cluster k).pkts.filter there).flatMap (splitAt p cl)
  let r := routeAll p pk cl (here.foldl (fun l x => pktInsert g x l) []) []
  Act.all [
    modCluster k (fun c => { c with routedAt := h.glob.now + 1, pkts := c.pkts.filter (fun x => !there x) ++ here }), Act.all r.1, releaseHeld pk cl, inject pk cl r.2] h

def execPacketRoute (s : State) : Host.Outcome State Fault Refusal :=
  match s.ev with
  | .packetRoute k => eventAct s (routeAct k)
  | _ => eventAct s Act.nil

/-- The golden cluster of a ck (R319). -/
def goldenOf (cycle : Nat) : Nat := cycle / 1024 % 144

/-- GOLDEN_EPOCH. -/
def execGoldenEpoch (s : State) : Host.Outcome State Fault Refusal :=
  match s.ev with
  | .goldenEpoch pk => eventAct s (Act.look (fun h => modPkg pk (fun p => { p with golden := goldenOf (h.cycle pk) })))
  | _ => eventAct s Act.nil

/-! ### Stehayth links (R338, R339) -/

/-- Where the link of a port leads: a package and a port there. -/
def wireOf (p : Pkg) (port dst : Nat) : Nat × Nat := ((p.wires.find? (fun w => w.1 == port)).map (fun w => w.2)).getD (dst, port)

/-- A beat comes out of a link at a port of package `q`, in ck `t`: it goes on through the mesh to its units, or, where this is an intermediate
package, to the port for the next one (R339). -/
def offLink (q port t : Nat) (x : Packet) : Act := Act.look (fun h =>
  let k := 144 * q + portCl port
  let y : Packet := { x with src := portCl port, su := 13, begun := false, icyc := 0, born := 0, ready := t, inDir := 4 }
  match x.out with
  | [] => Act.nil
  | (dc, d) :: _ =>
    if dc / 144 = q then
      let z := ({ y with out := [], du := x.outDu } : Packet).for x.out
      if z.subs.isEmpty ∧ z.dst = portCl port then beatArrives k { z with delay := z.delay + (t - h.glob.now) } else putPackets k [z]
    else match hashPort h q (dc / 144) (hashOf x.line d) with
      | none => Act.all [record (4 * q) { code := 0x156, unitk := 8, unit := dc / 144 }, losePkt x]
      | some p2 => putPackets k [({ y with legs := 0 } : Packet).via (h.pkg q) p2 x.out])

/-- The queue that a port serves now, and its beat (R338). -/
def linkPick (now : Nat) (l : LinkPort) : Option (Nat × Packet) :=
  if now < l.free then none else (List.range 5).findSome? (fun d =>
    let i := (l.rr + d) % 5
    (l.q.find? (fun x => linkQueue x.deliver == i && decide (x.ready ≤ now))).map (fun x => (i, x)))

/-- The ck that a beat spends on a link: a crossing without its mesh legs. -/
def overLink (h : Hw) (q port : Nat) (x : Packet) : Nat :=
  crossCk - x.legs - (match x.out with | [] => 0 | (dc, _) :: _ => if dc / 144 = q then routeCk (h.pkg q) (portCl port) (dc % 144) else 0)

/-- One ck of the Stehayth ports of a package: a beat leaves, and those that have crossed come out at the start of the next ck. -/
def linkTick (pk : Nat) : Act := Act.look (fun h =>
  let p := h.pkg pk
  let now := h.glob.now
  Act.each p.links (fun e =>
    let wire := fun (x : Packet) => wireOf p e.1 ((x.out.headD (0, x.deliver)).1 / 144)
    let put := fun (l : LinkPort) => modPkg pk (fun p => { p with links := SMap.insert p.links e.1 l })
    let l : LinkPort := match linkPick now e.2 with
      | none => e.2
      | some (i, x) => { e.2 with q := e.2.q.erase x, rr := (i + 1) % 5, free := now + linkCk x.len,
                                  fly := e.2.fly ++ [{ x with ready := now + overLink h (wire x).1 (wire x).2 x }] }
    let out := l.fly.filter (fun x => decide (x.ready ≤ now + 1))
    Act.all [
      Act.when (e.2.q != [] || e.2.fly != []) (put { l with fly := l.fly.filter (fun x => decide (now + 1 < x.ready)) }),
      Act.each out (fun x => offLink (wire x).1 (wire x).2 (now + 1) x)]))

/-! ### Arrivals at a core -/

/-- Is a seat placed (R407)? -/
def isPlaced (s : Seat) : Bool := s.st != SeatSt.free

/-- A refused arrival writes nothing, records it at the receiving core (TVAL the source), and its refusal goes back to the
sender (R407). -/
def refuseAt (core src id code : Nat) : Act := Act.look (fun h => Act.all [
  record (domDie core) { code := code, tval := BitVec.ofNat 64 src, unit := core },
  modAcc id (fun a => { a with fail := a.fail ||| (2 ^ bitRefused), nfail := a.nfail + 1 }),
  if reachable h (pkgOfCore core) (pkgOfCore src) then
    sendTo (domCl core) (core % 8) (domCl src) (src % 8) 1 none id (.event (.multicastAck id (domCl core)))
  else oneLess id])

/-- A delivery has performed: a multicast returns an acknowledgement (R450), another is done. -/
def delivered (core id : Nat) : Act := Act.look (fun h =>
  match h.acc? id with
  | none => Act.nil
  | some a => if a.sent then after 1 (.multicastAck id (domCl core)) else oneLess id)

/-- Writes in runs that lie in one 256-byte block. -/
def groupBlocks : List (Nat × W64) → List (List (Nat × W64))
  | [] => []
  | w :: r => match groupBlocks r with
    | [] => [[w]]
    | b :: t => if (b.headD w).1 / 32 = w.1 / 32 then (w :: b) :: t else [w] :: b :: t

/-- A message of some bytes begins to arrive at a core: its blocks are written as they come (R142, R145), through the cluster's crossbar one in
each ck, through the mesh two beats each, over a link two of its beats each. (DESIGN CHOICE, log 79) -/
def queueInbound (core bytes : Nat) (words : List (Nat × W64)) (new : Inbound) : Act := fun h => modCore core (fun co =>
  let far := pkgOfCore new.src != pkgOfCore core
  let new := { new with
    blocks := groupBlocks words, next := h.glob.now, gap := if far then 2 * linkCk 128 else 1,
    beats := if far || domCl new.src == domCl core || beatsOf bytes == 1 then 0 else beatsOf bytes }
  let before := fun (x : Inbound) => decide (x.src < new.src) || (x.src == new.src && decide (x.order ≤ new.order))
  { co with inbound := co.inbound.filter before ++ [new] ++ co.inbound.filter (fun x => !before x) }) h

/-- INBOUND_REMOTE_WRITE (R145, R293, R297, R407): bytes, sidecars, then the carried flag operation (R153). -/
def inboundAct (m : InMsg) : Act := fun h =>
  let k := seatKey m.core m.seat
  let s := h.seat k
  if !coreExists h m.core then refuseAt m.core m.src m.acc 0x3C h
  else if !isPlaced s then refuseAt m.core m.src m.acc 0x3E h
  else if s.lrec.gn < m.granule + m.grans then refuseAt m.core m.src m.acc 0x3D h
  else
    let g := physOf s.lrec m.seat .gran m.granule
    let ws := m.words.map (fun e => (512 * g + e.1 / 8, e.2))
    let whole := if m.fillSide then (uniq (ws.map (fun e => e.1 / 512))).filter (fun x => (ws.filter (fun e => e.1 / 512 == x)).length == 512) else []
    queueInbound m.core m.bytes ws { src := m.src, order := m.acc, blocks := [], flag := m.flag,
                                     side := m.side.map (fun e => (g + e.1, e.2)) ++ whole.map (fun x => (x, 0)) } h

def execInboundRemoteWrite (s : State) : Host.Outcome State Fault Refusal :=
  match s.ev with
  | .inboundRemoteWrite m => eventAct s (inboundAct m)
  | _ => eventAct s Act.nil

/-- ACCUMULATE_ARRIVAL (R262, R298): the next staging slot of the open window takes the image. Its place among the arrivals of its source core
is that of its access, whose numbers rise in issue order. (DEDUCED, log 82) -/
def accArrives (m : AccMsg) : Act := fun h =>
  let k := seatKey m.core m.seat
  let co := h.core m.core
  if !isPlaced (h.seat k) then refuseAt m.core m.src m.acc 0x3E h
  else match co.windows.find? (fun w => w.seat == m.seat && w.acc == m.win && decide (w.opens ≤ h.glob.now)) with
    | none => refuseAt m.core m.src m.acc 0x3F h
    | some w =>
      let n := w.arr.length
      if w.e ≤ n then refuseAt m.core m.src m.acc 0x3F h
      else Act.all [
        queueInbound m.core 32768 (m.words.map (fun e => (512 * (w.gran + 8 * n) + e.1, e.2)))
          { src := m.src, order := m.acc, blocks := [], side := [], flag := m.flag, win := some (m.seat, m.win) },
        modCore m.core (fun co => { co with windows := co.windows.map (fun x =>
          if x = w then { x with arr := x.arr ++ [(m.src, m.acc, n)] } else x) })] h

def execAccumulateArrival (s : State) : Host.Outcome State Fault Refusal :=
  match s.ev with
  | .accumulateArrival m => eventAct s (accArrives m)
  | _ => eventAct s Act.nil

/-! ### The banks of a tile store (R313, R314) -/

/-- A request for banks in this ck: its place in the order, its banks, and whether it is that of inbound message `ix` or of use `ix`. -/
structure Asker where
  key : Nat
  mask : Nat
  inb : Bool
  ix : Nat

/-- Has the next block of a message come? -/
def Inbound.here (x : Inbound) (h : Hw) (core : Nat) : Bool :=
  decide (x.next ≤ h.glob.now) && decide (min x.beats (2 * (x.written + 1)) ≤ SMap.get 0 (h.cluster (domCl core)).asm x.order)

/-- The requests at a core's banks in this ck; `on` says that its clock runs. The spill engine's clock is the chip's. -/
def askers (h : Hw) (core : Nat) (on : Bool) : List Asker :=
  let co := h.core core
  let t := h.coreT core
  (co.banks.zipIdx.filter (fun u => if u.1.cls = 7 then decide (u.1.next ≤ h.glob.now) else on && decide (u.1.next ≤ t))).map (fun u =>
    { key := u.1.key, mask := u.1.mask, inb := false, ix := u.2 }) ++
  co.inbound.zipIdx.filterMap (fun x => match x.1.blocks with
    | b :: _ => if x.1.here h core then
        some { key := 12 * 2 ^ 20 + 2 * x.1.src, mask := halfBanks ((b.headD (0, 0)).1 / 32), inb := true, ix := x.2 } else none
    | [] => none)

/-- The requests in the order of R313. -/
def askOrder (l : List Asker) : List Asker :=
  l.foldl (fun l x => l.filter (fun y => decide (y.key ≤ x.key)) ++ [x] ++ l.filter (fun y => !decide (y.key ≤ x.key))) []

/-- Of requests in order, those that find all their banks free, and those that lose one. -/
def serveBanks : List Asker → Nat → List Asker × List Asker
  | [], _ => ([], [])
  | x :: r, taken =>
    if x.mask &&& taken = 0 then let s := serveBanks r (taken ||| x.mask); (x :: s.1, s.2)
    else let s := serveBanks r taken; (s.1, x :: s.2)

/-- What an inbound message does once every byte of it is written: sidecars, its flag operation (R153), its window's arrival, and its
sender hears of it. -/
def inboundDone (core : Nat) (x : Inbound) : Act := Act.all [
  Act.each x.side (fun e => writeSide core e.1 e.2),
  (match x.flag with | none => Act.nil | some (f, a) => flagOpAt core (2 + x.src) f a),
  (match x.win with
    | none => Act.nil
    | some (s, a) => modCore core (fun co => { co with windows := co.windows.map (fun w =>
        if w.seat = s ∧ w.acc = a then { w with here := w.here + 1 } else w) })),
  Act.when (x.beats != 0) (modCluster (domCl core) (fun c => { c with asm := SMap.erase c.asm x.order })),
  delivered core x.order]

/-- One ck of a core's banks: landing writes first, then the requests in order. A message's block is written at the end of the ck (R142). -/
def bankTick (core : Nat) (on : Bool) : Act := Act.look (fun h =>
  let co := h.core core
  Act.when (!co.banks.isEmpty || !co.inbound.isEmpty) (
    let r := serveBanks (askOrder (askers h core on)) (if on then landBanks h core (h.coreT core) else 0)
    let among := fun (l : List Asker) (b : Bool) (i : Nat) => l.any (fun a => a.inb == b && a.ix == i)
    Act.all [
      modCore core (fun co => { co with
        banks := (co.banks.zipIdx.map (fun u => if among r.1 false u.2 then u.1.served else if among r.2 false u.2 then u.1.lost else u.1)).filter
          (fun u => u.left != 0),
        inbound := co.inbound.zipIdx.map (fun x => if among r.1 true x.2 then
          { x.1 with blocks := x.1.blocks.drop 1, written := x.1.written + 1, next := h.glob.now + x.1.gap } else x.1) }),
      Act.each ((co.banks.zipIdx.filter (fun u => among r.2 false u.2)).map (·.1)) (lostUse core),
      Act.each ((co.inbound.zipIdx.filter (fun x => among r.1 true x.2)).map (·.1)) (fun x => writeTile core (x.blocks.headD [])),
      Act.look (fun h => Act.all [
        Act.each ((h.core core).inbound.filter (fun x => x.blocks.isEmpty)) (inboundDone core),
        modCore core (fun co => { co with inbound := co.inbound.filter (fun x => !x.blocks.isEmpty) })])]))

/-- Drop the landing of an access that will not land. -/
def dropLanding (core id : Nat) : Act := modCore core (fun co => { co with landings := co.landings.filter (fun l => l.acc != id) })

/-- Give a buffered message to the oldest NRECV of its seat that waits for one like it; a wrong number of rows is 0x15D
(R299). (DEDUCED, log 20) -/
def nbrMatch (cl : Nat) (m : NbrMsg) : Act := fun h =>
  let k := seatKey m.core m.seat
  let want := (seatAccs h k).find? (fun e => !e.2.arrived && (match e.2.kind with
    | .nrecv _ dir tag _ => dir == m.dir && (match tag with | none => true | some t => t == m.tag)
    | _ => false))
  match want with
  | none => []
  | some (id, a) =>
    match a.kind with
    | .nrecv _ _ _ rows =>
      if rows.length = m.rows.length then nbrTake cl id m h
      else Act.all [dropAcc id, dropLanding m.core id,
        modOwner k (fun s => { s with pendCause := s.pendCause ++ [{ code := 0x15D, tval := 0, slots := 0, due := h.coreT m.core }] })] h
    | _ => []

/-- NEIGHBOUR_MESSAGE_ARRIVAL (R300). -/
def nbrArrives (m : NeighMsg) : Act :=
  let cl := domCl m.core
  let b : NbrMsg := { core := m.core, seat := m.seat, dir := m.dir, tag := m.tag, rows := m.rows }
  Act.all [
    modCluster cl (fun x => { x with nbuf := x.nbuf ++ [b], nres := x.nres.filter (fun r => r.2.1 != m.acc) }),
    oneLess m.acc, nbrMatch cl b]

def execNeighbourMessageArrival (s : State) : Host.Outcome State Fault Refusal :=
  match s.ev with
  | .neighbourMessageArrival m => eventAct s (nbrArrives m)
  | _ => eventAct s Act.nil

/-- Give a buffered carry message to the oldest CYRCV of its seat that waits for its tag. -/
def cyMatch (core : Nat) (m : CarryMsg) : Act := fun h =>
  let want := (seatAccs h (seatKey core m.seat)).find? (fun e => !e.2.arrived && (match e.2.kind with
    | .cyrcv _ _ tag => tag == m.tag
    | _ => false))
  match want with
  | none => []
  | some (id, _) => cyTake core id m h

/-- Abort the instance of a seat, with a record that names the core (class A away from a bundle, R458). -/
def abortSeat (k : Nat) (c : Cause) : Act := Act.look (fun h => Act.all [
  record (domDie (coreOf k)) (seatRec h k c 0 0),
  Act.when (isPlaced (h.seat k)) (after 1 (.ext (.instanceAbort (h.seat k).inst (abortStatus (coreOf k) c.code))))])

/-- CARRY_MESSAGE_ARRIVAL (R308, R458): a full buffer keeps the message on the channel, and what comes behind it; a gap in
the sequence raises 0x19F and keeps the message. -/
def carryArrives (m : CarryMsg) : Act := fun h =>
  let d := domDie m.core
  let die := h.die d
  let co := h.core m.core
  if !die.chanQ.isEmpty && !die.chanOpen then modDie d (fun x => { x with chanQ := x.chanQ ++ [.carryMessageArrival m] }) h
  else if !coreExists h m.core then Act.all [modDie d (fun x => { x with chanOpen := false }),
    refuseAt m.core (coreOf m.src) m.acc 0x3C, chanDrain d] h
  else if 8 ≤ co.carry.length then
    modDie d (fun x => { x with chanQ := .carryMessageArrival m :: x.chanQ, chanOpen := false }) h
  else
    let key := m.src * 2 ^ 16 + m.tag
    Act.all [
      modDie d (fun x => { x with chanOpen := false }),
      modCore m.core (fun co => { co with carry := co.carry ++ [m], carryExp := SMap.set 0 co.carryExp key ((m.seq + 1) % 16) }),
      Act.when (SMap.get 0 co.carryExp key != m.seq) (abortSeat (seatKey m.core m.seat) { code := 0x19F, tval := 0, slots := 0 }),
      oneLess m.acc, cyMatch m.core m, chanDrain d] h

def execCarryMessageArrival (s : State) : Host.Outcome State Fault Refusal :=
  match s.ev with
  | .carryMessageArrival m => eventAct s (carryArrives m)
  | _ => eventAct s Act.nil

/-- MULTICAST_ACK (R450). -/
def execMulticastAck (s : State) : Host.Outcome State Fault Refusal :=
  match s.ev with
  | .multicastAck id _ => eventAct s (oneLess id)
  | _ => eventAct s Act.nil

/-- MULTICAST_ACK_TIMEOUT (R450): TVAL names the destination cluster. -/
def mcTimeout (id : Nat) : Act := fun h =>
  match h.acc? id with
  | none => []
  | some a =>
    if a.left = 0 then []
    else Act.all [
      modOwner a.seat (fun s => { s with pendCause := s.pendCause ++
        [{ code := 0x15B, tval := BitVec.ofNat 64 (domCl (coreOf a.seat) % 144), slots := 0, due := h.coreT (coreOf a.seat) }] }),
      loseAccess id bitLink] h

def execMulticastAckTimeout (s : State) : Host.Outcome State Fault Refusal :=
  match s.ev with
  | .multicastAckTimeout id => eventAct s (mcTimeout id)
  | _ => eventAct s Act.nil

end Sys2Proof.Machine
end

