-- ==== Sys2Proof/Machine/ScanNet.lean ====
section
/-! DEFINITION. The scan networks of the dies (R109, R276, R277, R325, R415, R458, R459): rounds, block carries, and the
carries that land in the seats' slots. -/

namespace Sys2Proof.Machine

/-- An instance is aborted with a record from a shared unit. -/
def abortInst (die inst : Nat) (r : ErrRec) : Act := Act.look (fun h => Act.all [
  record die { r with inst := (h.inst inst).num },
  after 1 (.ext (.instanceAbort inst (abortStatus r.unit r.code)))])

/-- The instance and node of a live group tag of a package (R44, R452). -/
def tagOwner (h : Hw) (lpkg tag : Nat) : Option (Nat × Nat) :=
  ((h.pkg lpkg).tagLive.find? (fun t => t.1 == tag)).map (fun t => t.2)

/-- The record of a die's network: it stands beside the routers. -/
def netRec (die code tag : Nat) : ErrRec :=
  { code := code, unitk := 3, unit := 144 * (die / 4) + attachCl (die % 4), tag := tag }

/-- A group fails in a die's network: the instance of its tag is aborted. -/
def abortGroup (die lpkg tag code : Nat) : Act := Act.look (fun h =>
  match tagOwner h lpkg tag with
  | none => record die (netRec die code tag)
  | some (i, _) => abortInst die i (netRec die code tag))

/-- The ordinals that block b of a group of `size` segments waits for. -/
def blockCount (size b : Nat) : Nat := min 64 (size - 64 * b)

def sameBlock (r : ScanRnd) (tag lpkg round block : Nat) : Bool :=
  r.tag == tag && r.lpkg == lpkg && r.round == round && r.block == block

/-- Has every ordinal of the block submitted? -/
def ScanRnd.full (r : ScanRnd) : Bool :=
  match r.subs with
  | [] => false
  | m :: _ => decide (blockCount m.size r.block ≤ r.subs.length)

/-- A lane of the block carry; an absent one is the identity. -/
def carryLane (l : List (Nat × W32 × W32)) (n : Nat) : SEl :=
  match l.find? (fun e => e.1 == n) with
  | none => .none_
  | some e => { a := e.2.1.toNat, b := e.2.2.toNat }

/-- The tree of R107 over the totals of one lane. -/
def laneTree (r : ScanRnd) (prog : BitVec 128) (n : Nat) : List SEl :=
  treeScan prog ((List.range 64).map (fun o => match r.subs.find? (fun m => m.ord % 64 == o) with
    | none => .none_
    | some m => carryLane m.lanes n))

/-- The lanes that a round carries. -/
def roundLanes (r : ScanRnd) (cb : List (Nat × W32 × W32)) : List Nat :=
  uniq (r.subs.flatMap (fun m => m.lanes.map (fun e => e.1)) ++ cb.map (fun e => e.1))

/-- The trees of every lane of a round. -/
def roundTrees (r : ScanRnd) (prog : BitVec 128) (cb : List (Nat × W32 × W32)) : List (Nat × List SEl) :=
  (roundLanes r cb).map (fun n => (n, laneTree r prog n))

/-- The carry of an ordinal in one lane: combine(C_b, P_o). -/
def segCarry (prog : BitVec 128) (cb : List (Nat × W32 × W32)) (ord n : Nat) (s : List SEl) : SEl :=
  combine prog (carryLane cb n) (if ord % 64 = 0 then .none_ else s.getD (ord % 64 - 1) .none_)

/-- One step of the network's combines takes 2u + 2 ck (R325). -/
def netStep (prog : BitVec 128) : Nat := 2 * microCount prog + 2

/-- A submission's result: its lanes wait for the landing, and are there at ck `at_`. -/
def sendCarry (m : ScanMsg) (l : List (Nat × SEl)) (at_ : Nat) : Act := Act.all [
  modAcc m.acc (fun a => { a with data := l.map (fun e => (e.1, BitVec.ofNat 64 (e.2.a + e.2.b * 2 ^ 32))) }),
  schedule at_ (.lateDataArrival m.acc 0)]

/-- The carry C_(b+1) leaves for the next die (R277, R459). (DEDUCED, log 62) -/
def sendBlock (die : Nat) (r : ScanRnd) (lanes : List (Nat × W32 × W32)) (leave : Nat) : Act := fun h =>
  let ext := decide (die % 4 = 3)
  let m : BlockCarry := { die := 0, tag := r.tag, lpkg := r.lpkg, round := r.round % 16, block := r.block + 1, lanes := lanes }
  if ext && (h.pkg (die / 4)).chain.isNone then abortGroup die r.lpkg r.tag 0x186 h
  else if carryDown h die ext then []
  else schedule leave (.blockCarryArrival { m with die := die, leaves := true }) h

/-- A carry of a die's network takes its slot of the channel: it goes before the seat messages that have not yet left (R307). -/
def blockLeaves (m : BlockCarry) : Act := fun h =>
  let die := m.die
  let ext := decide (die % 4 = 3)
  let now := h.glob.now
  let mine := fun (t : Nat) (e : Event) => match e with
    | .carryMessageArrival c => domDie (coreOf c.src) == die && decide (now + (if pkgOfCore c.core = die / 4 then 32 else 683) ≤ t)
    | _ => false
  let n := (h.glob.agenda.filter (fun e => mine e.1 e.2)).length
  let start := max now ((h.die die).chanFree - 4 * n)
  if carryDown h die ext then []
  else Act.all [
    delayEvents 4 mine, modDie die (fun d => { d with chanFree := max (now + 4 * n) d.chanFree + 4 }),
    schedule (start + (if ext then 675 else 24)) (.blockCarryArrival { m with die := carryNext h die ext, leaves := false })] h

/-- A full block whose C_b is held gives every ordinal its carry and sends C_(b+1) on (R276, R277, R325). -/
def roundDone (die : Nat) (r : ScanRnd) : Act :=
  match r.subs, r.cb with
  | m :: _, some cb =>
    let prog := m.prog
    let st := netStep prog
    let t := roundTrees r prog cb
    let form := max (r.lastAt + 11 * st + 8) r.cbAt + st
    let leave := max (r.lastAt + 6 * st + 8) r.cbAt + st
    let next := t.map (fun e => (e.1, combine prog (carryLane cb e.1) (e.2.getD 63 .none_)))
    let carries := r.subs.map (fun x => (x, (t.filter (fun e => x.lanes.any (fun l => l.1 == e.1))).map (fun e => (e.1, segCarry prog cb x.ord e.1 e.2))))
    Act.all [
      Act.each carries (fun x => sendCarry x.1 x.2 (form + 8)),
      Act.when (decide (64 * (r.block + 1) < m.size))
        (sendBlock die r (next.map (fun e => (e.1, BitVec.ofNat 32 e.2.a, BitVec.ofNat 32 e.2.b))) leave),
      Act.when (next.any (fun e => e.2.rep) || carries.any (fun x => anyRep (x.2.map (fun e => e.2))))
        (noteSeat m.seat { code := 0x5F, tval := 0, slots := 0 }),
      modDie die (fun d => { d with
        rounds := d.rounds.erase r, doneRounds := d.doneRounds ++ [(r.tag, r.round, r.block)] })]
  | _, _ => Act.nil

/-- The slot of a submission of a mismatched block is not written: at its landing cycle its busy bit clears and 0x184 falls
due (R415). -/
def failSub (m : ScanMsg) : Act := Act.look (fun h =>
  let core := coreOf m.seat
  match h.acc? m.acc with
  | none => Act.nil
  | some a =>
    let due : Nat := (((h.core core).landings.filter (fun l => l.acc == m.acc)).map (fun l => l.due)).headD 0
    let item := match a.kind with | .scanRes t _ _ => [itHt t] | _ => []
    Act.all [
      dropAcc m.acc, dropLanding core m.acc, markRd core due item, markWr core due item,
      modOwner m.seat (fun s => { s with pendCause := s.pendCause ++
        [{ code := 0x184, tval := BitVec.ofNat 64 m.ord, slots := 0, due := due }] })])

/-- The round of a submission, open or new; block 0 holds C_0, the identity, from the start. -/
def openRound (h : Hw) (die : Nat) (tag lpkg round block : Nat) : ScanRnd :=
  match (h.die die).rounds.find? (fun r => sameBlock r tag lpkg round block) with
  | some r => r
  | none => { tag := tag, lpkg := lpkg, round := round, block := block, cb := if block = 0 then some [] else none, first := h.glob.now }

/-- Put a round back. -/
def putRound (die : Nat) (r : ScanRnd) : Act := modDie die (fun d => { d with
  rounds := d.rounds.filter (fun x => !sameBlock x r.tag r.lpkg r.round r.block) ++ [r] })

/-- SCAN_SUBMISSION: a stale tag drops it (R452); a mismatch of program, SIZE or ordinal fails the block (R415). (DEDUCED, log 34) -/
def subArrives (die : Nat) (m : ScanMsg) : Act := fun h =>
  let b := m.ord / 64
  if m.tag ≠ 0 ∧ (tagOwner h m.lpkg m.tag).isNone then
    Act.all [record die { netRec die 0x150 m.tag with unitk := 3 },
      modAcc m.acc (fun a => { a with fail := a.fail ||| 2 ^ bitStale, nfail := a.nfail + 1 })] h
  else
    let old := openRound h die m.tag m.lpkg m.round b
    let late := (h.die die).doneRounds.contains (m.tag, m.round, b)
    let clash := late || old.bad || old.subs.any (fun x => x.prog != m.prog || x.size != m.size || x.ord == m.ord)
    let r := { old with subs := old.subs ++ [m], lastAt := h.glob.now, bad := clash }
    Act.all [
      Act.when (old.subs.isEmpty && !late) (after (2 ^ 22) (.scanRoundTimeout die m.tag m.round b)),
      if clash then Act.all [Act.each (if old.bad || late then [m] else r.subs) failSub, Act.when (!late) (putRound die r)]
      else if r.full && r.cb.isSome then Act.all [putRound die r, roundDone die r]
      else putRound die r] h

def execScanSubmission (s : State) : Host.Outcome State Fault Refusal :=
  match s.ev with
  | .scanSubmission d m => eventAct s (subArrives d m)
  | _ => eventAct s Act.nil

/-- The round for which a block's network expects its next C_b: the lowest open one without it, else the one after the
last that is done. -/
def expectRound (d : Die) (tag lpkg block : Nat) : Option Nat :=
  let mine := d.rounds.filter (fun r => r.tag == tag && r.lpkg == lpkg && r.block == block)
  match (mine.filter (fun r => r.cb.isNone)).map (fun r => r.round) with
  | x :: l => some (l.foldl min x)
  | [] => match mine.map (fun r => r.round) ++ (d.doneRounds.filter (fun e => e.1 == tag && e.2.2 == block)).map (fun e => e.2.1) with
    | [] => none
    | x :: l => some (l.foldl max x + 1)

/-- BLOCK_CARRY_ARRIVAL: C_b joins its round (R277); a round other than the one being formed raises 0x187 (R458). -/
def blockArrives (m : BlockCarry) : Act := fun h =>
  if m.leaves then blockLeaves m h else
  let d := h.die m.die
  if !d.chanQ.isEmpty && !d.chanOpen then modDie m.die (fun x => { x with chanQ := x.chanQ ++ [.blockCarryArrival m] }) h
  else
    let want := (expectRound d m.tag m.lpkg m.block).getD m.round
    let go := Act.all [modDie m.die (fun x => { x with chanOpen := false }), chanDrain m.die]
    if want % 16 ≠ m.round % 16 then Act.all [go, abortGroup m.die m.lpkg m.tag 0x187] h
    else
      let r := { openRound h m.die m.tag m.lpkg want m.block with cb := some m.lanes, cbAt := h.glob.now }
      Act.all [go, putRound m.die r,
        Act.when (r.subs.isEmpty && r.first == h.glob.now) (after (2 ^ 22) (.scanRoundTimeout m.die m.tag want m.block)),
        Act.when (r.full && !r.bad) (roundDone m.die r)] h

def execBlockCarryArrival (s : State) : Host.Outcome State Fault Refusal :=
  match s.ev with
  | .blockCarryArrival m => eventAct s (blockArrives m)
  | _ => eventAct s Act.nil

/-- SCAN_ROUND_TIMEOUT (R377, R415): a round still open raises 0x185; the round of a mismatched block, which has raised
0x184, ends quietly. -/
def roundTimeout (die tag round block : Nat) : Act := fun h =>
  match (h.die die).rounds.find? (fun r => r.tag == tag && r.round == round && r.block == block &&
      decide (r.first + 2 ^ 22 ≤ h.glob.now)) with
  | none => []
  | some r => Act.all [
      modDie die (fun d => { d with rounds := d.rounds.erase r }),
      Act.when (!r.bad) (abortGroup die r.lpkg r.tag 0x185)] h

def execScanRoundTimeout (s : State) : Host.Outcome State Fault Refusal :=
  match s.ev with
  | .scanRoundTimeout d t r b => eventAct s (roundTimeout d t r b)
  | _ => eventAct s Act.nil

end Sys2Proof.Machine
end

