-- ==== Sys2Proof/Machine/Collective.lean ====
section
/-! DEFINITION. Collective engines: plans and communicators (R305, R306, R341 to R344), layouts and the exchange they give (R345 to
R349), reduction trees (R333 to R335, R451), chunks on virtual channels (R320, R343), and engine failures (R452, R455 to
R457). An engine takes the images of its sources when a phase starts (R348). -/

namespace Sys2Proof.Machine

/-! ### Layouts (R345, R346) -/

/-- Coordinates of a rank on the axes, or of a flat index on the dimensions: the first is the major one. -/
def coordsOf (sizes : List Nat) (r : Nat) : List Nat :=
  (sizes.foldr (fun s (acc : List Nat × Nat) => ((acc.2 % s) :: acc.1, acc.2 / s)) ([], r)).1

/-- Shard index and shard count of a mask of axes. -/
def shardIdx (mask : Nat) (co ax : List Nat) : Nat × Nat :=
  ((ax.zip co).zipIdx).foldl (fun (q : Nat × Nat) e =>
    if mask.testBit e.2 then (q.1 * e.1.1 + e.1.2, q.2 * e.1.1) else q) (0, 1)

/-- First element of shard q of D shards of an extent. -/
def shardStart (n d q : Nat) : Nat := q * (n / d) + min q (n % d)

/-- The shard of a device: the range of each dimension. -/
def shardBox (b : PlanBlock) (lay : List Nat) (r : Nat) : List (Nat × Nat) :=
  (b.ext.zip lay).map (fun e =>
    let q := shardIdx e.2 (coordsOf b.ax r) b.ax
    (shardStart e.1 q.2 q.1, shardStart e.1 q.2 (q.1 + 1)))

/-- The extents of the largest shard. -/
def ceilExt (b : PlanBlock) (lay : List Nat) : List Nat :=
  (b.ext.zip lay).map (fun e => ceilDiv e.1 (shardIdx e.2 (coordsOf b.ax 0) b.ax).2)

/-- Does a shard hold an element? -/
def inShard (box : List (Nat × Nat)) (x : List Nat) : Bool := (box.zip x).all (fun e => decide (e.1.1 ≤ e.2) && decide (e.2 < e.1.2))
def holds (b : PlanBlock) (lay : List Nat) (r e : Nat) : Bool := inShard (shardBox b lay r) (coordsOf b.ext e)

/-- The elements of a shard in ascending order. -/
def shardElems (b : PlanBlock) (lay : List Nat) (r : Nat) : List Nat :=
  (b.ext.zip (shardBox b lay r)).foldl (fun acc e => acc.flatMap (fun p => (rangeFrom e.2.1 (e.2.2 - e.2.1)).map (fun x => p * e.1 + x))) [0]

/-- Row and column at which a device stores an element. -/
def storePos (b : PlanBlock) (lay : List Nat) (r e : Nat) : Nat × Nat :=
  let loc := ((shardBox b lay r).zip (coordsOf b.ext e)).map (fun q => q.2 - q.1.1)
  let cx := ceilExt b lay
  (((cx.zip loc).dropLast).foldl (fun row q => row * q.1 + q.2) 0, loc.getLastD 0)

/-- A device's coordinates on the axes of a mask. -/
def coordsOn (b : PlanBlock) (mask r : Nat) : List Nat :=
  ((coordsOf b.ax r).zipIdx.filter (fun e => mask.testBit e.2)).map (fun e => e.1)

/-- The devices of the domain of a plan. -/
def memberCount (b : PlanBlock) : Nat := b.ax.foldl (· * ·) 1

/-! ### Exchange derivation (R347) -/

/-- Role of an axis in a layout: d + 2 shards dimension d, 1 partial, 0 replicated. -/
def roleOf (lay : List Nat) (part a : Nat) : Nat :=
  match lay.findIdx? (fun m => m.testBit a) with
  | some d => d + 2
  | none => if part.testBit a then 1 else 0

/-- The layout of a list of roles. -/
def layOf (roles : List Nat) (nd : Nat) : List Nat × Nat :=
  ((List.range nd).map (fun d => bitsOf roles.length (fun a => roles.getD a 0 == d + 2)), bitsOf roles.length (fun a => roles.getD a 0 == 1))

/-- Is an axis that shards d in both layouts steady? -/
def steady (f t : Nat) (na : Nat) : Bool :=
  let k := fun a => f.testBit a && t.testBit a
  [f, t].all (fun m => (List.range na).all (fun a => (List.range na).all (fun c =>
    !(k a && m.testBit c && !k c && decide (c < a)))))

/-- The axes of each kind of phase, in the order of R347's rows; the permutation stands for all its axes. (DEDUCED, log 59) -/
def phaseAxes (b : PlanBlock) : List (List Nat) :=
  let na := b.ax.length
  let fr := roleOf b.flay b.fpart
  let tr := roleOf b.tlay b.tpart
  let pick := fun (g : Nat → Bool) => (List.range na).filter g
  let perm := pick (fun a => decide (2 ≤ fr a) && fr a == tr a && !steady (b.flay.getD (fr a - 2) 0) (b.tlay.getD (tr a - 2) 0) na)
  (pick (fun a => fr a == 1 && decide (2 ≤ tr a))).map (fun a => [a]) ++
  (pick (fun a => fr a == 1 && tr a == 0)).map (fun a => [a]) ++
  (pick (fun a => decide (2 ≤ fr a) && decide (2 ≤ tr a) && fr a != tr a)).map (fun a => [a]) ++
  (if perm.isEmpty then [] else [perm]) ++
  (pick (fun a => decide (2 ≤ fr a) && tr a == 0)).map (fun a => [a])

/-- The phases from a list of roles on: each gives its axes their role under TO. -/
def phasesFrom (b : PlanBlock) : List Nat → List Nat × Nat → List (List Nat) → List PhaseRec
  | _, _, [] => []
  | roles, cur, p :: r =>
    let roles' := roles.zipIdx.map (fun e => if p.contains e.2 then roleOf b.tlay b.tpart e.2 else e.1)
    let nxt := layOf roles' b.ext.length
    { flay := cur.1, fpart := cur.2, tlay := nxt.1, tpart := nxt.2 } :: phasesFrom b roles' nxt r

/-- The phases of a plan: axes replicated in FROM take their TO role in the first; a plan without one is a local phase. -/
def planPhases (b : PlanBlock) : List PhaseRec :=
  let roles := (List.range b.ax.length).map (fun a => let f := roleOf b.flay b.fpart a; if f = 0 then roleOf b.tlay b.tpart a else f)
  match phasesFrom b roles (b.flay, b.fpart) (phaseAxes b) with
  | [] => [{ flay := b.flay, fpart := b.fpart, tlay := b.tlay, tpart := b.tpart }]
  | l => l

/-- Axes that may not pass from FROM to TO: S → P, R → P. -/
def badAxes (b : PlanBlock) : Bool :=
  (List.range b.ax.length).any (fun a => roleOf b.tlay b.tpart a == 1 && roleOf b.flay b.fpart a != 1)

/-! ### Combining (R335) -/

/-- Is a RED field paired with a format? -/
def redOk (red fmt : Nat) : Bool :=
  match red with
  | 0 => true
  | 1 => decide (1 ≤ fmt) && decide (fmt ≤ 4)
  | 2 => decide (1 ≤ fmt) && decide (fmt ≤ 4)
  | 3 => decide (5 ≤ fmt)
  | 4 => decide (1 ≤ fmt)
  | 5 => decide (1 ≤ fmt)
  | _ => false

/-- One combine of two element images. -/
def redOp (red fmt x y : Nat) : Nat :=
  let w := fmtPlanes fmt
  if 5 ≤ fmt then
    (match red with
      | 4 => (fmtFloat fmt).minmax true x y
      | 5 => (fmtFloat fmt).minmax false x y
      | _ => (fmtFloat fmt).add .ne x y)
  else
    let s := fun (v : Nat) => if fmt = 3 then (v : Int) else sextNat w v
    let lo : Int := if fmt = 3 then 0 else -(2 ^ (w - 1) : Nat)
    let hi : Int := if fmt = 3 then 255 else (2 ^ (w - 1) : Nat) - 1
    match red with
    | 1 => (x + y) % 2 ^ w
    | 2 => imageNat w (max lo (min hi (s x + s y)))
    | 4 => if s x < s y then y else x
    | _ => if s y < s x then y else x

/-! ### Tensors as an engine reaches them -/

/-- A valid tensor table entry. -/
def tensAt (h : Hw) (pk img id : Nat) : Option Tens :=
  if secCount h pk img secTensors ≤ id then none
  else
    let t := tensOf ((List.range 4).map (fun i => read64 h (tensPa h pk img id + 8 * i)))
    if t.v && decide (t.lay < 3) && decide (t.fmt ≤ 9) then some t else none

/-- The address of a tile, and of its frame's entry; none where no frame is mapped. -/
def tileAt (h : Hw) (pk : Nat) (t : Tens) (n : Nat) : Option (Nat × Nat) :=
  let ea := t.ttb + 8 * (n / t.perFrame)
  let w := (read64 h ea).toNat
  let fr := field w 51 16 * 2 ^ 16
  let f := if !bitOf w 0 then none else if t.own then ownFrame h pk t.key (fr / 65536) else if frameOk h fr then some fr else none
  f.map (fun a => (a + n % t.perFrame * t.fb, ea))

/-- The byte of plane p that holds an element, within its tile. -/
def elemByte (p row col : Nat) : Nat := 512 * p + 8 * (row % 64) + col % 64 / 8

/-- Read an element image. -/
def elemGet (h : Hw) (pk : Nat) (t : Tens) (row col : Nat) : Nat :=
  match tileAt h pk t (t.tileNo (row / 64) (col / 64)) with
  | none => 0
  | some (a, _) => (List.range (fmtPlanes t.fmt)).foldl (fun acc p =>
      2 * acc + ((Memory.read h.mem (a + elemByte p row col)).toNat / 2 ^ (col % 8)) % 2) 0

/-- Write an element image, and mark its frame dirty (R125). -/
def elemPut (pk : Nat) (t : Tens) (row col v : Nat) : Act := fun h =>
  match tileAt h pk t (t.tileNo (row / 64) (col / 64)) with
  | none => []
  | some (a, ea) =>
    let n := fmtPlanes t.fmt
    let fr := field (read64 h ea).toNat 51 16
    Act.all [
      writeMem ((List.range n).map (fun p =>
        let ba := a + elemByte p row col
        let old := (Memory.read h.mem ba).toNat
        let bit := 2 ^ (col % 8)
        (ba, BitVec.ofNat 8 (if v.testBit (n - 1 - p) then old ||| bit else old - (old &&& bit))))),
      writeMem [(ea, BitVec.ofNat 8 ((Memory.read h.mem ea).toNat ||| 2))],
      Act.when t.own (modLayer pk t.key (fun e => { e with dirty := if e.dirty.contains (fr, ea) then e.dirty else e.dirty ++ [(fr, ea)] }))] h

/-! ### XPLAN (R305, R341, R342) -/

/-- Why a derivation fails: an address that could not be read, or a check. -/
inductive PlanErr where
  | addr (a : Nat)
  | check

/-- Read n flat bytes of an instance as a core translates them. -/
def flatRead (h : Hw) (core img : Nat) : Nat → Nat → Except PlanErr Nat
  | _, 0 => .ok 0
  | va, n + 1 =>
    let a := va % 2 ^ 56
    match xlate h core img a 2 false with
    | .error _ => .error (.addr a)
    | .ok e =>
      if h.glob.poison.contains (lineOf (paUnder e a)) then .error (.addr a)
      else match flatRead h core img (va + 4) n with
        | .error x => .error x
        | .ok r => .ok (readNat h (paUnder e a) 4 + 2 ^ 32 * r)

/-- The fields of a plan block. -/
def blockOf (w : Nat) : PlanBlock :=
  let nd := field w 3 0
  let na := field w 7 4
  { red := field w 13 10, chunk := if field w 63 32 = 0 then 65536 else field w 63 32,
    ext := (List.range nd).map (fun d => w / 2 ^ (64 + 32 * d) % 2 ^ 32), ax := (List.range na).map (fun a => w / 2 ^ (192 + 16 * a) % 2 ^ 16),
    flay := (List.range nd).map (fun d => w / 2 ^ (256 + 8 * d) % 2 ^ 8), fpart := field w 291 288,
    tlay := (List.range nd).map (fun d => w / 2 ^ (320 + 8 * d) % 2 ^ 8), tpart := field w 355 352,
    srct := field w 403 384, dstt := field w 435 416 }

/-- The masks of one layout: axes below NA, pairwise disjoint. -/
def masksOk (na : Nat) (l : List Nat) : Bool :=
  l.all (fun m => decide (m < 2 ^ na)) && (List.range na).all (fun a => decide ((l.filter (fun m => m.testBit a)).length ≤ 1))

/-- The checks of a block's own fields (R305, R345, R347). -/
def blockOk (w : Nat) (b : PlanBlock) : Bool :=
  let nd := field w 3 0
  let na := field w 7 4
  w / 2 ^ 436 == 0 && field w 415 404 == 0 && field w 383 356 == 0 && field w 319 292 == 0 && field w 31 14 == 0 && field w 9 8 == 0 &&
  decide (1 ≤ nd) && decide (nd ≤ 4) && decide (1 ≤ na) && decide (na ≤ 4) && !b.ax.contains 0 && !b.ext.contains 0 && b.chunk % 256 == 0 &&
  field w 287 256 / 2 ^ (8 * nd) == 0 && field w 351 320 / 2 ^ (8 * nd) == 0 &&
  masksOk na (b.fpart :: b.flay) && masksOk na (b.tpart :: b.tlay) && !badAxes b

/-- The communicator of a record and its members (R341, R342). -/
def commOf (h : Hw) (core img inst va : Nat) (old : Comm) : Except PlanErr Comm :=
  match flatRead h core img va 16 with
  | .error e => .error e
  | .ok w =>
    let n := field w 77 64
    let memb := field w 55 0
    if w / 2 ^ 112 ≠ 0 ∨ field w 103 102 ≠ 0 ∨ bitOf w 99 ∨ field w 79 78 ≠ 0 ∨ field w 63 56 ≠ 0 ∨ 1 < field w 101 100 ∨
        n = 0 ∨ 9216 < n ∨ memb % 4 ≠ 0 then .error .check
    else match flatRead h core img memb n with
      | .error e => .error e
      | .ok l =>
        let ms := (List.range n).map (fun i => l / 2 ^ (32 * i) % 2 ^ 32)
        if ms.any (fun m => decide (144 * h.glob.npkg ≤ m) || !rtrWorks (h.pkg (m / 144)) (m % 144)) || (uniq ms).length ≠ n ||
            !ms.contains (domCl core) then .error .check
        else .ok { old with bound := true, inst := inst, kmask := field w 111 104, tree := field w 101 100, cpri := field w 98 96,
                            gtag := field w 95 80, members := ms }

/-- Does a tensor hold the shards of a layout (R346)? -/
def shardFits (b : PlanBlock) (lay : List Nat) (t : Tens) : Bool :=
  let cx := ceilExt b lay
  !t.cmp && t.rows == cx.dropLast.foldl (· * ·) 1 && t.cols == cx.getLastD 0

/-- The checks of a plan against its tensors and communicator (R335, R341, R346, R349). -/
def planOk (h : Hw) (pk img : Nat) (b : PlanBlock) (c : Comm) (s d : Tens) : Bool :=
  let n := memberCount b
  let kb := (List.range 8).filter (fun k => c.kmask.testBit k)
  c.members.length == n && shardFits b b.flay s && shardFits b b.tlay d && s.fmt == d.fmt && d.wr && redOk b.red s.fmt &&
  (b.fpart % 2 ^ b.ax.length == b.tpart % 2 ^ b.ax.length || b.red != 0) &&
  kb.all (fun k => match tensAt h pk img (b.srct + k) with | none => false | some t => shardFits b b.flay t && t.fmt == s.fmt) &&
  (b.srct != b.dstt || (List.range n).all (fun r =>
    (shardBox b b.flay r).map (fun x => x.2 - x.1) == (shardBox b b.tlay r).map (fun x => x.2 - x.1)))

/-- Derive a plan: the communicator as it then is bound, and the block. -/
def derivePlan (h : Hw) (k xa n : Nat) : Except PlanErr (Comm × PlanBlock) :=
  let s := h.seat k
  let core := coreOf k
  let pk := pkgOfCore core
  let cl := h.cluster (domCl core)
  let old : Comm := SMap.get {} cl.comms n
  if xa % 64 ≠ 0 then .error (.addr (xa % 2 ^ 56))
  else match flatRead h core s.img xa 16 with
    | .error e => .error e
    | .ok w =>
      let b := blockOf w
      let cm := if old.bound && cl.plans.any (fun p => p.2.comm == n) then .ok old else commOf h core s.img s.inst (xa + 64) old
      match cm with
      | .error e => .error e
      | .ok c =>
        if !blockOk w b then .error .check
        else match tensAt h pk s.img b.srct, tensAt h pk s.img b.dstt with
          | some x, some y => if planOk h pk s.img b c x y then .ok (c, { b with fmt := x.fmt }) else .error .check
          | _, _ => .error .check

/-- The lowest free plan handle, 1 to 64. -/
def freePlan (c : Cluster) : Option Nat := (rangeFrom 1 64).find? (fun i => (SMap.find c.plans i).isNone)

/-- XPLAN's result, and the end of its wait. -/
def xplanWrite (k xd : Nat) (v : W64) : Act := fun h =>
  let t := h.coreT (coreOf k)
  modSeat k (fun s =>
    let r := if xd = 0 then s else s.addPend (xPend xd v t (s.lastOrder + 5))
    match r.wait with
    | .xplan _ _ _ => { r with wait := .none, nextIssue := max r.nextIssue (t + 1 + r.stallW) }
    | _ => { r with savedWait := .none }) h

/-- A derivation ends (R305): a handle, or 0 with the cause 0x160 + 2·n. The spec gives a failed check no number. -/
def xplanEnds (k : Nat) : Act := fun h =>
  let s := h.seat k
  let cl := domCl (coreOf k)
  let go := fun (xd xa n : Nat) => (match derivePlan h k xa n with
    | .error e =>
      let charge := fun (tv : W64) => modSeat k (fun s => { s with pendCause := s.pendCause ++
        [{ code := 0x160 + 2 * n, tval := tv, slots := 0, due := h.coreT (coreOf k) }] })
      Act.all [xplanWrite k xd 0, match e with | .addr a => charge (BitVec.ofNat 64 a) | .check => withFree charge]
    | .ok (c, b) => match freePlan (h.cluster cl) with
      | none => xplanWrite k xd 0
      | some i => Act.all [
          modCluster cl (fun x => { x with
            comms := SMap.insert x.comms n { c with nextSeq := c.nextSeq + 1 },
            plans := SMap.insert x.plans i { comm := n, seq := c.nextSeq, inst := s.inst, img := s.img, block := b, phases := planPhases b } }),
          xplanWrite k xd (BitVec.ofNat 64 i)])
  (match s.wait, s.savedWait with
    | .xplan xd xa n, _ => go xd xa n
    | _, .xplan xd xa n => go xd xa n
    | _, _ => Act.nil) h

/-- XPLAN (R305): the derivation ends 2,048 ck later, the longest time that R285 allows. -/
def execXplan (d a : XNum) (comm : BitVec 4) (s : State) : Host.Outcome State Fault Refusal :=
  slotOp (.xplan d a comm) s (fun c => xstatForm c d [a] (fun _ => Act.all [
    modSeat c.k (fun s => { s with wait := .xplan d.toNat (xOp c a) comm.toNat }),
    after 2048 (.xplanDerivationComplete c.k)]))

def execXplanDerivationComplete (s : State) : Host.Outcome State Fault Refusal :=
  match s.ev with
  | .xplanDerivationComplete k => eventAct s (xplanEnds k)
  | _ => eventAct s Act.nil

/-! ### What a phase moves (R348) -/

/-- The phase that a plan runs or would run next. -/
def Plan.phase (p : Plan) : PhaseRec := p.phases.getD p.done { flay := [], fpart := 0, tlay := [], tpart := 0 }

/-- Partial axes that a phase combines, and those it keeps. -/
def PhaseRec.redMask (f : PhaseRec) : Nat := f.fpart - (f.fpart &&& f.tpart)
def PhaseRec.keep (f : PhaseRec) : Nat := f.fpart &&& f.tpart

/-- The holders of an element among the devices with given coordinates on the kept axes. -/
def holdersOf (b : PlanBlock) (f : PhaseRec) (kc : List Nat) (e : Nat) : List Nat :=
  (List.range (memberCount b)).filter (fun r => coordsOn b f.keep r == kc && holds b f.flay r e)

/-- One holder for each distinct piece, the lowest rank; they are the leaves. -/
def leavesOf (b : PlanBlock) (f : PhaseRec) (kc : List Nat) (e : Nat) : List Nat :=
  (holdersOf b f kc e).foldl (fun l r => if l.any (fun x => coordsOn b f.redMask x == coordsOn b f.redMask r) then l else l ++ [r]) []

/-- The devices that receive an element. -/
def destsOf (b : PlanBlock) (f : PhaseRec) (kc : List Nat) (e : Nat) : List Nat :=
  (List.range (memberCount b)).filter (fun r => coordsOn b f.keep r == kc && holds b f.tlay r e)

/-- What a device sends in a phase: (destination rank, element), by destination and then element. A combine's operands
stand under its lowest destination. -/
def outgoing (b : PlanBlock) (f : PhaseRec) (me : Nat) : List (Nat × Nat) :=
  let kc := coordsOn b f.keep me
  if f.redMask ≠ 0 then
    let mine := (shardElems b f.flay me).filterMap (fun e =>
      if (leavesOf b f kc e).contains me then (destsOf b f kc e).head?.map (fun d => (d, e)) else none)
    (List.range (memberCount b)).flatMap (fun d => mine.filter (fun x => x.1 == d))
  else (List.range (memberCount b)).flatMap (fun d =>
    if coordsOn b f.keep d ≠ kc then [] else
    ((shardElems b f.tlay d).filter (fun e => holds b f.flay me e &&
      (d == me || (!holds b f.flay d e && (holdersOf b f kc e).head? == some me)))).map (fun e => (d, e)))

/-- Cut a list into pieces of n. -/
def cutList {α : Type} (n : Nat) : Nat → List α → List (List α)
  | 0, _ => []
  | f + 1, l => if l.isEmpty then [] else l.take n :: cutList n f (l.drop n)

/-- The chunks of what a device sends (R343). -/
def cutChunks (b : PlanBlock) (l : List (Nat × Nat)) : List (List (Nat × Nat)) :=
  cutList (max 1 (b.chunk * 8 / fmtPlanes b.fmt)) l.length l

/-- Rank of a cluster among the members. -/
def rankOf (c : Comm) (cl : Nat) : Nat := (c.members.findIdx? (· == cl)).getD 0
/-- Cluster of a rank. -/
def clOfRank (c : Comm) (r : Nat) : Nat := c.members.getD r 0

/-- The cores whose shards a device contributes: the set bits of KMASK in a plan's first phase that combines, else none named. -/
def leafCores (c : Comm) (p : Plan) : List Nat :=
  if p.done = 0 ∧ c.kmask ≠ 0 ∧ p.phase.redMask ≠ 0 then (List.range 8).filter (fun k => c.kmask.testBit k) else [0]

/-- Where an element of a phase's result lies in DSTT (R346): an intermediate shard of another shape lies row by row in DSTT's rows. (DESIGN CHOICE, log 80) -/
def dstPos (b : PlanBlock) (t : Tens) (lay : List Nat) (r e : Nat) : Nat × Nat :=
  let x := storePos b lay r e
  let n := x.1 * (ceilExt b lay).getLastD 0 + x.2
  (n / t.cols, n % t.cols)

/-- Where an element of the running phase's source lies: in SRCT, or after the first phase in DSTT (R347). -/
def srcPos (p : Plan) (t : Tens) (me e : Nat) : Nat × Nat :=
  if p.done = 0 then storePos p.block p.phase.flay me e else dstPos p.block t p.phase.flay me e

/-- The source images of a phase as they stand: element and core. (DEDUCED, log 58) -/
def phaseSnap (h : Hw) (pk : Nat) (c : Comm) (p : Plan) (me : Nat) : List (Nat × Nat) :=
  let f := p.phase
  (leafCores c p).flatMap (fun k =>
    match tensAt h pk p.img (if p.done = 0 then p.block.srct + k else p.block.dstt) with
    | none => []
    | some t => (shardElems p.block f.flay me).map (fun e =>
        let x := srcPos p t me e
        (8 * e + k, elemGet h pk t x.1 x.2)))

/-- An image of the snapshot. -/
def snapGet (p : Plan) (e k : Nat) : Nat := ((p.snap.find? (fun x => x.1 == 8 * e + k)).map (fun x => x.2)).getD 0

/-- The ranks that receive a chunk. -/
def chunkDests (p : Plan) (me : Nat) (l : List (Nat × Nat)) : List Nat :=
  let f := p.phase
  let kc := coordsOn p.block f.keep me
  (uniq (if f.redMask = 0 then l.map (fun x => x.1) else l.flatMap (fun x => destsOf p.block f kc x.2))).filter (fun d => d != me)

/-! ### Scheduling chunks (R320, R343) -/

/-- The plan at a handle of a cluster. -/
def planAt (h : Hw) (cl i : Nat) : Option Plan := SMap.find (h.cluster cl).plans i
def modPlan (cl i : Nat) (f : Plan → Plan) : Act := fun h =>
  match planAt h cl i with
  | none => []
  | some p => modCluster cl (fun c => { c with plans := SMap.insert c.plans i (f p) }) h
def commAt (h : Hw) (cl n : Nat) : Comm := SMap.get {} (h.cluster cl).comms n

/-- The plan of a communicator and sequence number on an engine. -/
def planOf (h : Hw) (cl comm seq : Nat) : Option (Nat × Plan) :=
  (h.cluster cl).plans.find? (fun p => p.2.comm == comm && p.2.seq == seq)

/-- One-way time between two engines. -/
def engineCk (h : Hw) (a b : Nat) : Nat := if a / 144 = b / 144 then routeCk (h.pkg (a / 144)) (a % 144) (b % 144) else crossCk

/-- Is the next chunk of a plan ready? -/
def planReady (h : Hw) (cl : Nat) (p : Plan) : Bool :=
  p.running && !p.aborting && (match p.out with
    | [] => false
    | l :: _ => (chunkDests p (rankOf (commAt h cl p.comm) cl) l).all (fun d => p.credit.contains d))

/-- Does communicator x of a ready plan go before communicator y (R320)? -/
def commBefore (h : Hw) (cl x y : Nat) : Bool :=
  let a := commAt h cl x
  let b := commAt h cl y
  decide (b.cpri < a.cpri) || (a.cpri == b.cpri && (decide (a.lastChunk < b.lastChunk) || (a.lastChunk == b.lastChunk && decide (x < y))))

/-- The plan whose chunk a channel takes next. -/
def chanPick (h : Hw) (cl vc : Nat) : Option (Nat × Plan) :=
  match (h.cluster cl).plans.filter (fun p => p.2.comm % 4 == vc && planReady h cl p.2) with
  | [] => none
  | p :: r => some (r.foldl (fun b x => if commBefore h cl x.2.comm b.2.comm then x else b) p)

/-- Bytes of element images. -/
def imageBytes (p : Plan) (n : Nat) : Nat := ceilDiv (n * fmtPlanes p.block.fmt) 8

/-- An idle channel chooses once this ck's events are past. -/
def chanKick (cl vc : Nat) : Act := after 0 (.chunkComplete cl vc)

/-- An engine grants credit for a plan's next chunk to an engine that asked for it `lag` ck ago or asks now (R343). -/
def grant (at_ lag dest : Nat) (p : Plan) (me : Nat) : Act := Act.look (fun h =>
  sendMsg at_ 9 dest 9 0 0 0 lag 1 none (.event (.creditGrant dest p.comm p.seq p.done me (commAt h at_ p.comm).gtag)))

/-- Ask the receivers of the next chunk for credit: those that run the phase grant it (R343). -/
def askCredit (cl i : Nat) : Act := fun h =>
  match planAt h cl i with
  | none => []
  | some p =>
    let c := commAt h cl p.comm
    match p.out with
    | [] => []
    | l :: _ =>
      let ds := chunkDests p (rankOf c cl) l
      Act.all [
        modPlan cl i (fun p => { p with credit := [], creditFrom := h.glob.now }),
        Act.each ds (fun d =>
          let dc := clOfRank c d
          match planOf h dc p.comm p.seq with
          | some (_, q) => Act.when (q.running && q.done == p.done) (grant dc (engineCk h cl dc) cl p d)
          | none => Act.nil),
        Act.when (!ds.isEmpty) (after (2 ^ 22) (.collectiveCreditTimeout cl i)),
        Act.when ds.isEmpty (chanKick cl (p.comm % 4))] h

/-- An engine that starts a phase grants credit to the members that wait for it. -/
def grantAll (cl i : Nat) : Act := fun h =>
  match planAt h cl i with
  | none => []
  | some p =>
    let c := commAt h cl p.comm
    let me := rankOf c cl
    Act.each (c.members.zipIdx.filter (fun m => m.2 != me)) (fun m =>
      match planOf h m.1 p.comm p.seq with
      | none => Act.nil
      | some (_, q) => Act.when (q.running && q.done == p.done && (match q.out with
          | [] => false
          | l :: _ => (chunkDests q m.2 l).contains me && !q.credit.contains me))
          (grant cl 0 m.1 p me)) h

/-- A phase is complete when all it sends and receives has performed (R306, R344). -/
def phaseCheck (cl i : Nat) : Act := fun h =>
  match planAt h cl i with
  | none => []
  | some p =>
    if p.running && p.out.isEmpty && p.want.isEmpty && p.undone == 0 &&
        !(h.cluster cl).tx.any (fun t => t.2.plan == i) then
      modPlan cl i (fun p => { p with done := p.done + 1, running := false, snap := [], credit := [] }) h
    else []

/-- XSTEP launches the next phase (R306, R348). -/
def phaseStart (cl i : Nat) : Act := fun h =>
  match planAt h cl i with
  | none => []
  | some p =>
    let c := commAt h cl p.comm
    let me := rankOf c cl
    Act.all [
      modPlan cl i (fun p => { p with
        running := true, startCk := h.glob.now, out := cutChunks p.block (outgoing p.block p.phase me), chunksDone := 0, undone := 0,
        want := shardElems p.block p.phase.tlay me, snap := phaseSnap h (cl / 144) c p me, heardAt := h.glob.now }),
      grantAll cl i, askCredit cl i, after (2 ^ 22) (.collectivePeerTimeout cl i), phaseCheck cl i] h

/-- May a plan's next phase start? Its first phase waits for the communicator's earlier plans (R344). -/
def canStep (h : Hw) (cl : Nat) (p : Plan) : Bool :=
  !p.running && !p.aborting && decide (p.done < p.phases.length) &&
  (p.done != 0 || (h.cluster cl).plans.all (fun q => q.2.comm != p.comm || decide (p.seq ≤ q.2.seq) || decide (q.2.phases.length ≤ q.2.done)))

/-- XSTEP (R306). (DEDUCED, log 38) -/
def execXstep (d a : XNum) (s : State) : Host.Outcome State Fault Refusal :=
  slotOp (.xstep d a) s (fun c => xstatForm c d [a] (fun h =>
    let cl := domCl c.core
    let i := xOp c a % 256
    match planAt h cl i with
    | none => wX c d 0 0
    | some p => if canStep h cl p then Act.all [wX c d (BitVec.ofNat 64 (0x10000 + p.done)) 0, phaseStart cl i] else wX c d 0 0))

/-- Free a plan. -/
def freePlanAt (cl i : Nat) : Act := modCluster cl (fun c => { c with plans := SMap.erase c.plans i })

/-- An abort notice to an engine (R451, R456). -/
def sendNotice (cl dest comm seq peer gtag : Nat) : Act := sendMsg cl 9 dest 9 0 0 0 1 1 none (.event (.abortNotice dest comm seq peer gtag))

/-- Abort notices to every other member (R456). -/
def sendNotices (cl comm seq : Nat) (c : Comm) : Act :=
  Act.each (c.members.filter (fun m => m != cl)) (fun m => sendNotice cl m comm seq (rankOf c cl) c.gtag)

/-- XABORT (R306, R456): at once, or when the chunk being sent completes; a plan whose phases have all completed has no chunk boundary
left to stop at, and is freed without notices. (DEDUCED, log 38) (DEDUCED, log 60) -/
def execXabort (d a : XNum) (s : State) : Host.Outcome State Fault Refusal :=
  slotOp (.xabort d a) s (fun c => xstatForm c d [a] (fun h =>
    let cl := domCl c.core
    let i := xOp c a % 256
    match planAt h cl i with
    | none => wX c d 0 0
    | some p =>
      let busy := (h.cluster cl).tx.any (fun t => t.2.plan == i)
      Act.all [
        wX c d (BitVec.ofNat 64 p.total) 0,
        if p.phases.length ≤ p.done then freePlanAt cl i
        else if busy then modPlan cl i (fun p => { p with aborting := true })
        else Act.all [sendNotices cl p.comm p.seq (commAt h cl p.comm), freePlanAt cl i]]))

/-! ### Reductions (R333, R334, R451) -/

/-- The leaves of the node that next combines a packet's result; none at the root. -/
def parentSpan (m : RedMsg) : Option (Nat × Nat) :=
  let n := m.leaves.length
  if m.tree = 1 then
    (if 0 < m.lo then some (0, m.hi) else if m.hi + 1 < n then some (0, m.hi + 1) else none)
  else (List.range 18).findSome? (fun l =>
    let b := m.lo / 2 ^ l * 2 ^ l
    let s := (b, min (b + 2 ^ l - 1) (n - 1))
    if s = (m.lo, m.hi) ∨ s.2 < m.hi ∨ s.2 - s.1 ≤ m.hi - m.lo then none else some s)

/-- The cluster whose router combines a node (R334). -/
def nodeRouter (m : RedMsg) (s : Nat × Nat) : Nat :=
  if m.tree = 1 then m.leaves.getD s.2 0
  else
    let ps := (rangeFrom s.1 (s.2 - s.1 + 1)).map (fun i => m.leaves.getD i 0 / 144)
    let c := m.leaves.getD s.1 0 % 144
    let p0 := ps.headD 0
    let p := if ps.all (· == p0) then p0 else if ps.all (fun q => q / 8 == p0 / 8) then p0 / 8 * 8 else p0
    144 * p + c

/-- A packet goes on from a router `lag` ck from now: to its parent node, or as the result to every destination, as one multicast in each package
(R332, R334). -/
def redSend (at_ : Nat) (lag : Nat) (m : RedMsg) : Act :=
  let bytes := ceilDiv (m.elems.length * fmtPlanes m.fmt) 8
  match parentSpan m with
  | some s =>
    let dst := nodeRouter m s
    sendMsg at_ 9 dst 9 0 0 bytes lag 1 none (.event (.reductionPacketArrival { m with cluster := dst }))
  | none =>
    let l := m.dests.map (fun d => let dst := m.members.getD d 0; (dst, Deliver.event (.chunkArrival {
      cluster := dst, comm := m.comm, seq := m.seq, phase := m.phase, gtag := m.gtag, src := 0, chunk := 0, elems := m.elems,
      leaves := uniq m.leaves })))
    Act.each (uniq (l.map (fun e => e.1 / 144))) (fun q => sendAll at_ 9 9 0 0 bytes lag 1 none (l.filter (fun e => e.1 / 144 == q)))

/-- Packets of one phase of one communicator. -/
def samePhase (x y : RedMsg) : Bool :=
  x.orig == y.orig && x.inst == y.inst && x.comm == y.comm && x.seq == y.seq && x.phase == y.phase && x.gtag == y.gtag

/-- The two children of one node for the same elements. -/
def sibling (x y : RedMsg) : Bool :=
  samePhase x y && x.dests == y.dests && x.elems.map (fun e => e.1) == y.elems.map (fun e => e.1) &&
  parentSpan x == parentSpan y && x.lo != y.lo

/-- A node's combine: the lower ranks stand on the left. -/
def redCombine (x y : RedMsg) : RedMsg :=
  let l := if x.lo < y.lo then x else y
  let r := if x.lo < y.lo then y else x
  { l with hi := r.hi, elems := (l.elems.zip r.elems).map (fun e => (e.1.1, redOp l.red l.fmt e.1.2 e.2.2)) }

/-- REDUCTION_PACKET_ARRIVAL: held until the node's other child has come, then combined in 4 ck. -/
def redArrives (m : RedMsg) : Act := fun h =>
  match (h.cluster m.cluster).nodes.find? (fun n => sibling n.msg m) with
  | none => Act.all [
      modCluster m.cluster (fun c => { c with nodes := c.nodes ++ [{ msg := m, since := h.glob.now }] }),
      after (2 ^ 21) (.contributorTimeout m.cluster m)] h
  | some n => Act.all [
      modCluster m.cluster (fun c => { c with nodes := c.nodes.erase n }),
      redSend m.cluster 4 (redCombine n.msg m)] h

def execReductionPacketArrival (s : State) : Host.Outcome State Fault Refusal :=
  match s.ev with
  | .reductionPacketArrival m => eventAct s (redArrives m)
  | _ => eventAct s Act.nil

/-- TVAL of a contributor timeout: the node's leaves and the lowest leaf of the missing child. -/
def nodeTval (m : RedMsg) : Nat :=
  match parentSpan m with
  | none => 0
  | some s =>
    let miss := if m.lo = s.1 then m.hi + 1 else s.1
    s.1 % 2 ^ 17 + s.2 % 2 ^ 17 * 2 ^ 17 + miss % 2 ^ 17 * 2 ^ 34 + m.tree % 4 * 2 ^ 51

/-- The domain core of a leaf: the first core of its cluster. -/
def leafCore (m : RedMsg) (i : Nat) : Nat := let c := m.leaves.getD i 0; 1152 * (c / 144) + 8 * (c % 144)

/-- CONTRIBUTOR_TIMEOUT (R451, R466): one record; every held packet of the phase goes, and every member engine hears of it. The
report's UNIT is the missing leaf's core when the missing child is a leaf. -/
def redTimeout (cl : Nat) (m : RedMsg) : Act := fun h =>
  match (h.cluster cl).nodes.find? (fun n => n.msg == m && decide (n.since + 2 ^ 21 ≤ h.glob.now)) with
  | none => []
  | some _ =>
    let r : ErrRec := { code := 0x15C, tval := BitVec.ofNat 64 (nodeTval m), unitk := 3, unit := cl, inst := (h.inst m.inst).num, tag := m.gtag }
    let s := (parentSpan m).getD (0, 0)
    let miss := if m.lo = s.1 then m.hi + 1 else s.1
    let isLeaf := if m.lo = s.1 then m.hi + 1 == s.2 else m.lo == s.1 + 1
    Act.all [
      record (4 * (cl / 144) + dieOfCl (cl % 144)) r,
      Act.each (h.clusters.map (fun c => c.1)) (fun c => modCluster c (fun x => { x with nodes := x.nodes.filter (fun n => !samePhase n.msg m) })),
      Act.each m.members (fun e => sendNotice cl e m.comm m.seq 0 m.gtag),
      after 1 (.ext (.instanceAbort m.inst (abortStatus (if isLeaf then leafCore m miss else cl) 0x15C)))] h

def execContributorTimeout (s : State) : Host.Outcome State Fault Refusal :=
  match s.ev with
  | .contributorTimeout cl m => eventAct s (redTimeout cl m)
  | _ => eventAct s Act.nil

/-! ### Chunks (R343, R452, R455, R456) -/

/-- A member engine fails at run time (R455). -/
def engineFail (cl : Nat) (p : Plan) (reason peer : Nat) : Act := Act.look (fun h =>
  abortInst (4 * (cl / 144) + dieOfCl (cl % 144)) p.inst
    { code := 0x161 + 2 * p.comm, tval := BitVec.ofNat 64 (reason + peer % 2 ^ 14 * 2 ^ 16), unitk := 4, unit := cl,
      tag := (commAt h cl p.comm).gtag })

/-- Does an engine take a packet with a group tag (R452)? -/
def tagBound (h : Hw) (cl gtag : Nat) : Bool := gtag == 0 || (h.cluster cl).comms.any (fun c => c.2.bound && c.2.gtag == gtag)

/-- A packet with a stale tag is dropped and counted. -/
def staleAt (cl gtag : Nat) : Act := record (4 * (cl / 144) + dieOfCl (cl % 144)) { code := 0x150, unitk := 4, unit := cl, tag := gtag }

/-- A delivery of an engine's own chunk has performed at its receiver. -/
def deliveredTo (cl comm seq : Nat) : Act := Act.look (fun h =>
  match planOf h cl comm seq with
  | none => Act.nil
  | some (i, _) => Act.all [modPlan cl i (fun p => { p with undone := p.undone - 1 }), phaseCheck cl i])

/-- Ck in which what an engine reads or writes of a tensor has performed at its home slices (R351). -/
def engineMemCk : Nat := 140

/-- The lines at which a collective engine reads or writes elements of a tensor go to their home slices, on port 8 (R315, R316). -/
def engineLines (cl : Nat) (t : Tens) (write : Bool) (l : List (Nat × Nat)) : Act := Act.look (fun h =>
  let pk := cl / 144
  let lines := l.flatMap (fun x => match tileAt h pk t (t.tileNo (x.1 / 64) (x.2 / 64)) with
    | none => []
    | some (a, _) => (List.range (fmtPlanes t.fmt)).map (fun p => lineOf (a + elemByte p x.1 x.2)))
  Act.each (uniq lines) (fun n => atUnit (homeDom h (64 * n)) h.glob.now (.slice {
    port := 8, arrived := 0, src := 8 * (cl % 144) + 1152 * pk, seat := false, acc := 0, part := write.toNat, line := n })))

/-- CHUNK_ARRIVAL: a whole chunk is written under the plan that runs; another sequence number fails the engine (R455), and a
chunk for a plan that is gone is discarded whole (R456). Its senders have delivered it once its writes have performed (R344). -/
def chunkArrives (m : ChunkMsg) : Act := fun h =>
  let cl := m.cluster
  if !tagBound h cl m.gtag then staleAt cl m.gtag h
  else match (h.cluster cl).plans.find? (fun p => p.2.comm == m.comm && p.2.running) with
    | none => []
    | some (i, p) =>
      let c := commAt h cl p.comm
      let me := rankOf c cl
      if p.seq ≠ m.seq ∨ p.done ≠ m.phase then engineFail cl p 4 m.src h
      else if !m.wrote then after engineMemCk (.chunkArrival { m with wrote := true }) h
      else match tensAt h (cl / 144) p.img p.block.dstt with
        | none => []
        | some t =>
          Act.all [
            engineLines cl t true ((m.elems.filter (fun e => p.want.contains e.1)).map (fun e => dstPos p.block t p.phase.tlay me e.1)),
            Act.each (m.elems.filter (fun e => p.want.contains e.1)) (fun e =>
              let x := dstPos p.block t p.phase.tlay me e.1
              elemPut (cl / 144) t x.1 x.2 e.2),
            modPlan cl i (fun p => { p with want := p.want.filter (fun e => !(m.elems.any (fun x => x.1 == e))), heardAt := h.glob.now }),
            phaseCheck cl i,
            Act.each (if m.chunk = 0 then m.leaves else [clOfRank c m.src]) (fun x => deliveredTo x m.comm m.seq)] h

def execChunkArrival (s : State) : Host.Outcome State Fault Refusal :=
  match s.ev with
  | .chunkArrival m => eventAct s (chunkArrives m)
  | _ => eventAct s Act.nil

/-- Runs of elements with one set of leaves and destinations, each at most a packet's 128 bytes. -/
def packetRuns (n : Nat) (g : Nat → List Nat × List Nat) : List Nat → List (List Nat)
  | [] => []
  | e :: r => match packetRuns n g r with
    | [] => [[e]]
    | l :: t => if l.length < n ∧ g (l.headD 0) = g e then (e :: l) :: t else [e] :: l :: t

/-- The elements of a chunk's combines, packet by packet, and for each packet its leaves and its destinations. -/
def leafRuns (p : Plan) (me : Nat) (l : List (Nat × Nat)) : List (List Nat × List Nat × List Nat) :=
  let f := p.phase
  let b := p.block
  let kc := coordsOn b f.keep me
  let g := fun e => (leavesOf b f kc e, destsOf b f kc e)
  (packetRuns (max 1 (1024 / fmtPlanes b.fmt)) g (l.map (fun x => x.2))).map (fun es => (es, (g (es.headD 0)).1, (g (es.headD 0)).2))

/-- The packets of a chunk's combines: one for each of this device's leaves. -/
def leafPackets (cl : Nat) (c : Comm) (p : Plan) (l : List (Nat × Nat)) : List RedMsg :=
  let me := rankOf c cl
  let ks := leafCores c p
  (leafRuns p me l).flatMap (fun q =>
    ks.zipIdx.map (fun k =>
      let i := (q.2.1.findIdx? (· == me)).getD 0 * ks.length + k.2
      { cluster := cl, comm := p.comm, seq := p.seq, phase := p.done, gtag := c.gtag, inst := p.inst, orig := clOfRank c 0, tree := c.tree,
        red := p.block.red, fmt := p.block.fmt, leaves := q.2.1.flatMap (fun r => ks.map (fun _ => clOfRank c r)), lo := i, hi := i,
        members := c.members, dests := q.2.2, elems := q.1.map (fun e => (e, snapGet p e k.1)) }))

/-- The parts of a chunk that combines nothing: destination rank and elements, in ascending rank. -/
def chunkParts (l : List (Nat × Nat)) : List (Nat × List Nat) :=
  (uniq (l.map (fun x => x.1))).map (fun d => (d, (l.filter (fun x => x.1 == d)).map (fun x => x.2)))

/-- Beats of a part. -/
def partBeats (p : Plan) (d : Nat × List Nat) : Nat := beatsOf (imageBytes p d.2.length)

/-- The beats of a chunk: one goes in each ck (R320). -/
def chunkBeats (cl : Nat) (c : Comm) (p : Plan) (l : List (Nat × Nat)) : Nat :=
  if p.phase.redMask ≠ 0 then (leafPackets cl c p l).length else ((chunkParts l).map (partBeats p)).foldl (· + ·) 0

/-- Deliveries of a chunk. -/
def chunkDeliveries (c : Comm) (cl : Nat) (p : Plan) (l : List (Nat × Nat)) : Nat :=
  if p.phase.redMask ≠ 0 then ((leafRuns p (rankOf c cl) l).map (fun q => q.2.2.length)).foldl (· + ·) 0 else (chunkParts l).length

/-- A chunk goes out beat by beat, `lag` ck from now on; its deliveries are counted until they have performed. -/
def chunkSend (cl : Nat) (c : Comm) (i : Nat) (p : Plan) (l : List (Nat × Nat)) (lag : Nat) : Act :=
  Act.all [
    modPlan cl i (fun q => { q with undone := q.undone + chunkDeliveries c cl p l }),
    if p.phase.redMask ≠ 0 then Act.each (leafPackets cl c p l).zipIdx (fun m => redSend cl (lag + m.2) m.1)
    else Act.each (chunkParts l).zipIdx (fun d =>
      sendMsg cl 9 (clOfRank c d.1.1) 9 0 0 (imageBytes p d.1.2.length) (lag + (((chunkParts l).take d.2).map (partBeats p)).foldl (· + ·) 0) 1 none
        (.event (.chunkArrival {
          cluster := clOfRank c d.1.1, comm := p.comm, seq := p.seq, phase := p.done, gtag := c.gtag, src := rankOf c cl, chunk := p.chunksDone + 1,
          elems := d.1.2.map (fun e => (e, snapGet p e 0)) })))]

/-- The source lines of a chunk. -/
def chunkReads (cl : Nat) (c : Comm) (p : Plan) (l : List (Nat × Nat)) : Act := Act.look (fun h =>
  let me := rankOf c cl
  Act.each (leafCores c p) (fun k => match tensAt h (cl / 144) p.img (if p.done = 0 then p.block.srct + k else p.block.dstt) with
    | none => Act.nil
    | some t => engineLines cl t false (l.map (fun x => srcPos p t me x.2))))

/-- A free channel takes the chunk that goes first: one beat of 128 bytes a ck, after its source has been read. -/
def chanStart (cl vc : Nat) : Act := fun h =>
  if (SMap.find (h.cluster cl).tx vc).isSome then []
  else match chanPick h cl vc with
    | none => []
    | some (i, p) =>
      let c := commAt h cl p.comm
      let l := p.out.headD []
      let lag := p.startCk + engineMemCk - h.glob.now
      let t := h.glob.now + max 1 (lag + chunkBeats cl c p l)
      Act.all [modCluster cl (fun x => { x with tx := SMap.insert x.tx vc { plan := i, doneAt := t } }),
        chunkReads cl c p l, chunkSend cl c i p l lag, schedule t (.chunkComplete cl vc)] h

/-- CHUNK_COMPLETE: the chunk in transmission has gone out; an aborted plan is freed with notices (R456); the channel
chooses again. -/
def chunkEnds (cl vc : Nat) : Act := fun h =>
  match SMap.find (h.cluster cl).tx vc with
  | none => chanStart cl vc h
  | some t =>
    if h.glob.now < t.doneAt then []
    else Act.all [
      modCluster cl (fun c => { c with tx := SMap.erase c.tx vc }),
      (match planAt h cl t.plan with
        | none => Act.nil
        | some p =>
          let c := commAt h cl p.comm
          Act.all [
            modPlan cl t.plan (fun p => { p with out := p.out.drop 1, chunksDone := p.chunksDone + 1, total := p.total + 1, credit := [] }),
            modCluster cl (fun x => { x with comms := SMap.insert x.comms p.comm { c with lastChunk := h.glob.now } }),
            if p.aborting then Act.all [sendNotices cl p.comm p.seq c, freePlanAt cl t.plan]
            else Act.all [askCredit cl t.plan, phaseCheck cl t.plan]]),
      chanKick cl vc] h

def execChunkComplete (s : State) : Host.Outcome State Fault Refusal :=
  match s.ev with
  | .chunkComplete cl vc => eventAct s (chunkEnds cl vc)
  | _ => eventAct s Act.nil

/-- CREDIT_GRANT (R343); one with a stale tag is dropped (R452). -/
def creditArrives (cl comm seq phase peer gtag : Nat) : Act := fun h =>
  if !tagBound h cl gtag then staleAt cl gtag h else
  match planOf h cl comm seq with
  | none => []
  | some (i, p) =>
    if p.running ∧ p.done = phase then
      Act.all [modPlan cl i (fun p => { p with credit := if p.credit.contains peer then p.credit else p.credit ++ [peer] }), chanKick cl (comm % 4)] h
    else []

def execCreditGrant (s : State) : Host.Outcome State Fault Refusal :=
  match s.ev with
  | .creditGrant cl n q f p g => eventAct s (creditArrives cl n q f p g)
  | _ => eventAct s Act.nil

/-- ABORT_NOTICE (R451, R456): a member that runs no phase of the plan frees it; another fails with reason 3; one with a stale tag is
dropped (R452). -/
def noticeArrives (cl comm seq peer gtag : Nat) : Act := fun h =>
  if !tagBound h cl gtag then staleAt cl gtag h else
  match planOf h cl comm seq with
  | none => []
  | some (i, p) =>
    if p.running then Act.all [modPlan cl i (fun p => { p with running := false, aborting := true, out := [] }), engineFail cl p 3 peer] h
    else freePlanAt cl i h

def execAbortNotice (s : State) : Host.Outcome State Fault Refusal :=
  match s.ev with
  | .abortNotice cl n q p g => eventAct s (noticeArrives cl n q p g)
  | _ => eventAct s Act.nil

/-- COLLECTIVE_CREDIT_TIMEOUT (R455 reason 1): the lowest rank whose credit is missing. -/
def creditTimeout (cl i : Nat) : Act := fun h =>
  match planAt h cl i with
  | none => []
  | some p =>
    let me := rankOf (commAt h cl p.comm) cl
    let miss := (chunkDests p me (p.out.headD [])).filter (fun d => !p.credit.contains d)
    match miss with
    | d :: r => if p.running ∧ !p.out.isEmpty ∧ p.creditFrom + 2 ^ 22 ≤ h.glob.now then engineFail cl p 1 (r.foldl min d) h else []
    | [] => []

def execCollectiveCreditTimeout (s : State) : Host.Outcome State Fault Refusal :=
  match s.ev with
  | .collectiveCreditTimeout cl i => eventAct s (creditTimeout cl i)
  | _ => eventAct s Act.nil

/-- The lowest rank from which data is missing. -/
def missingPeer (p : Plan) (me : Nat) : Nat :=
  let f := p.phase
  let kc := coordsOn p.block f.keep me
  let l := p.want.map (fun e => ((holdersOf p.block f kc e).head?).getD 0)
  match l with
  | [] => 0
  | x :: r => r.foldl min x

/-- COLLECTIVE_PEER_TIMEOUT (R455 reason 2). -/
def peerTimeout (cl i : Nat) : Act := fun h =>
  match planAt h cl i with
  | none => []
  | some p =>
    if !p.running ∨ p.want.isEmpty then []
    else if p.heardAt + 2 ^ 22 ≤ h.glob.now then engineFail cl p 2 (missingPeer p (rankOf (commAt h cl p.comm) cl)) h
    else schedule (p.heardAt + 2 ^ 22) (.collectivePeerTimeout cl i) h

def execCollectivePeerTimeout (s : State) : Host.Outcome State Fault Refusal :=
  match s.ev with
  | .collectivePeerTimeout cl i => eventAct s (peerTimeout cl i)
  | _ => eventAct s Act.nil

/-- The communicators and plans of an instance go (R341, R398). -/
def unbindInst (inst : Nat) : Act := Act.look (fun h =>
  Act.each (h.clusters.map (fun c => c.1)) (fun cl => modCluster cl (fun c => { c with
    comms := c.comms.map (fun m => if m.2.bound ∧ m.2.inst = inst then (m.1, {}) else m),
    tx := c.tx.filter (fun t => match SMap.find c.plans t.2.plan with | none => false | some p => p.inst != inst),
    plans := c.plans.filter (fun p => p.2.inst != inst),
    nodes := c.nodes.filter (fun n => n.msg.inst != inst) })))

end Sys2Proof.Machine
end

