-- ==== Sys2Proof/Machine/Residency.lean ====
section
/-! DEFINITION. The residency engine of a package: which layer arrives or leaves (R131, R133 to R137, R473), failures of
arrivals and write-backs (R440 to R443), model definitions (R439, R474) and changes of the pool (R131). -/

namespace Sys2Proof.Machine

/-! ### Slots and order (R131, R136, R137) -/

/-- MPRI of a layer's model. -/
def mpriOf (p : Pkg) (key : Nat) : Nat := (SMap.get {} p.models (key / 1024)).mpri

/-- Is a layer a demand, or a prefetch, that waits for its arrival? One that becomes ABSENT in this ck is not selected in it (R133). -/
def isDemand (now : Nat) (e : Layer) : Bool := e.demandAt.isSome && e.st == LayerSt.absent && decide (e.absentAt ≤ now)
def isPrefetch (now : Nat) (e : Layer) : Bool := e.demandAt.isNone && e.cand && !e.failed && e.st == LayerSt.absent && decide (e.absentAt ≤ now)

/-- Does x go before y: MPRI descending, for demands the first LACQ, then model and layer? -/
def arriveBefore (p : Pkg) (x y : Nat × Layer) : Bool :=
  let a := mpriOf p x.1
  let b := mpriOf p y.1
  let s := x.2.demandAt.getD 0
  let t := y.2.demandAt.getD 0
  decide (b < a) || (a == b && (decide (s < t) || (s == t && decide (x.1 < y.1))))

/-- The first of a list under an order. -/
def firstBy {α : Type} (lt : α → α → Bool) : List α → Option α
  | [] => none
  | x :: r => some (r.foldl (fun b y => if lt y b then y else b) x)

/-- A list in the order of R136. -/
def arriveSort (p : Pkg) (l : List (Nat × Layer)) : List (Nat × Layer) :=
  l.foldl (fun l x => l.filter (fun y => !arriveBefore p x y) ++ [x] ++ l.filter (fun y => arriveBefore p x y)) []

/-- The next arrival in the order of R136: a demand stands before every prefetch. (DEDUCED, log 56) -/
def nextArrival (now : Nat) (p : Pkg) : Option (Nat × Layer) :=
  match firstBy (arriveBefore p) (p.layers.filter (fun e => isDemand now e.2)) with
  | some x => some x
  | none => firstBy (arriveBefore p) (p.layers.filter (fun e => isPrefetch now e.2))

/-- The candidates for eviction under a demand of priority m, in the order of R137. -/
def victims (p : Pkg) (m : Nat) : List (Nat × Layer) :=
  let before := fun (x y : Nat × Layer) =>
    let a := mpriOf p x.1
    let b := mpriOf p y.1
    decide (a < b) || (a == b && (decide (x.2.rel < y.2.rel) || (x.2.rel == y.2.rel && decide (x.1 < y.1))))
  (p.layers.filter (fun e => e.2.st == LayerSt.resident && e.2.pins.isEmpty && e.2.inflight == 0 && decide (mpriOf p e.1 ≤ m))).foldr
    (fun x l => l.filter (fun y => before y x) ++ [x] ++ l.filter (fun y => !before y x)) []

/-- Take victims until n slots are covered; none when all together do not suffice. -/
def takeVictims (p : Pkg) : List (Nat × Layer) → Nat → Option (List Nat)
  | _, 0 => some []
  | [], _ + 1 => none
  | v :: r, n + 1 => (takeVictims p r (n + 1 - max 1 (slotNeed p v.2))).map (fun l => v.1 :: l)

/-- Slots that evictions under way will free. -/
def comingSlots (p : Pkg) : Nat := (p.layers.filter (fun e => e.2.st == LayerSt.evicting)).foldl (fun n e => n + e.2.slots.length) 0

/-- What the engine does next for an arrival: nothing, start it, or evict first. -/
inductive ResAct where
  | none
  | start (key : Nat)
  | evict (keys : List Nat)

/-- What the demands in their order have the engine do, `room` slots being free or coming: each one that lacks slots evicts, whether or not a
stream is free for it, or waits when every candidate together does not suffice (R137). -/
def demandAct (p : Pkg) : List (Nat × Layer) → Nat → ResAct
  | [], _ => .none
  | (key, e) :: r, room =>
    let need := slotNeed p e
    if need ≤ room then demandAct p r (room - need)
    else match takeVictims p (victims p (mpriOf p key)) (need - room) with
      | none => .none
      | some l => .evict l

def nextAct (now : Nat) (p : Pkg) : ResAct :=
  if p.poolNew.isSome then .none else
  match nextArrival now p with
  | none => .none
  | some (key, e) =>
    if p.streams < 4 ∧ slotNeed p e ≤ (freeSlots p).length then .start key
    else demandAct p (arriveSort p (p.layers.filter (fun e => isDemand now e.2))) ((freeSlots p).length + comingSlots p)

/-- Layers that leave at once: their frames are bad (R443), their definition changes (R474), or the pool does (R131). -/
def mustEvict (p : Pkg) : List Nat :=
  (p.layers.filter (fun e => e.2.st == LayerSt.resident && e.2.pins.isEmpty && e.2.inflight == 0 && (e.2.evictNow || p.poolNew.isSome))).map (fun e => e.1)

/-- Has the engine of a package something to do? The layer that ARRIVAL_START names. -/
def resDue (h : Hw) (pk : Nat) : Option Nat :=
  let p := h.pkg pk
  match mustEvict p with
  | k :: _ => some k
  | [] => match nextAct h.glob.now p with
    | .none => none
    | .start k => some k
    | .evict _ => (nextArrival h.glob.now p).map (fun e => e.1)

/-! ### Streams (R133, R473) -/

/-- Start a stream over frames of a layer. -/
def startStream (pk key : Nat) (frames : List Nat) : Act := fun h =>
  let e := layerAt h pk key
  withId (fun id => Act.all [
    putAcc id { seat := resSeat, kind := .copy, layer := some key, scPkg := pk, left := 1,
                parts := frames.map (fun f => { pa := e.home + 65536 * f, off := f }) },
    after 0 (.lateDataArrival id 0)]) h

/-- A RESIDENT layer becomes EVICTING: dirty frames go to HOME in ascending order, or it is gone in the next ck. -/
def evictLayer (pk key : Nat) : Act := fun h =>
  let e := layerAt h pk key
  let fs := (List.range e.size).filter (fun f => e.dirty.any (fun d => d.1 == f))
  Act.all [
    modLayer pk key (fun e => { e with st := .evicting }),
    if fs.isEmpty then after 1 (.evictionComplete pk key) else startStream pk key fs] h

/-- Can HOME be reached (R441)? -/
def homeReachable (h : Hw) (pk : Nat) (e : Layer) : Bool := reachable h pk (e.home / 2 ^ 46)

/-- An arrival starts: slots are taken in ascending number and the stream begins; a lost layer's arrival fails (R442), and one
whose HOME no port reaches (R441). -/
def startArrival (pk key : Nat) : Act := fun h =>
  let p := h.pkg pk
  let e := layerAt h pk key
  Act.all [
    modPkg pk (fun p => { p with streams := p.streams + 1 }),
    modLayer pk key (fun e => { e with st := .arriving, cand := false, slots := (freeSlots p).take (slotNeed p e) }),
    if e.lost then after 0 (.ext (.arrivalFailure pk key 1))
    else if !homeReachable h pk e then after 0 (.ext (.arrivalFailure pk key 2))
    else startStream pk key (List.range e.size)] h

/-- ARRIVAL_START: the engine's choice in this ck (R136, R137). -/
def resAct (pk : Nat) : Act := fun h =>
  let p := h.pkg pk
  match mustEvict p with
  | k :: r => Act.each (k :: r) (evictLayer pk) h
  | [] => match nextAct h.glob.now p with
    | .none => []
    | .start k => startArrival pk k h
    | .evict l => Act.each l (evictLayer pk) h

def execArrivalStart (s : State) : Host.Outcome State Fault Refusal :=
  match s.ev with
  | .arrivalStart pk _ => eventAct s (resAct pk)
  | _ => eventAct s Act.nil

/-- ARRIVAL_COMPLETE (R133): waiting LACQs complete when their bundles are next presented. -/
def execArrivalComplete (s : State) : Host.Outcome State Fault Refusal :=
  match s.ev with
  | .arrivalComplete pk key => eventAct s (Act.look (fun h =>
      if (layerAt h pk key).st = LayerSt.arriving then Act.all [
        modPkg pk (fun p => { p with streams := p.streams - 1 }),
        modLayer pk key (fun e => { e with
          st := .resident, rel := h.cycle pk, failed := e.failed && e.demandAt.isNone, demandAt := none, cand := false, evictNow := false,
          dirty := [] })]
      else Act.nil))
  | _ => eventAct s Act.nil

/-- EVICTION_COMPLETE (R133). -/
def execEvictionComplete (s : State) : Host.Outcome State Fault Refusal :=
  match s.ev with
  | .evictionComplete pk key => eventAct s (Act.look (fun h =>
      if (layerAt h pk key).st = LayerSt.evicting then
        modLayer pk key (fun e => { e with st := .absent, slots := [], dirty := [], evictNow := false, absentAt := h.glob.now + 1 })
      else Act.nil))
  | _ => eventAct s Act.nil

/-! ### Failures (R440 to R442) -/

/-- The streams of a layer stop. -/
def stopStreams (pk key : Nat) : Act := Act.look (fun h =>
  Act.each ((h.accs.filter (fun a => a.2.seat == resSeat && a.2.scPkg == pk && a.2.layer == some key)).map (fun a => a.1)) dropAcc)

/-- The seats whose bundle stalls on a layer. -/
def stalledOn (h : Hw) (pk key : Nat) : List Nat :=
  (h.seats.filter (fun s => pkgOfCore (coreOf s.1) == pk && (match s.2.wait with
    | .lacq m l _ => 1024 * m + l == key
    | _ => false))).map (fun s => s.1)

/-- The record of a package's residency engine. -/
def resRec (code key : Nat) : ErrRec := { code := code, tval := BitVec.ofNat 64 key, unitk := 5 }

/-- ARRIVAL_FAILURE: nothing of it stays; each stalled seat is charged at once, or the engine notes it (R441). -/
def arrivalFails (pk key reason : Nat) : Act := fun h =>
  if (layerAt h pk key).st ≠ LayerSt.arriving then []
  else
    let ks := stalledOn h pk key
    Act.all [
      stopStreams pk key,
      modPkg pk (fun p => { p with streams := p.streams - 1 }),
      modLayer pk key (fun e => { e with st := .absent, slots := [], failed := true, demandAt := none, cand := false, dirty := [] }),
      Act.each ks (fun k => trapEntry k [{ code := 0xC0 + reason % 16, tval := 0, slots := 0 }]),
      Act.when ks.isEmpty (record (4 * pk) { resRec (0xD0 + reason % 16) key with unit := pk })] h

def execArrivalFailure (pk key reason : Nat) (s : State) : Host.Outcome State Fault Refusal := eventAct s (arrivalFails pk key reason)

/-- WRITE_BACK_FAILURE (R442): the layer is ABSENT and lost. -/
def writeBackFails (pk key : Nat) : Act := fun h =>
  if (layerAt h pk key).st ≠ LayerSt.evicting then []
  else Act.all [
    stopStreams pk key,
    modLayer pk key (fun e => { e with st := .absent, slots := [], dirty := [], lost := true, evictNow := false }),
    record (4 * pk) { resRec 0xD3 key with unit := pk }] h

def execWriteBackFailure (pk key : Nat) (s : State) : Host.Outcome State Fault Refusal := eventAct s (writeBackFails pk key)

/-- Has an LACQ stalled for 2^26 ck (R440)? -/
def lacqLate (h : Hw) (k : Nat) : Bool :=
  match (h.seat k).wait with
  | .lacq _ _ start => decide (start + 2 ^ 26 ≤ h.glob.now)
  | _ => false

/-- LACQ_TIMEOUT: the stall raises 0x0C0. -/
def execLacqTimeout (s : State) : Host.Outcome State Fault Refusal :=
  match s.ev with
  | .lacqTimeout k => eventAct s (trapEntry k [{ code := 0xC0, tval := 0, slots := 0 }])
  | _ => eventAct s Act.nil

/-! ### Definitions (R130, R439, R474) -/

/-- Does a running instance name a model whose context stands in a package? -/
def modelRuns (h : Hw) (pk m : Nat) : Bool := h.insts.any (fun i => i.2.st == 1 && i.2.models.contains m && i.2.mpkgs.contains pk)

/-- Does a running instance name any model of a package? -/
def anyModelRuns (h : Hw) (pk : Nat) : Bool := h.insts.any (fun i => i.2.st == 1 && i.2.mpkgs.contains pk && !i.2.models.isEmpty)

/-- The kept layers of a model, in index order. -/
def keptLayers (p : Pkg) (m : Nat) : List (Nat × Nat) :=
  (List.range (SMap.get {} p.models m).nl).map (fun l => let e := SMap.get {} p.layers (1024 * m + l); (e.home, e.size))

/-- Do the kept entries of a model differ from an image's? -/
def modelDiffers (p : Pkg) (m : ModelImg) : Bool :=
  let d := SMap.get {} p.models m.model
  d.defined && (d.nl != m.nl || keptLayers p m.model != m.layers)

/-- Are the pool parameters valid (R131, R439), and does the stack work (R360)? -/
def poolOk (p : Pkg) (pk : Nat) : Bool :=
  let size := p.poolNs * 2 ^ p.poolK * 65536
  decide (p.poolK ≤ 14) && decide (1 ≤ p.poolNs) && decide (p.poolNs ≤ 16384) && p.poolBase / 2 ^ 46 == pk && p.poolBase % 65536 == 0 &&
  hbmOk p.poolBase && stkWorks p (p.poolBase / 2 ^ 36 % 1024) && decide (p.poolBase % 2 ^ 36 + size ≤ 48000000000)

/-- The first code of R439 that an image's models raise; none when they pass. (DEDUCED, log 41) -/
def modelsCode (h : Hw) (pk : Nat) (ms : List ModelImg) : Option Nat :=
  let p := h.pkg pk
  if ms.isEmpty then none
  else if !poolOk p pk then some 0xDA
  else ms.findSome? (fun m =>
    if m.layers.length ≠ m.nl ∨ (modelRuns h pk m.model ∧ modelDiffers p m) then some 0xD9
    else m.layers.findSome? (fun l =>
      if 12 ≤ l.1 / 2 ^ 36 % 1024 then some 0xDC
      else if l.2 = 0 ∨ 48000000000 < l.1 % 2 ^ 36 + 65536 * l.2 then some 0xD8
      else if p.poolNs < ceilDiv l.2 (2 ^ p.poolK) then some 0xD4
      else none))

/-- Must the start wait: a change of the pool, or a kept context with other entries whose layers are not all ABSENT? -/
def modelsWait (h : Hw) (pk : Nat) (ms : List ModelImg) : Bool :=
  let p := h.pkg pk
  !ms.isEmpty && (p.poolNew.isSome || ms.any (fun m => modelDiffers p m && !modelRuns h pk m.model &&
    p.layers.any (fun e => e.1 / 1024 == m.model && e.2.st != LayerSt.absent)))

/-- Evict the layers of contexts that are to be defined anew (R474). -/
def modelsClear (pk : Nat) (ms : List ModelImg) : Act := Act.look (fun h =>
  let p := h.pkg pk
  Act.each (ms.filter (fun m => modelDiffers p m && !modelRuns h pk m.model)) (fun m => modPkg pk (fun p => { p with
    layers := p.layers.map (fun e => if e.1 / 1024 = m.model ∧ e.2.st ≠ LayerSt.absent then (e.1, { e.2 with evictNow := true }) else e) })))

/-- Define the contexts of an instance that starts: the first one to name a model sets MPRI and PFW; equal entries keep
their layers. -/
def modelsDefine (pk : Nat) (ms : List ModelImg) : Act := Act.look (fun h =>
  Act.each (ms.filter (fun m => !modelRuns h pk m.model)) (fun m => modPkg pk (fun p =>
    let keep := (SMap.get {} p.models m.model).defined && !modelDiffers p m
    let old := p.layers.filter (fun e => e.1 / 1024 != m.model)
    { p with
      models := SMap.insert p.models m.model { defined := true, mpri := m.mpri, pfw := m.pfw, nl := m.nl, win := m.pfw },
      layers := if keep then p.layers else m.layers.zipIdx.foldl (fun a l =>
        SMap.insert a (1024 * m.model + l.2) { home := l.1.1, size := l.1.2 }) old })))

/-- The packages in which an instance that starts now uses contexts: its own, and each other one with a pool. -/
def modelPkgs (h : Hw) (pk : Nat) : List Nat := pk :: (List.range h.glob.npkg).filter (fun p => p != pk && poolOk (h.pkg p) p)

/-- The code under which an instance's models do not start: of R439 in its own package, and a definition that stands in another (R474). -/
def startCode (h : Hw) (pk : Nat) (ms : List ModelImg) : Option Nat :=
  match modelsCode h pk ms with
  | some c => some c
  | none => if (modelPkgs h pk).any (fun q => ms.any (fun m => modelRuns h q m.model && modelDiffers (h.pkg q) m)) then some 0xD9 else none

/-- The models of an instance that ended lose their lost marks once no running instance names them (R442). -/
def modelsEnd (pk : Nat) (ms : List Nat) : Act := Act.look (fun h => modPkg pk (fun p => { p with
  layers := p.layers.map (fun e => if ms.contains (e.1 / 1024) ∧ !modelRuns h pk (e.1 / 1024) then (e.1, { e.2 with lost := false }) else e) }))

/-! ### The pool (R131) -/

/-- Does a package take anything at its ports: it is powered, and no wipe runs (R361)? -/
def portsLive (h : Hw) (pk : Nat) : Bool :=
  decide (pk < h.glob.npkg) && !(h.pkg pk).off && decide ((h.pkg pk).wipeUntil ≤ h.glob.now)

/-- A message of a port (R353): 0 a refusal, 1 the winner of an election, 2 a report's number, 3 a record forwarded, 4 a report's
status, 5 and 6 attestation. -/
def answer (pk kind v : Nat) : Act := modPkg pk (fun p => { p with replies := p.replies ++ [(kind, v)] })

/-- A write that is not the owner's, or that its register refuses: discarded, answered, recorded (R353, R394). -/
def refuseWrite (pk : Nat) : Act := fun h => Act.all [answer pk 0 0,
  record (4 * pk) { code := 0x1A7, unitk := 8, unit := (h.pkg pk).oport }] h

/-- Does a node own the package? -/
def isOwner (h : Hw) (pk node : Nat) : Bool := (h.pkg pk).ownv && (h.pkg pk).owner == node

/-- A write of pool parameters: refused while a running instance names a model of the package (0x1A7); else every layer is
evicted first. -/
def poolWrite (pk base k ns : Nat) : Act := fun h =>
  if anyModelRuns h pk then refuseWrite pk h
  else modPkg pk (fun p => { p with poolNew := some (base, k, ns) }) h

/-- POOL_PARAMETER_WRITE by the owner: base, then k and NS (R354, R353). -/
def execPoolParameterWrite (pk node : Nat) (base kns : W64) (s : State) : Host.Outcome State Fault Refusal :=
  eventAct s (Act.look (fun h =>
    if !portsLive h pk then Act.nil
    else if !isOwner h pk node then refuseWrite pk
    else poolWrite pk base.toNat (kns.toNat % 16) (field kns.toNat 30 16)))

/-- Can a change of the pool complete? -/
def poolDue (h : Hw) (pk : Nat) : Bool :=
  let p := h.pkg pk
  p.poolNew.isSome && p.layers.all (fun e => e.2.st == LayerSt.absent)

/-- POOL_CHANGE_COMPLETE: the new parameters apply. -/
def execPoolChangeComplete (s : State) : Host.Outcome State Fault Refusal :=
  match s.ev with
  | .poolChangeComplete pk => eventAct s (modPkg pk (fun p => match p.poolNew with
      | none => p
      | some (b, k, n) => { p with poolBase := b, poolK := k, poolNs := n, poolNew := none }))
  | _ => eventAct s Act.nil

end Sys2Proof.Machine
end

