-- ==== Sys2Proof/Machine/Place.lean ====
section
/-! DEFINITION. Where a node may stand: the fit of a seat (R41), the first fit of a placement (R42, R43), reservations and the
choice of victims (R45, R46). -/

namespace Sys2Proof.Machine

/-- Order a list. -/
def sortBy {α : Type} (lt : α → α → Bool) : List α → List α
  | [] => []
  | x :: r =>
    let rec ins : List α → List α
      | [] => [x]
      | y :: l => if lt x y then x :: y :: l else y :: ins l
    ins (sortBy lt r)

/-! ### The fit of one seat (R41) -/

/-- Do two flag ranges overlap? -/
def flagsMeet (a b : LoopRec) : Bool :=
  a.fcnt != 0 && b.fcnt != 0 && decide (a.fbase < b.fbase + b.fcnt) && decide (b.fbase < a.fbase + a.fcnt)

/-- May two seats stand on one core: for every kind the counts do not exceed the core's total, and flags are apart. -/
def pairOk (a b : LoopRec) : Bool :=
  decide (a.gn + b.gn ≤ 256) && decide (a.an + b.an ≤ 8) && decide (a.bn + b.bn ≤ 4) && decide (a.hn + b.hn ≤ 8) &&
  decide (a.ln + b.ln ≤ 32) && !flagsMeet a b

/-- Occupied seats with their loop records. -/
abbrev Occ := List (Nat × LoopRec)

/-- Is a physical seat taken, or promised to a placement under way? -/
def seatTaken (s : Seat) : Bool := s.st != SeatSt.free || s.inst != 0

/-- The seats of the domain that are taken. -/
def occOf (h : Hw) : Occ := (h.seats.filter (fun e => decide (e.1 < 2 ^ 18) && seatTaken e.2)).map (fun e => (e.1, e.2.lrec))

/-- The saved seats, whose flags stay reserved on their cores (R53); `but` names one that does not count. -/
def savedOf (h : Hw) (but : Nat) : List (Nat × LoopRec) :=
  (h.seats.filter (fun e => decide (2 ^ 18 ≤ e.1) && e.2.st == SeatSt.saved && e.1 != but)).map (fun e => (coreOf e.1, e.2.lrec))

/-- Does a seat with a loop record fit on a seat of a core? A seat may stand in the list more than once, occupied and reserved (R45). -/
def seatFits (o : Occ) (sv : List (Nat × LoopRec)) (r : LoopRec) (core : Nat) (s1 : Bool) : Bool :=
  o.all (fun e => e.1 != seatKey core s1 && (e.1 != seatKey core (!s1) || pairOk r e.2)) &&
  sv.all (fun e => e.1 != core || !flagsMeet r e.2)

/-! ### First fit (R42, R43) -/

/-- A seat of a placement: its key and its ordinals i′, j, k. -/
structure Spot where
  key : Nat
  i : Nat
  j : Nat
  k : Nat

/-- May a placement use a core at all: it works, its stack group is not under reset, and the junction fields admit it? -/
def coreUsable (h : Hw) (pl : PlaceImg) (p cl i : Nat) : Bool :=
  let pk := h.pkg p
  coreWorks pk (8 * cl + i) && !pk.fenced.contains (12 * p + stackOfCl cl) &&
  !(pl.jct && junctionOf pk cl != i) && !(pl.xj && junctionOf pk cl == i)

/-- The seat that a placement takes on a core: seat 0 before seat 1. -/
def coreSeat (h : Hw) (o : Occ) (sv : List (Nat × LoopRec)) (pl : PlaceImg) (r : LoopRec) (p cl i : Nat) : Option Nat :=
  let core := 1152 * p + 8 * cl + i
  let sides := if pl.seat = 1 then [false] else if pl.seat = 2 then [true] else [false, true]
  if coreUsable h pl p cl i then (sides.find? (fun s => seatFits o sv r core s)).map (seatKey core) else none

/-- The seats of a cluster, one on each core, if it holds the full count. -/
def clusterSeats (h : Hw) (o : Occ) (sv : List (Nat × LoopRec)) (pl : PlaceImg) (r : LoopRec) (p cl : Nat) : Option (List Nat) :=
  let l := ((List.range 8).filterMap (coreSeat h o sv pl r p cl)).take pl.cpc
  if l.length = pl.cpc then some l else none

/-- The clusters of a stack group whose stack works (R21, R360), in ascending die-local number, if it holds the full count. -/
def groupSeats (h : Hw) (o : Occ) (sv : List (Nat × LoopRec)) (pl : PlaceImg) (r : LoopRec) (g : Nat) : Option (List (List Nat)) :=
  let s := g % 12
  if !stkWorks (h.pkg (g / 12)) s then none else
  let l := ((List.range 12).filterMap (fun c => clusterSeats h o sv pl r (g / 12) (clOfLocal (s / 3) (12 * (s % 3) + c)))).take pl.cps
  if l.length = pl.cps then some l else none

/-- The first fit from SGBASE on, wrapping at the domain's last stack group. -/
def domainSeats (h : Hw) (o : Occ) (sv : List (Nat × LoopRec)) (pl : PlaceImg) (r : LoopRec) : Option (List (List (List Nat))) :=
  let n := 12 * h.glob.npkg
  let l := ((List.range n).filterMap (fun i => groupSeats h o sv pl r ((pl.sgbase + i) % n))).take pl.spd
  if l.length = pl.spd then some l else none

/-- The seats of a placement with their ordinals. -/
def spotsOf (l : List (List (List Nat))) : List Spot :=
  l.zipIdx.flatMap (fun g => g.1.zipIdx.flatMap (fun c => c.1.zipIdx.map (fun s => { key := s.1, i := s.2, j := c.2, k := g.2 })))

/-- The number of seats (R43). -/
def PlaceImg.count (pl : PlaceImg) : Nat := pl.cpc * pl.cps * pl.spd

/-! ### Entries of the order (R45) -/

/-- A ready node or a saved seat. -/
structure Entry where
  pri : Nat
  rel : Nat
  node : Nat
  inst : Nat
  saved : Option Nat

/-- Priority descending, release time, node index and instance number ascending. -/
def Entry.before (a b : Entry) : Bool :=
  if a.pri ≠ b.pri then decide (b.pri < a.pri)
  else if a.rel ≠ b.rel then decide (a.rel < b.rel)
  else if a.node ≠ b.node then decide (a.node < b.node)
  else decide (a.inst < b.inst)

/-- The placement of a node of an instance, from its image. -/
def nodePlace (h : Hw) (inst node : Nat) : PlaceImg :=
  let i := h.inst inst
  placeImg h i.pkg i.img (nodeImg h i.pkg i.img node).place

def nodeLrec (h : Hw) (inst node : Nat) : LoopRec :=
  let i := h.inst inst
  (lrecImg h i.pkg i.img (nodeImg h i.pkg i.img node).lrec).1

/-- The loop record of an entry. -/
def Entry.lrec (h : Hw) (e : Entry) : LoopRec :=
  match e.saved with
  | some k => (h.seat k).lrec
  | none => nodeLrec h e.inst e.node

/-- Where an entry fits among occupied seats. A saved seat goes back to its own core and seat (R49). -/
def Entry.spots (h : Hw) (e : Entry) (o : Occ) (sv : List (Nat × LoopRec)) : Option (List Spot) :=
  match e.saved with
  | some k => if seatFits o sv (e.lrec h) (coreOf k) (isSeat1 k) then some [{ key := k % 2 ^ 18, i := 0, j := 0, k := 0 }] else none
  | none => (domainSeats h o sv (nodePlace h e.inst e.node) (e.lrec h)).map spotsOf

/-- The units that R43 would give an entry once they are free, outside the reservations before it. -/
def Entry.reserve (h : Hw) (e : Entry) (resv : Occ) : Occ :=
  match e.spots h resv [] with
  | none => []
  | some l => l.map (fun s => (s.key, e.lrec h))

/-- The first entry of an ordered list that fits outside the reservations of those before it. (DEDUCED, log 47) -/
def firstFit (h : Hw) (o : Occ) : List Entry → Occ → Option (Entry × List Spot)
  | [], _ => none
  | e :: r, resv =>
    match e.spots h (o ++ resv) (savedOf h (e.saved.getD 0)) with
    | some l => some (e, l)
    | none => firstFit h o r (resv ++ e.reserve h resv)

/-! ### Victims (R46) -/

/-- Is a seat on its way out already? -/
def leaving (s : Seat) : Bool := s.preReq || s.preempt || s.st == SeatSt.saving || s.st == SeatSt.retiring

/-- Can the reservation be met when the seats `out` have left? -/
def resvMet (h : Hw) (resv : Occ) (out : List Nat) : Bool :=
  let o := (h.seats.filter (fun e => decide (e.1 < 2 ^ 18) && seatTaken e.2 && !leaving e.2 && !out.contains e.1)).map (fun e => (e.1, e.2.lrec))
  resv.all (fun r => seatFits o [] r.2 (coreOf r.1) (isSeat1 r.1))

/-- Does a seat hold units of a reservation? -/
def holdsUnits (k : Nat) (s : Seat) (resv : Occ) : Bool :=
  resv.any (fun r => coreOf r.1 == coreOf k && (r.1 == k || !pairOk r.2 s.lrec))

/-- Lowest PRI first, then latest release time, then highest domain core number. -/
def victimBefore (a b : Nat × Seat) : Bool :=
  if a.2.lrec.pri ≠ b.2.lrec.pri then decide (a.2.lrec.pri < b.2.lrec.pri)
  else if a.2.relTime ≠ b.2.relTime then decide (b.2.relTime < a.2.relTime)
  else decide (b.1 < a.1)

/-- Take seats until the reservation can be met. -/
def takeUntil (met : List Nat → Bool) : List Nat → List Nat → List Nat
  | out, [] => out
  | out, k :: r => if met out then out else takeUntil met (out ++ [k]) r

/-- The seats that are asked to leave for the first entry. -/
def victimSeats (h : Hw) (pri : Nat) (resv : Occ) : List Nat :=
  let c := h.seats.filter (fun e => decide (e.1 < 2 ^ 18) && e.2.st != SeatSt.free && !leaving e.2 && decide (e.2.lrec.pri < pri) && holdsUnits e.1 e.2 resv)
  takeUntil (resvMet h resv) [] ((sortBy victimBefore c).map (fun e => e.1))

end Sys2Proof.Machine
end

