-- ==== Sys2Proof/Machine/Scalar.lean ====
section
/-! DEFINITION. The meanings of the scalar slot (R188 to R221). -/

namespace Sys2Proof.Machine

/-! ### Integer register forms (R191 to R193) -/

/-- NOP has no effect (R191). -/
def execNop (s : State) : Host.Outcome State Fault Refusal := slotOp .nop s (fun _ => Out.ok Act.nil)

/-- A w-bit result image as a scalar register (R192). -/
def srResult (w : Bool) (r : Nat) : W64 := if w then w64 (sextNat 32 r) else BitVec.ofNat 64 r

/-- Width of a register form. -/
def srWidth (w : Bool) : Nat := if w then 32 else 64

/-- A register form (R192): the operation on w-bit images, written `lat` ck after issue (R190). -/
def srOp (c : Ctx) (f : FSR) (lat : Nat) (op : Nat → Nat → Nat → Nat) : Out :=
  let w := srWidth f.w
  Out.check (xLim c [f.d, f.a, f.b])
    { act := wX c f.d (srResult f.w (op w (xOp c f.a % 2 ^ w) (xOp c f.b % 2 ^ w))) lat, reads := xReads [f.a, f.b] }

/-- A unary register form (R192). -/
def sr1Op (c : Ctx) (f : FSR1) (op : Nat → Nat → Nat) : Out :=
  let w := srWidth f.w
  Out.check (xLim c [f.d, f.a]) { act := wX c f.d (srResult f.w (op w (xOp c f.a % 2 ^ w))) 0, reads := xReads [f.a] }

/-- A divide (R190, R193): a zero divisor is the cause 0x058 with the dividend; the seat's divider is busy until the
result has written. -/
def divOp (c : Ctx) (f : FSR) (op : Nat → Nat → Nat → Nat) : Out :=
  let w := srWidth f.w
  let a := xOp c f.a % 2 ^ w
  let b := xOp c f.b % 2 ^ w
  Out.check (xLim c [f.d, f.a, f.b] ++ (if b = 0 then [mkCause 0x058 a c.sl] else []))
    { act := Act.all [wX c f.d (srResult f.w (op w a b)) 17, modSeat c.k (fun s => { s with divUntil := c.t + 18 })],
      reads := xReads [f.a, f.b] }

/-- ADD (R192). -/
def execAdd (f : FSR) (s : State) : Host.Outcome State Fault Refusal :=
  slotOp (.add f) s (fun c => srOp c f 0 (fun _ a b => a + b))

/-- SUB (R192). -/
def execSub (f : FSR) (s : State) : Host.Outcome State Fault Refusal :=
  slotOp (.sub f) s (fun c => srOp c f 0 (fun w a b => a + 2 ^ w - b))

/-- AND (R192). -/
def execAnd (f : FSR) (s : State) : Host.Outcome State Fault Refusal :=
  slotOp (.and_ f) s (fun c => srOp c f 0 (fun _ a b => a &&& b))

/-- OR (R192). -/
def execOr (f : FSR) (s : State) : Host.Outcome State Fault Refusal :=
  slotOp (.or_ f) s (fun c => srOp c f 0 (fun _ a b => a ||| b))

/-- XOR (R192). -/
def execXor (f : FSR) (s : State) : Host.Outcome State Fault Refusal :=
  slotOp (.xor_ f) s (fun c => srOp c f 0 (fun _ a b => a ^^^ b))

/-- SHL (R192). -/
def execShl (f : FSR) (s : State) : Host.Outcome State Fault Refusal :=
  slotOp (.shl f) s (fun c => srOp c f 0 (fun w a b => a <<< (b % w)))

/-- SHR (R192). -/
def execShr (f : FSR) (s : State) : Host.Outcome State Fault Refusal :=
  slotOp (.shr f) s (fun c => srOp c f 0 (fun w a b => a >>> (b % w)))

/-- SRA (R192). -/
def execSra (f : FSR) (s : State) : Host.Outcome State Fault Refusal :=
  slotOp (.sra f) s (fun c => srOp c f 0 (fun w a b => imageNat w (sextNat w a >>> (b % w))))

/-- SLT (R192). -/
def execSlt (f : FSR) (s : State) : Host.Outcome State Fault Refusal :=
  slotOp (.slt f) s (fun c => srOp c f 0 (fun w a b => if sextNat w a < sextNat w b then 1 else 0))

/-- SLTU (R192). -/
def execSltu (f : FSR) (s : State) : Host.Outcome State Fault Refusal :=
  slotOp (.sltu f) s (fun c => srOp c f 0 (fun _ a b => if a < b then 1 else 0))

/-- MIN (R192). -/
def execMin (f : FSR) (s : State) : Host.Outcome State Fault Refusal :=
  slotOp (.min_ f) s (fun c => srOp c f 0 (fun w a b => if sextNat w a < sextNat w b then a else b))

/-- MAX (R192). -/
def execMax (f : FSR) (s : State) : Host.Outcome State Fault Refusal :=
  slotOp (.max_ f) s (fun c => srOp c f 0 (fun w a b => if sextNat w a < sextNat w b then b else a))

/-- MINU (R192). -/
def execMinu (f : FSR) (s : State) : Host.Outcome State Fault Refusal :=
  slotOp (.minu f) s (fun c => srOp c f 0 (fun _ a b => min a b))

/-- MAXU (R192). -/
def execMaxu (f : FSR) (s : State) : Host.Outcome State Fault Refusal :=
  slotOp (.maxu f) s (fun c => srOp c f 0 (fun _ a b => max a b))

/-- MUL (R192). -/
def execMul (f : FSR) (s : State) : Host.Outcome State Fault Refusal :=
  slotOp (.mul f) s (fun c => srOp c f 2 (fun _ a b => a * b))

/-- MULH (R192). -/
def execMulh (f : FSR) (s : State) : Host.Outcome State Fault Refusal :=
  slotOp (.mulh f) s (fun c => srOp c f 2 (fun w a b => imageNat w (sextNat w a * sextNat w b / (2 ^ w : Nat))))

/-- MULHU (R192). -/
def execMulhu (f : FSR) (s : State) : Host.Outcome State Fault Refusal :=
  slotOp (.mulhu f) s (fun c => srOp c f 2 (fun w a b => a * b / 2 ^ w))

/-- ADDS (R192). -/
def execAdds (f : FSR) (s : State) : Host.Outcome State Fault Refusal :=
  slotOp (.adds f) s (fun c => srOp c f 0 (fun w a b => imageNat w (clampInt (sextNat w a + sextNat w b) (-(2 ^ (w - 1) : Nat)) ((2 ^ (w - 1) : Nat) - 1))))

/-- SUBS (R192). -/
def execSubs (f : FSR) (s : State) : Host.Outcome State Fault Refusal :=
  slotOp (.subs f) s (fun c => srOp c f 0 (fun w a b => imageNat w (clampInt (sextNat w a - sextNat w b) (-(2 ^ (w - 1) : Nat)) ((2 ^ (w - 1) : Nat) - 1))))

/-- SEQ (R192). -/
def execSeq (f : FSR) (s : State) : Host.Outcome State Fault Refusal :=
  slotOp (.seq f) s (fun c => srOp c f 0 (fun _ a b => if a = b then 1 else 0))

/-- SNE (R192). -/
def execSne (f : FSR) (s : State) : Host.Outcome State Fault Refusal :=
  slotOp (.sne f) s (fun c => srOp c f 0 (fun _ a b => if a = b then 0 else 1))

/-- ADDX (R192). -/
def execAddx (f : FSR) (s : State) : Host.Outcome State Fault Refusal :=
  slotOp (.addx f) s (fun c => srOp c f 0 (fun _ a b => a + b % 2 ^ 32))

/-- DIV (R192, R193). -/
def execDiv (f : FSR) (s : State) : Host.Outcome State Fault Refusal :=
  slotOp (.div f) s (fun c => divOp c f (fun w a b => if sextNat w b = 0 then 0 else imageNat w ((sextNat w a).tdiv (sextNat w b))))

/-- DIVU (R192, R193). -/
def execDivu (f : FSR) (s : State) : Host.Outcome State Fault Refusal :=
  slotOp (.divu f) s (fun c => divOp c f (fun _ a b => a / b))

/-- REM (R192, R193). -/
def execRem (f : FSR) (s : State) : Host.Outcome State Fault Refusal :=
  slotOp (.rem f) s (fun c => divOp c f (fun w a b => imageNat w ((sextNat w a).tmod (sextNat w b))))

/-- REMU (R192, R193). -/
def execRemu (f : FSR) (s : State) : Host.Outcome State Fault Refusal :=
  slotOp (.remu f) s (fun c => divOp c f (fun _ a b => a % b))

/-- CLZ: leading zero bits (R192). -/
def execClz (f : FSR1) (s : State) : Host.Outcome State Fault Refusal :=
  slotOp (.clz f) s (fun c => sr1Op c f (fun w a => if a = 0 then w else w - 1 - Nat.log2 a))

/-- Set bits of a natural below 2^w. -/
def popCount (w a : Nat) : Nat := ((List.range w).filter (fun i => a.testBit i)).length

/-- POPC: set bits (R192). -/
def execPopc (f : FSR1) (s : State) : Host.Outcome State Fault Refusal := slotOp (.popc f) s (fun c => sr1Op c f popCount)

/-! ### Immediate forms (R194) -/

/-- An immediate form: the operation on the register and the 64-bit image of the immediate. -/
def siOp (c : Ctx) (f : FSI) (op : Nat → Nat → Nat) : Out :=
  Out.check (xLim c [f.d, f.a])
    { act := wX c f.d (BitVec.ofNat 64 (op (xOp c f.a) (imageNat 64 (immInt f.imm)))) 0, reads := xReads [f.a] }

/-- ADDI (R194). -/
def execAddi (f : FSI) (s : State) : Host.Outcome State Fault Refusal :=
  slotOp (.addi f) s (fun c => siOp c f (fun a i => a + i))

/-- ANDI (R194). -/
def execAndi (f : FSI) (s : State) : Host.Outcome State Fault Refusal :=
  slotOp (.andi f) s (fun c => siOp c f (fun a i => a &&& i))

/-- ORI (R194). -/
def execOri (f : FSI) (s : State) : Host.Outcome State Fault Refusal :=
  slotOp (.ori f) s (fun c => siOp c f (fun a i => a ||| i))

/-- XORI (R194). -/
def execXori (f : FSI) (s : State) : Host.Outcome State Fault Refusal :=
  slotOp (.xori f) s (fun c => siOp c f (fun a i => a ^^^ i))

/-- SHLI (R194). -/
def execShli (f : FSI) (s : State) : Host.Outcome State Fault Refusal :=
  slotOp (.shli f) s (fun c => siOp c f (fun a i => a <<< (i % 64)))

/-- SHRI (R194). -/
def execShri (f : FSI) (s : State) : Host.Outcome State Fault Refusal :=
  slotOp (.shri f) s (fun c => siOp c f (fun a i => a >>> (i % 64)))

/-- SRAI (R194). -/
def execSrai (f : FSI) (s : State) : Host.Outcome State Fault Refusal :=
  slotOp (.srai f) s (fun c => siOp c f (fun a i => imageNat 64 (sextNat 64 a >>> (i % 64))))

/-- SLTI (R194). -/
def execSlti (f : FSI) (s : State) : Host.Outcome State Fault Refusal :=
  slotOp (.slti f) s (fun c => siOp c f (fun a i => if sextNat 64 a < sextNat 64 i then 1 else 0))

/-- SLTIU (R194). -/
def execSltiu (f : FSI) (s : State) : Host.Outcome State Fault Refusal :=
  slotOp (.sltiu f) s (fun c => siOp c f (fun a i => if a < i then 1 else 0))

/-- LIH (R194). -/
def execLih (f : FSI) (s : State) : Host.Outcome State Fault Refusal :=
  slotOp (.lih f) s (fun c => siOp c f (fun a i => i % 2 ^ 32 * 2 ^ 32 + a % 2 ^ 32))

/-- LI (R194). -/
def execLi (d : XNum) (imm : Imm 14) (s : State) : Host.Outcome State Fault Refusal :=
  slotOp (.li d imm) s (fun c => Out.check (xLim c [d]) (Out.ok (wX c d (w64 (immInt imm)) 0)))

/-! ### Branches and jumps (R195 to R197) -/

/-- The target of a branch: the bundle's address + 4·sext(OFF). -/
def branchTarget (c : Ctx) (off : Int) : Nat := addr56 c.pc (4 * off)

/-- A branch (R195). -/
def brOp (c : Ctx) (f : FSB) (taken : Nat → Nat → Bool) : Out :=
  Out.check (xLim c [f.a, f.b])
    { act := Act.nil, reads := xReads [f.a, f.b],
      issue := fun i => if taken (xOp c f.a) (xOp c f.b) then { i with target := some (branchTarget c (immInt f.off)) } else i }

/-- BEQ (R195). -/
def execBeq (f : FSB) (s : State) : Host.Outcome State Fault Refusal :=
  slotOp (.beq f) s (fun c => brOp c f (fun a b => decide (a = b)))

/-- BNE (R195). -/
def execBne (f : FSB) (s : State) : Host.Outcome State Fault Refusal :=
  slotOp (.bne f) s (fun c => brOp c f (fun a b => decide (a ≠ b)))

/-- BLT (R195). -/
def execBlt (f : FSB) (s : State) : Host.Outcome State Fault Refusal :=
  slotOp (.blt f) s (fun c => brOp c f (fun a b => decide (sextNat 64 a < sextNat 64 b)))

/-- BGE (R195). -/
def execBge (f : FSB) (s : State) : Host.Outcome State Fault Refusal :=
  slotOp (.bge f) s (fun c => brOp c f (fun a b => decide (sextNat 64 b ≤ sextNat 64 a)))

/-- BLTU (R195). -/
def execBltu (f : FSB) (s : State) : Host.Outcome State Fault Refusal :=
  slotOp (.bltu f) s (fun c => brOp c f (fun a b => decide (a < b)))

/-- BGEU (R195). -/
def execBgeu (f : FSB) (s : State) : Host.Outcome State Fault Refusal :=
  slotOp (.bgeu f) s (fun c => brOp c f (fun a b => decide (b ≤ a)))

/-- J (R195). -/
def execJ (off : Imm 24) (s : State) : Host.Outcome State Fault Refusal :=
  slotOp (.j off) s (fun c => { act := Act.nil, issue := fun i => { i with target := some (branchTarget c (immInt off)) } })

/-- The return address: the first word after the bundle (R195). -/
def returnAddr (c : Ctx) : W64 := BitVec.ofNat 64 ((c.pc + c.len) % 2 ^ 56)

/-- JAL writes the return address to x1 (R195). (DEDUCED, log 28) -/
def execJal (off : Imm 24) (s : State) : Host.Outcome State Fault Refusal :=
  slotOp (.jal off) s (fun c => Out.check (xLim c [1])
    { act := wX c 1 (returnAddr c) 0, issue := fun i => { i with target := some (branchTarget c (immInt off)) } })

/-- JALR (R196): the phase end address 0x1 ends the phase; a misaligned target is the cause 0x01C. -/
def execJalr (f : FSI) (s : State) : Host.Outcome State Fault Refusal :=
  slotOp (.jalr f) s (fun c =>
    let t := imageNat 64 ((xOp c f.a : Int) + immInt f.imm)
    Out.check (xLim c [f.d, f.a] ++ (if t % 4 ≠ 0 ∧ t ≠ 1 then [mkCause 0x01C t c.sl] else []))
      { act := wX c f.d (returnAddr c) 0, reads := xReads [f.a],
        issue := fun i => if t = 1 then { i with after := 1 } else { i with target := some (t % 2 ^ 56) } })

/-! ### Hardware loops (R168, R198, R409) -/

/-- LOOP and LOOPR: push a level, or skip the body when the count is zero. -/
def loopOp (c : Ctx) (e n : Nat) : Out :=
  let stop := addr56 c.pc (4 * e)
  if c.s.loops.any (fun l => l.stop == c.pc) then Out.fail (mkCause 0x01F e c.sl)
  else if n = 0 then
    match fetchRaw c.h c.core c.s.img c.s.inst stop 32 with
    | .error x => Out.fail { x with slots := 1 }
    | .ok (_, _, len) => { act := bundleFill c.core c.s.img stop len,
                           issue := fun i => { i with target := some ((stop + len) % 2 ^ 56) } }
  else if 4 ≤ c.s.loops.length then Out.fail (mkCause 0x01E e c.sl)
  else { act := Act.nil,
         issue := fun i => { i with push := some { start := (c.pc + c.len) % 2 ^ 56, stop := stop, count := n } } }

/-- LOOP (R198). -/
def execLoop (e : BitVec 16) (count : BitVec 32) (s : State) : Host.Outcome State Fault Refusal :=
  slotOp (.loop e count) s (fun c => loopOp c e.toNat count.toNat)

/-- LOOPR (R198). -/
def execLoopr (a : XNum) (e : BitVec 16) (s : State) : Host.Outcome State Fault Refusal :=
  slotOp (.loopr a e) s (fun c =>
    let o := loopOp c e.toNat (xOp c a % 2 ^ 32)
    Out.check (xLim c [a] ++ o.causes) { o with reads := xReads [a] })

/-! ### Loads and stores (R199 to R202) -/

/-- LD (R199): the value lands at c + LAND. -/
def execLd (f : FSM) (s : State) : Host.Outcome State Fault Refusal :=
  slotOp (.ld f) s (fun c =>
    let va := addr56 (xOp c f.a) (offInt f.off)
    let n := 2 ^ (f.sz.toNat % 4)
    let parts := lineParts 2 va n 0
    let land := landOf c.s.lddef (offLand f.off)
    let a : Access := { seat := c.k, kind := .load c.order n (decide (f.sz.toNat < 4)), img := c.s.img,
                        cls := 2, bypass := f.bypass, parts := parts }
    Out.check (xLim c [f.d, f.a] ++ flatCauses c.co c.s.img 2 false c.sl parts)
      { act := withId (fun id => Act.all [
          modSeat c.k (fun s => s.addPend { xPend f.d.toNat 0 (c.t + land) c.order with acc := some id, load := 1 }),
          startFlat c.k a id]),
        reads := xReads [f.a] })

/-- The parts of a store of the n low bytes of v. -/
def storeParts (va n v : Nat) : List Part :=
  (lineParts 2 va n 0).map (fun p =>
    { p with wdata := (List.range p.len).map (fun j => (j, BitVec.ofNat 8 (v / 256 ^ (p.off + j)))) })

/-- ST (R200). SZ 4 to 6, BY and LAND fall back (R179). -/
def execSt (f : FSM) (s : State) : Host.Outcome State Fault Refusal :=
  slotOp (.st f) s (fun c =>
    let va := addr56 (xOp c f.a) (offInt f.off)
    let parts := storeParts va (2 ^ (f.sz.toNat % 4)) (xOp c f.d)
    let a : Access := { seat := c.k, kind := .store, img := c.s.img, cls := 3, parts := parts }
    Out.check (xLim c [f.d, f.a] ++ flatCauses c.co c.s.img 3 true c.sl parts)
      { act := Act.all [
          warnBits c (warnIf (decide (4 ≤ f.sz.toNat) || f.bypass || offLand f.off != 0) wMisc),
          withId (fun id => startFlat c.k a id)],
        reads := xReads [f.d, f.a] })

/-! ### Atomics (R203, R204) -/

/-- An atomic: it needs natural alignment (0x100), executes at its point of coherence, and its old value lands at
c + LAND. AMOFADD runs on 32 bits. -/
def amoOp (c : Ctx) (f : FSA) (op : AmoOp) : Out :=
  let w := f.w || op == .fadd
  let va := xOp c f.a % 2 ^ 56
  let n := if w then 4 else 8
  let parts := lineParts 1 va n 0
  let land := landOf c.s.lddef (f.land.getD 0).toNat
  let a : Access := { seat := c.k, kind := .amo op c.order w (c.s.xr f.b.toNat) (c.s.xr f.d.toNat),
                      img := c.s.img, cls := 4, parts := parts }
  Out.check (xLim c [f.d, f.a, f.b] ++ (if va % n ≠ 0 then [mkCause 0x100 va c.sl] else []) ++
      flatCauses c.co c.s.img 4 true c.sl parts)
    { act := Act.all [
        warnBits c (warnIf (op == .fadd && !f.w) wWidth),
        withId (fun id => Act.all [
          modSeat c.k (fun s => s.addPend { xPend f.d.toNat 0 (c.t + land) c.order with acc := some id, load := 1 }),
          startFlat c.k a id])],
      reads := xReads (if op = .cas then [f.d, f.a, f.b] else [f.a, f.b]) }

/-- AMOADD (R203). -/
def execAmoadd (f : FSA) (s : State) : Host.Outcome State Fault Refusal := slotOp (.amoadd f) s (fun c => amoOp c f .add)

/-- AMOAND (R203). -/
def execAmoand (f : FSA) (s : State) : Host.Outcome State Fault Refusal := slotOp (.amoand f) s (fun c => amoOp c f .and)

/-- AMOOR (R203). -/
def execAmoor (f : FSA) (s : State) : Host.Outcome State Fault Refusal := slotOp (.amoor f) s (fun c => amoOp c f .or)

/-- AMOXOR (R203). -/
def execAmoxor (f : FSA) (s : State) : Host.Outcome State Fault Refusal := slotOp (.amoxor f) s (fun c => amoOp c f .xor)

/-- AMOMIN (R203). -/
def execAmomin (f : FSA) (s : State) : Host.Outcome State Fault Refusal := slotOp (.amomin f) s (fun c => amoOp c f .min)

/-- AMOMAX (R203). -/
def execAmomax (f : FSA) (s : State) : Host.Outcome State Fault Refusal := slotOp (.amomax f) s (fun c => amoOp c f .max)

/-- AMOMINU (R203). -/
def execAmominu (f : FSA) (s : State) : Host.Outcome State Fault Refusal := slotOp (.amominu f) s (fun c => amoOp c f .minu)

/-- AMOMAXU (R203). -/
def execAmomaxu (f : FSA) (s : State) : Host.Outcome State Fault Refusal := slotOp (.amomaxu f) s (fun c => amoOp c f .maxu)

/-- AMOSWAP (R203). -/
def execAmoswap (f : FSA) (s : State) : Host.Outcome State Fault Refusal := slotOp (.amoswap f) s (fun c => amoOp c f .swap)

/-- AMOCAS (R203). -/
def execAmocas (f : FSA) (s : State) : Host.Outcome State Fault Refusal := slotOp (.amocas f) s (fun c => amoOp c f .cas)

/-- AMOFADD (R203). -/
def execAmofadd (f : FSA) (s : State) : Host.Outcome State Fault Refusal := slotOp (.amofadd f) s (fun c => amoOp c f .fadd)
/-! ### Control registers (R67 to R76, R205) -/

/-- COREID of a seat (R75). -/
def coreId (h : Hw) (k : Nat) : W64 :=
  let c := coreOf k
  BitVec.ofNat 64 ((isSeat1 k).toNat + (if isSys c then 0 else c % 8 * 2) + clOfCore c * 2 ^ 4 + pkgOfCore c % 64 * 2 ^ 12 +
    (isJct h c).toNat * 2 ^ 18)

/-- STATE of a layer as RESSTAT codes it (R74). -/
def LayerSt.code : LayerSt → Nat
  | .absent => 0 | .arriving => 1 | .resident => 2 | .evicting => 3

/-- RESSTAT (R74): the layer named last; zero before any. (DEDUCED, log 39) -/
def resStat (h : Hw) (k : Nat) : W64 :=
  match (h.seat k).lastLayer with
  | none => 0
  | some (m, l) =>
    let e := SMap.get {} (h.pkg (pkgOfCore (coreOf k))).layers (1024 * m + l)
    BitVec.ofNat 64 (l % 1024 + e.st.code * 2 ^ 10 + m % 64 * 2 ^ 12 + min 255 (e.pins.foldl (fun a p => a + p.2) 0) * 2 ^ 18)

/-- LANDCFG (R72). -/
def landCfg (s : Seat) : W64 := BitVec.ofNat 64 (s.lddef % 256 + s.cpdef % 4096 * 256)

/-- A count of window accumulator n, zero at AN and above (R69). -/
def accCount (s : Seat) (m : SMap Nat) (n : Nat) : W64 := if n < s.lrec.an then BitVec.ofNat 64 (SMap.get 0 m n) else 0

/-- A seat CSR (R67); none is unassigned. -/
def csrRead (h : Hw) (k n : Nat) : Option W64 :=
  let s := h.seat k
  match n with
  | 0x0000 => some (BitVec.ofNat 64 (h.cycle (pkgOfCore (coreOf k))))
  | 0x0001 => some (BitVec.ofNat 64 (h.ptime (pkgOfCore (coreOf k))))
  | 0x0002 => some (coreId h k)
  | 0x0010 => some (BitVec.ofNat 64 s.seatpri)
  | 0x0011 => some (if s.chkmode then 1 else 0)
  | 0x0012 => some (BitVec.ofNat 64 s.warn.toNat)
  | 0x0013 => some (landCfg s)
  | 0x0014 => some s.mpc
  | 0x0018 => some s.scangrp
  | 0x0019 => some (resStat h k)
  | 0x0020 => some s.tvec
  | 0x0021 => some s.tcause
  | 0x0022 => some s.tpc
  | 0x0023 => some s.tval
  | n =>
    if 0x40 ≤ n ∧ n < 0x48 then some (accCount s s.accev (n - 0x40))
    else if 0x48 ≤ n ∧ n < 0x50 then some (accCount s s.acctr (n - 0x48))
    else none

/-- Write a count of window accumulator n (R69). -/
def Seat.setCount (s : Seat) (m : SMap Nat) (n : Nat) (v : W64) : SMap Nat :=
  if n < s.lrec.an then SMap.set 0 m n (v.toNat % 2 ^ 32) else m

/-- Write a seat CSR field by field (R67 to R74): RO registers and reserved bits discard, WARN clears under ones. -/
def Seat.csrWrite (s : Seat) (n : Nat) (v : W64) : Seat :=
  match n with
  | 0x0010 => { s with seatpri := v.toNat % 4 }
  | 0x0011 => { s with chkmode := v.getLsbD 0 }
  | 0x0012 => { s with warn := s.warn &&& ~~~(v.setWidth 8) }
  | 0x0013 => { s with lddef := max 1 (v.toNat % 256), cpdef := max 1 (v.toNat / 256 % 4096) }
  | 0x0014 => { s with mpc := v &&& 0x00FFFFFFFFFFFFF8 }
  | 0x0018 => { s with scangrp := v }
  | 0x0020 => { s with tvec := v &&& 0x00FFFFFFFFFFFFFC }
  | 0x0021 => { s with tcause := v &&& 0xFFFF3F00000001FF }
  | 0x0022 => { s with tpc := v &&& 0x00FFFFFFFFFFFFFC }
  | 0x0023 => { s with tval := v }
  | n =>
    if 0x40 ≤ n ∧ n < 0x48 then { s with accev := s.setCount s.accev (n - 0x40) v }
    else if 0x48 ≤ n ∧ n < 0x50 then { s with acctr := s.setCount s.acctr (n - 0x48) v }
    else s

/-- The privilege faults of a CSR number (R67): 0x1A0 unassigned, 0x1A1 a system CSR from a seat. -/
def csrCauses (c : Ctx) (n : Nat) : List Cause :=
  if 0x3000 ≤ n then (if isSys c.core then [] else [mkCause 0x1A1 0 c.sl])
  else if (csrRead c.h c.k n).isNone then [mkCause 0x1A0 0 c.sl]
  else []

/-- The value of a CSR before the bundle's writes (R76); 0x3000 on is the register window, on the system core. -/
def csrOld (c : Ctx) (n : Nat) : W64 :=
  if 0x3000 ≤ n then windowRead c.h (pkgOfCore c.core) (n - 0x3000) else (csrRead c.h c.k n).getD 0

/-- A write, at the end of the ck. -/
def csrPut (c : Ctx) (n : Nat) (v : W64) : Act :=
  if 0x3000 ≤ n then after 1 (.ext (.windowRegisterWrite (pkgOfCore c.core) fwNode (n - 0x3000) v))
  else modSeat c.k (fun s => s.csrWrite n v)

/-- A read of the head report's second doubleword pops the report (R357). -/
def csrPop (c : Ctx) (n : Nat) : Act :=
  Act.when (n == 0x3000 + 2561 && !(c.h.pkg (pkgOfCore c.core)).reports.isEmpty)
    (after 1 (.ext (.completionReportPop (pkgOfCore c.core))))

/-- CSRW, CSRS, CSRC (R205): `new` from the old value and xa; on WARN each acts as a write of xa. -/
def csrOp (c : Ctx) (f : FSC) (new : W64 → W64 → W64) : Out :=
  let n := f.csr.toNat
  let xa := c.s.xr f.a.toNat
  Out.check (xLim c [f.d, f.a] ++ csrCauses c n)
    { act := Act.all [csrPut c n (if n = 0x12 then xa else new (csrOld c n) xa), csrPop c n, wX c f.d (csrOld c n) 0],
      reads := xReads [f.a], issue := fun i => { i with mpcSet := decide (n = 0x14) } }

/-- CSRR (R205). -/
def execCsrr (d : XNum) (csr : BitVec 14) (s : State) : Host.Outcome State Fault Refusal :=
  slotOp (.csrr d csr) s (fun c => Out.check (xLim c [d] ++ csrCauses c csr.toNat)
    (Out.ok (Act.all [csrPop c csr.toNat, wX c d (csrOld c csr.toNat) 0])))

/-- CSRW (R205). -/
def execCsrw (f : FSC) (s : State) : Host.Outcome State Fault Refusal :=
  slotOp (.csrw f) s (fun c => csrOp c f (fun _ x => x))

/-- CSRS (R205). -/
def execCsrs (f : FSC) (s : State) : Host.Outcome State Fault Refusal :=
  slotOp (.csrs f) s (fun c => csrOp c f (fun o x => o ||| x))

/-- CSRC (R205). -/
def execCsrc (f : FSC) (s : State) : Host.Outcome State Fault Refusal :=
  slotOp (.csrc f) s (fun c => csrOp c f (fun o x => o &&& ~~~x))

/-- SHSET (R206). -/
def execShset (a : XNum) (n : BitVec 4) (s : State) : Host.Outcome State Fault Refusal :=
  slotOp (.shset a n) s (fun c => Out.check (xLim c [a])
    { act := modSeat c.k (fun s => { s with d := SMap.set 0 s.d n.toNat (c.s.xr a.toNat) }), reads := xReads [a] })

/-- SHGET (R206). -/
def execShget (d : XNum) (n : BitVec 4) (s : State) : Host.Outcome State Fault Refusal :=
  slotOp (.shget d n) s (fun c => Out.check (xLim c [d]) (Out.ok (wX c d (c.s.dr n.toNat) 0)))

/-! ### Queues (R207, R208) -/

/-- The eight registers of a record from B: past x31 or at XN and above is an operand fault (R207, R406). (DEDUCED, log 75) -/
def recordCauses (c : Ctx) (b : XNum) : List Cause :=
  match (List.range 8).find? (fun i => decide (min c.s.lrec.xn 32 ≤ b.toNat + i)) with
  | none => []
  | some i => [operandFault c.sl 0 (b.toNat + i)]

/-- The queue of the core's cluster that xa names. -/
def queueOf (h : Hw) (c : Ctx) (a : XNum) : Queue := SMap.get {} (h.cluster (domCl c.core)).queues (xOp c a % 256)

/-- Change that queue. -/
def modQueue (c : Ctx) (a : XNum) (f : Queue → Queue) : Act := modCluster (domCl c.core) (fun cl =>
  { cl with queues := SMap.insert cl.queues (xOp c a % 256) (f (SMap.get {} cl.queues (xOp c a % 256))) })

/-- The checks of a queue operation: registers, the record group, and the binding (0x120). -/
def queueCauses (c : Ctx) (f : FSQ) : List Cause :=
  xLim c [f.d, f.a] ++ recordCauses c f.b ++
  (if (queueOf c.h c f.a).inst = c.s.inst ∧ c.s.inst ≠ 0 then [] else [mkCause 0x120 (xOp c f.a % 256) c.sl])

/-- The registers of a record. -/
def recordRegs (b : XNum) : List XNum := (List.range 8).map (fun i => b + BitVec.ofNat 5 i)

/-- QPUSH (R208): the place is reserved now, and poppable when the release at CLUSTER scope has performed (R150). -/
def execQpush (f : FSQ) (s : State) : Host.Outcome State Fault Refusal :=
  slotOp (.qpush f) s (fun c => Out.check (queueCauses c f)
    { act := Act.look (fun h =>
        let q := queueOf h c f.a
        if q.cap ≤ q.places.length then wX c f.d 0 0
        else Act.all [
          modQueue c f.a (fun q => { q with
            places := q.places ++ [{ id := q.next, ready := false, data := (recordRegs f.b).map (fun r => c.s.xr r.toNat) }],
            next := q.next + 1 }),
          release c 0 (.queuePush (domCl c.core) (xOp c f.a % 256) q.next),
          wX c f.d 1 0]),
      reads := xReads ([f.a] ++ recordRegs f.b) })

/-- QPOP and QPEEK: the head record if it is poppable. -/
def qpopOp (c : Ctx) (f : FSQ) (remove : Bool) : Out :=
  Out.check (queueCauses c f)
    { act := Act.look (fun h => match (queueOf h c f.a).places with
        | [] => wX c f.d 0 0
        | p :: r =>
          if p.ready then Act.all [
            Act.when remove (modQueue c f.a (fun q => { q with places := r })),
            wX c f.d 1 0,
            Act.each ((recordRegs f.b).zip p.data) (fun e => wX c e.1 e.2 11)]
          else wX c f.d 0 0),
      reads := xReads [f.a] }

/-- QPOP (R208). -/
def execQpop (f : FSQ) (s : State) : Host.Outcome State Fault Refusal :=
  slotOp (.qpop f) s (fun c => qpopOp c f true)

/-- QPEEK (R208). -/
def execQpeek (f : FSQ) (s : State) : Host.Outcome State Fault Refusal :=
  slotOp (.qpeek f) s (fun c => qpopOp c f false)

/-! ### Barrier flags (R209 to R213) -/

/-- The smallest scope that contains a core and a target core (R148). -/
def scopeTo (core t : Nat) : Nat :=
  if domCl core = domCl t then 0
  else if 12 * pkgOfCore core + stackOfCl (clOfCore core) = 12 * pkgOfCore t + stackOfCl (clOfCore t) then 1
  else if pkgOfCore core = pkgOfCore t then 2 else 3

def scopeToAll (core : Nat) (ts : List Nat) : Nat := ts.foldl (fun s t => max s (scopeTo core t)) 0

/-- Is a domain core number the number of a core of the domain? -/
def coreInDomain (h : Hw) (t : Nat) : Bool := decide (t < 1152 * h.glob.npkg) || (decide (sysBase ≤ t) && decide (t < sysBase + 4 * h.glob.npkg))

/-- REL, and the scope named if any. -/
def relOf (e : Option RelExt) : Bool × Option Nat :=
  match e with
  | none => (false, none)
  | some x => (x.rel, if x.sce then some x.scope.toNat else none)

/-- A flag operation with its release if it is one. -/
def flagRel (c : Ctx) (e : Option RelExt) (small : Nat) (op : RelOp) : Act :=
  if (relOf e).1 then release c ((relOf e).2.getD small) op else doRel c.k op

/-- FADD (R209, R211): local with bit 63 of xa, else to domain core xa[16:0]. -/
def execFadd (f : FFlag) (s : State) : Host.Outcome State Fault Refusal :=
  slotOp (.fadd f) s (fun c =>
    let loc := (c.s.xr f.a.toNat).getLsbD 63
    let t := if loc then c.core else xOp c f.a % 2 ^ 17
    Out.check (xLim c [f.a, f.b] ++
        (if loc then flagCauses c f.flag.toNat else if coreInDomain c.h t then [] else [mkCause 0x128 f.flag.toNat c.sl]))
      { act := flagRel c f.ext (scopeTo c.core t) (.flagAdd loc t f.flag.toNat (BitVec.ofNat 16 (xOp c f.b))),
        reads := xReads [f.a, f.b] })

/-- The cores of an FSET by mask (R210). -/
def fsetCores (x : Nat) : List Nat :=
  ((List.range 8).filter (fun i => x.testBit i)).map (fun i => 1152 * (x / 2 ^ 16 % 64) + 8 * (x / 2 ^ 8 % 256) + i)

/-- FSET (R210, R211). -/
def execFset (f : FFlag) (s : State) : Host.Outcome State Fault Refusal :=
  slotOp (.fset f) s (fun c =>
    let x := xOp c f.a
    let byTag := x.testBit 63
    let p := x / 2 ^ 16 % 64
    let v := BitVec.ofNat 16 (xOp c f.b)
    let small := if byTag then scopeToAll c.core ((tagCores c.h p (x % 2 ^ 16)).getD []) else scopeToAll c.core (fsetCores x)
    Out.check (xLim c [f.a, f.b] ++
        (if p < c.h.glob.npkg ∧ (byTag ∨ x / 2 ^ 8 % 256 < 144) then [] else [mkCause 0x128 f.flag.toNat c.sl]))
      { act := flagRel c f.ext small
          (if byTag then .flagTag (x % 2 ^ 16) p f.flag.toNat v else .flagSet (fsetCores x) f.flag.toNat v),
        reads := xReads [f.a, f.b] })

/-- FTEST (R212): the value before every change of the ck. -/
def execFtest (d : XNum) (flag : BitVec 9) (s : State) : Host.Outcome State Fault Refusal :=
  slotOp (.ftest d flag) s (fun c => Out.check (xLim c [d] ++ flagCauses c flag.toNat)
    (Out.ok (wX c d (BitVec.ofNat 64 (SMap.get 0 c.co.flags flag.toNat).toNat) 0)))

/-- FCLR (R212). -/
def execFclr (flag : BitVec 9) (s : State) : Host.Outcome State Fault Refusal :=
  slotOp (.fclr flag) s (fun c => Out.check (flagCauses c flag.toNat)
    (Out.ok (flagOpAt c.core (if isSeat1 c.k then 1 else 0) flag.toNat (.set 0))))

/-- FWAIT (R213): tested in its own ck; otherwise the seat waits. -/
def execFwait (f : FSQ) (flag : BitVec 9) (s : State) : Host.Outcome State Fault Refusal :=
  slotOp (.fwait f flag) s (fun c =>
    let v := (SMap.get 0 c.co.flags flag.toNat).toNat
    let thr := xOp c f.b % 2 ^ 16
    Out.check (xLim c [f.d, f.a, f.b] ++ flagCauses c flag.toNat)
      { act := if thr ≤ v then wX c f.d (BitVec.ofNat 64 (2 ^ 16 + v)) 0
          else modSeat c.k (fun s => { s with
            wait := .fwait flag.toNat thr c.t (xOp c f.a % 2 ^ 32) f.d.toNat f.a.toNat f.b.toNat }),
        reads := xReads [f.a, f.b] })

/-! ### Signals, yields, time and milestones (R214 to R217) -/

/-- Do the placements of an image reach beyond a package (R36)? -/
def reachesOut (h : Hw) (pk img : Nat) : Bool :=
  (List.range (secCount h pk img secPlaces)).any (fun i =>
    let p := placeImg h pk img i
    p.sgbase / 12 != pk || (p.spd != 0 && (p.sgbase + p.spd - 1) / 12 != pk))

/-- The drain scope of an instance's node (R36, R214): DOMAIN if its placements reach another package, by their stack groups or as they have
been placed. -/
def instScope (h : Hw) (inst : Nat) : Nat :=
  let i := h.inst inst
  if reachesOut h i.pkg i.img || i.nodes.any (fun n => n.2.seats.any (fun s => pkgOfCore (coreOf s) != i.pkg)) then 3 else 2

/-- SIGNAL (R214, R416). -/
def execSignal (a : XNum) (ext : Option RelExt) (s : State) : Host.Outcome State Fault Refusal :=
  slotOp (.signal a ext) s (fun c =>
    let node := xOp c a % 2 ^ 16
    let i := c.h.inst c.s.inst
    Out.check (xLim c [a] ++
        (if imgNodes c.h i.pkg i.img ≤ node then [mkCause 0x12C node c.sl]
         else if (SMap.get {} i.nodes node).count = 0 then [mkCause 0x12D node c.sl] else []))
      { act := flagRel c ext (instScope c.h c.s.inst) (.signal node), reads := xReads [a] })

/-- YIELD (R215); in handler state it raises 0x1DB (R382), with an open accumulate window the window conflict (R264). -/
def execYield (s : State) : Host.Outcome State Fault Refusal :=
  slotOp .yield s (fun c => Out.check ((if c.s.handler then [mkCause 0x1DB 0 c.sl] else []) ++
      ((seatWindow c.h c.k).map (fun w => operandFault c.sl 3 (w.acc + 2 ^ 8))).toList)
    { act := Act.nil, issue := fun i => { i with after := 3 } })

/-- SLEEPUNTIL (R216). -/
def execSleepuntil (a : XNum) (s : State) : Host.Outcome State Fault Refusal :=
  slotOp (.sleepuntil a) s (fun c => Out.check (xLim c [a])
    { act := Act.when (decide (c.h.cycle (pkgOfCore c.core) < xOp c a)) (modSeat c.k (fun s =>
        { s with st := .parked, wait := .sleep (xOp c a) })),
      reads := xReads [a] })

/-- MSARM (R217, R416): a relative time counts from the wheel's current tick. -/
def execMsarm (a b : XNum) (s : State) : Host.Outcome State Fault Refusal :=
  slotOp (.msarm a b) s (fun c =>
    let node := xOp c a % 2 ^ 16
    let i := c.h.inst c.s.inst
    let die := 4 * i.pkg
    let rel := (c.s.xr b.toNat).getLsbD 63
    let time := xOp c b % 2 ^ 63
    Out.check (xLim c [a, b] ++
        (if imgNodes c.h i.pkg i.img ≤ node then [mkCause 0x130 node c.sl]
         else if 4096 ≤ (s.hw.die die).wheel.length then [mkCause 0x132 node c.sl] else []))
      { act := modDie die (fun d => { d with wheel := d.wheel ++
          [{ inst := c.s.inst, node := node, time := if rel then d.wheelAt + time else time, abs := !rel }] }),
        reads := xReads [a, b] })

/-! ### DRAIN (R218) -/

/-- DRAIN: the status word now when nothing covered is outstanding, else the seat waits. -/
def execDrain (d : XNum) (scope : BitVec 2) (s : State) : Host.Outcome State Fault Refusal :=
  slotOp (.drain d scope) s (fun c =>
    let before := c.h.glob.nextId
    Out.check (xLim c [d])
      (Out.ok (if drained c.h c.k scope.toNat before then
          Act.all [wX c d (drainStatus c.h c.k scope.toNat before false) 0, reported c.k scope.toNat before]
        else modSeat c.k (fun s => { s with wait := .drain d.toNat scope.toNat c.now before }))))

/-! ### Program end, traps and supervisor forms (R219 to R221, R326) -/

/-- EXIT (R219). -/
def execExit (s : State) : Host.Outcome State Fault Refusal :=
  slotOp .exit s (fun _ => { act := Act.nil, issue := fun i => { i with after := 2 } })

/-- TRAP raises 0x1E0 + n after its bundle (R220, R384). -/
def execTrap (n : BitVec 5) (s : State) : Host.Outcome State Fault Refusal :=
  slotOp (.trap n) s (fun _ => { act := Act.nil, issue := fun i => { i with after := 4, trapN := 0x1E0 + n.toNat } })

/-- BRK raises 0x1A5 after its bundle (R220, R384). -/
def execBrk (s : State) : Host.Outcome State Fault Refusal :=
  slotOp .brk s (fun c => Out.ok (modSeat c.k (fun s => { s with brk := true })))

/-- ERET (R220, R383); outside handler state it is the privilege fault 0x1A4. Retry entries are issued again. -/
def execEret (s : State) : Host.Outcome State Fault Refusal :=
  slotOp .eret s (fun c => Out.check (if c.s.handler then [] else [mkCause 0x1A4 0 c.sl])
    { act := reissue c.k, issue := fun i => { i with after := 5 } })

/-- A supervisor form from a seat is the privilege fault 0x1A2 (R221). (DEDUCED, log 40) -/
def supCauses (c : Ctx) : List Cause := if isSys c.core then [] else [mkCause 0x1A2 0 c.sl]

/-- The cores of a package that hold state. -/
def coresOf (h : Hw) (p : Nat) : List Nat := (h.cores.map (·.1)).filter (fun n => pkgOfCore n == p)

/-- Walks in flight of a package's cores walk again (R426). -/
def redoWalks (p : Nat) : Act := Act.look (fun h =>
  Act.each (h.accs.filter (fun a => pkgOfCore (coreOf a.2.seat) == p && a.2.parts.any (fun q => q.st == 0)))
    (fun a => modAcc a.1 (fun a => { a with parts := a.parts.map (fun q => if q.st = 0 then { q with redo := true } else q) })))

/-- The system core waits for the acknowledgements, 256 ck later (R326). (DESIGN CHOICE, log 76) -/
def supWait (c : Ctx) (d : Nat) (wipe : Bool) (t : Nat) (e : Event) : Act :=
  Act.all [modSeat c.k (fun s => { s with wait := .sup d wipe }), after t e]

/-- TLBINV (R221). -/
def execTlbinv (a b : XNum) (s : State) : Host.Outcome State Fault Refusal :=
  slotOp (.tlbinv a b) s (fun c =>
    let x := xOp c a
    let va := xOp c b % 2 ^ 56
    let gone (e : TlbEnt) : Bool := (x.testBit 4 || e.img == x % 16) && (x.testBit 5 || va / 2 ^ e.bits == e.base / 2 ^ e.bits)
    Out.check (xLim c [a, b] ++ supCauses c)
      { act := Act.all [
          Act.look (fun h => Act.each (coresOf h (pkgOfCore c.core)) (fun n =>
            modCore n (fun co => { co with tlb := co.tlb.filter (fun e => !gone e) }))),
          redoWalks (pkgOfCore c.core), supWait c 0 false 256 (.invalidateAcknowledged c.core)],
        reads := xReads [a, b] })

/-- TTINV (R221, R124). -/
def execTtinv (s : State) : Host.Outcome State Fault Refusal :=
  slotOp .ttinv s (fun c => Out.check (supCauses c)
    (Out.ok (Act.all [
      Act.look (fun h => Act.each (coresOf h (pkgOfCore c.core)) (fun n => modCore n (fun co => { co with tens := [], tabs := [] }))),
      supWait c 0 false 256 (.invalidateAcknowledged c.core)])))

/-- Is every seat of a die FREE, the system core's own seats apart? -/
def dieFree (h : Hw) (die : Nat) : Bool :=
  h.seats.all (fun s => s.2.st == .free || isSys (coreOf s.1) || domDie (coreOf s.1) != die)

/-- WIPE (R221, R326): 2,100 ck, or at most 20 ms (45,000,000 ck) with the stacks. A seat that is not FREE: 0x1A6, a
record, and nothing is wiped. -/
def execWipe (d a : XNum) (s : State) : Host.Outcome State Fault Refusal :=
  slotOp (.wipe d a) s (fun c =>
    let die := domDie c.core
    Out.check (xLim c [d, a] ++ supCauses c)
      { act := if dieFree c.h die then
          let hbm := (c.s.xr a.toNat).getLsbD 0
          Act.all [modDie die (fun x => { x with supWait := if hbm then 1 else 0 }),
            supWait c d.toNat true (if hbm then 45000000 else 2100) (.wipeComplete die)]
        else noteSeat c.k (mkCause 0x1A6 0 c.sl),
        reads := xReads [a] })

/-! ### Their ends -/

/-- FWAIT_SATISFIED: the test holds (R213). -/
def execFwaitSatisfied (s : State) : Host.Outcome State Fault Refusal :=
  eventAct s (match s.ev with | .fwaitSatisfied k => fwaitEnds k true | _ => Act.nil)

/-- FWAIT_TIMEOUT: zero is written in ck c + T + 1 (R213). -/
def execFwaitTimeout (s : State) : Host.Outcome State Fault Refusal :=
  eventAct s (match s.ev with | .fwaitTimeout k => fwaitEnds k false | _ => Act.nil)

/-- DRAIN_COMPLETE (R218). -/
def execDrainComplete (s : State) : Host.Outcome State Fault Refusal :=
  eventAct s (match s.ev with | .drainComplete k => drainEnds k false | _ => Act.nil)

/-- DRAIN_LIMIT: the status word reports LIMIT (R377, R437). -/
def execDrainLimit (s : State) : Host.Outcome State Fault Refusal :=
  eventAct s (match s.ev with | .drainLimit k => drainEnds k true | _ => Act.nil)

/-- RELEASE_DRAIN_COMPLETE: what waited for the drain issues (R148, R211, R438). -/
def execReleaseDrainComplete (s : State) : Host.Outcome State Fault Refusal :=
  eventAct s (match s.ev with | .releaseDrainComplete k => relEnds k | _ => Act.nil)

/-- REMOTE_FLAG_ARRIVAL (R64, R209, R210, R452). -/
def execRemoteFlagArrival (s : State) : Host.Outcome State Fault Refusal :=
  eventAct s (match s.ev with | .remoteFlagArrival m => flagArrives m | _ => Act.nil)

/-- A parked seat goes on: its next bundle issues no earlier than this ck (R216). -/
def wakeSeat (k : Nat) : Act := fun h =>
  let t := h.coreT (coreOf k)
  match (h.seat k).wait with
  | .sleep _ => modSeat k (fun s => { s with
      st := (if s.st = SeatSt.parked then SeatSt.run else s.st), wait := .none, nextIssue := max s.nextIssue t }) h
  | _ => []

/-- SLEEP_WAKE: CYCLE has reached the target (R216). -/
def execSleepWake (s : State) : Host.Outcome State Fault Refusal :=
  eventAct s (match s.ev with | .sleepWake k => wakeSeat k | _ => Act.nil)

/-- The seat of a system core that waits for a supervisor form. -/
def supSeat (h : Hw) (core : Nat) : Option Nat :=
  [seatKey core false, seatKey core true].find? (fun k => match (h.seat k).wait with | .sup _ _ => true | _ => false)

/-- Does a WIPE of a system core of package pk run (R361)? -/
def wipeRuns (h : Hw) (pk : Nat) : Bool :=
  (List.range 4).any (fun d => [false, true].any (fun s => match (h.seat (seatKey (sysBase + 4 * pk + d) s)).wait with
    | .sup _ w => w
    | _ => false))

/-- The system core goes on (R221): its next bundle issues within 4 ck of the last acknowledgement (R326). -/
def supGoesOn (core : Nat) (v : Option W64) : Act := fun h =>
  match supSeat h core with
  | none => []
  | some k =>
    let t := h.coreT core
    modSeat k (fun s =>
      let d := match s.wait with | .sup d _ => d | _ => 0
      let r := match v with
        | none => s
        | some x => if d = 0 then s else s.addPend (xPend d x t s.lastOrder)
      { r with wait := .none, nextIssue := max r.nextIssue (t + 1 + r.stallW) }) h

/-- INVALIDATE_ACKNOWLEDGED (R221, R326). -/
def execInvalidateAcknowledged (s : State) : Host.Outcome State Fault Refusal :=
  eventAct s (match s.ev with | .invalidateAcknowledged core => supGoesOn core none | _ => Act.nil)

/-- The HBM of a stack is zeroed, and with it the poison of its lines (R221, R399, R435). -/
def wipeStack (pk st : Nat) : Act := Act.all [
  (fun _ => [.memDrop (paOf pk (st * 2 ^ 36)) (paOf pk (st * 2 ^ 36) + 2 ^ 36)]),
  modGlob (fun g => { g with poison := g.poison.filter (fun l => l / 2 ^ 30 != paOf pk (st * 2 ^ 36) / 2 ^ 36) })]

/-- The slices of a cluster are zeroed: what only they held, the stores to their dirty lines, is lost, and HBM keeps what it has (R116, R221). -/
def wipeSlices (cl : Nat) : Act := Act.look (fun h =>
  let ls := (h.cluster cl).slice.flatMap (fun s => s.2)
  Act.all [
    writeMem ((ls.filter (fun l => l.dirty)).flatMap (fun l => l.was.zipIdx.map (fun b => (64 * l.line + b.2, b.1)))),
    modGlob (fun g => { g with poison := g.poison.filter (fun n => !ls.any (fun l => l.bad && l.line == n)) }),
    modCluster cl (fun x => { x with slice := [] })])

/-- What WIPE zeroes on a die (R221, R361): the stores of its cores and its slices, and with `hbm` its stacks. -/
def wipeDie (die : Nat) (hbm : Bool) : Act := Act.look (fun h => Act.all [
  Act.each ((h.cores.map (·.1)).filter (fun n => domDie n == die)) (fun n => modCore n (fun co => { co with
    tile := [], side := [], touched := [], acc := [], latch := [], ht := [], l1 := [], landings := [] })),
  Act.each ((h.clusters.map (·.1)).filter (fun c => 4 * (c / 144) + dieOfCl (c % 144) == die))  wipeSlices,
  Act.when hbm (Act.each (List.range 3) (fun i => wipeStack (die / 4) (3 * (die % 4) + i)))])

/-- WIPE_COMPLETE (R221). -/
def execWipeComplete (s : State) : Host.Outcome State Fault Refusal :=
  eventAct s (match s.ev with
    | .wipeComplete die => Act.all [wipeDie die ((s.hw.die die).supWait == 1), supGoesOn (sysBase + die) (some 0)]
    | _ => Act.nil)

end Sys2Proof.Machine
end

