-- ==== Sys2Proof/Machine/Spill.lean ====
section
/-! DEFINITION. Saving and restoring a seat (R49 to R53, R66, R117, R385, R420): the image in the private window, the spill
engine, the record that stays with the dispatcher. -/

namespace Sys2Proof.Machine

/-! ### The image (R66, R117, R385)

The spec gives a loop level and a sticky record 16 bytes each, and a latch 16 KiB, without a layout: the model's are
`loopImage`, `stickyImage` and one 32-bit word for each latch element. -/

/-- The low n bits of an integer. -/
def lowBits (n : Nat) (x : Int) : Nat := imageNat n x

/-- A loop level: start in bits 55:0, the distance to its end above them, the count in bits 127:96. (DESIGN CHOICE, log 49) -/
def loopImage (l : LoopLvl) : Nat := l.start % 2 ^ 56 + (l.stop - l.start) % 2 ^ 40 * 2 ^ 56 + l.count % 2 ^ 32 * 2 ^ 96
/-- A sticky record: word, extension word, and the three accumulated offsets. -/
def stickyImage (r : Sticky) : Nat :=
  r.word % 2 ^ 32 + (r.ext.getD 0) % 2 ^ 32 * 2 ^ 32 + lowBits 10 r.o1 * 2 ^ 64 + lowBits 27 r.o2 * 2 ^ 74 + lowBits 27 r.o3 * 2 ^ 101

def loopOfImage (x : Nat) : LoopLvl :=
  { start := x % 2 ^ 56, stop := x % 2 ^ 56 + x / 2 ^ 56 % 2 ^ 40, count := x / 2 ^ 96 % 2 ^ 32 }
def stickyOfImage (x : Nat) (idle : Bool) : Sticky :=
  { word := x % 2 ^ 32, ext := if x.testBit 24 then some (x / 2 ^ 32 % 2 ^ 32) else none, o1 := sextNat 10 (x / 2 ^ 64 % 2 ^ 10),
    o2 := sextNat 27 (x / 2 ^ 74 % 2 ^ 27), o3 := sextNat 27 (x / 2 ^ 101 % 2 ^ 27), idle := idle }

/-- The n words of a number, from an offset on. -/
def natWords (off n x : Nat) : List (Nat × W64) := (List.range n).map (fun i => (off + 8 * i, BitVec.ofNat 64 (x / 2 ^ (64 * i) % 2 ^ 64)))

/-- The code of the wait that a trap saved with a seat (R425). -/
def waitCode (s : Seat) : Nat :=
  match s.savedWait with
  | .drain _ _ _ _ => 1
  | .fwait _ _ _ _ _ _ _ => 2
  | .sleep _ => 3
  | .release _ => if s.rels.any (fun r => match r.op with | .signal _ => true | _ => false) then 5 else 4
  | _ => 0

/-- CSRs in the order of the image (R66). -/
def savedCsrs : List Nat := [0x10, 0x11, 0x12, 0x13, 0x18, 0x20, 0x21, 0x22, 0x23]

/-- The fixed image: 192 words. -/
def fixedImage (h : Hw) (k : Nat) : List (Nat × W64) :=
  let s := h.seat k
  let body :=
    natWords 0 32 (s.yr 0).toNat ++ natWords 256 32 (s.yr 1).toNat ++
    (List.range 8).flatMap (fun i => natWords (0x200 + 16 * i) 2 (s.qr i).toNat) ++
    (List.range 16).map (fun i => (0x280 + 8 * i, s.dr i)) ++ (List.range 8).map (fun i => (0x300 + 8 * i, s.kr i)) ++
    (List.range 8).map (fun i => (0x340 + 8 * i, s.or i)) ++
    (List.range 4).flatMap (fun i => natWords (0x380 + 16 * i) 2 (loopImage (s.loops.getD i ⟨0, 0, 0⟩))) ++
    (List.range 5).flatMap (fun i => natWords (0x3C0 + 16 * i) 2 (stickyImage (s.srec i))) ++
    [(0x410, s.mpc), (0x418, BitVec.ofNat 64 ((s.repN - s.repJ) % 2 ^ 16 + bitsOf 5 (fun i => (s.srec i).idle) * 2 ^ 16 + waitCode s * 2 ^ 21))] ++
    savedCsrs.zipIdx.map (fun c => (0x420 + 8 * c.2, (csrRead h k c.1).getD 0)) ++
    (List.range 16).map (fun i => (0x468 + 8 * i, (csrRead h k (0x40 + i)).getD 0)) ++
    [(0x4E8, BitVec.ofNat 64 (phaseAddr s.lrec s.phase))]
  body ++ natWords 0x4F0 34 0

/-- Codes of a snapshot entry's port (R385). -/
def Port.code : Port → Nat
  | .x => 0 | .v => 1 | .o => 2 | .k => 3 | .y => 4
def portOf : Nat → Port
  | 0 => .x | 1 => .v | 2 => .o | 3 => .k | _ => .y

/-- Bytes 256 to 271 of an entry (R385). -/
def pendTail (p : Pend) : Nat :=
  p.port.code * 2 ^ 12 + p.reg % 64 * 2 ^ 16 + (match p.yu with | none => 0 | some u => 2 ^ 23 + u % 2 * 2 ^ 22) +
  p.due % 2 ^ 16 * 2 ^ 48 + (if p.port = .v then p.lmask.toNat else 2 ^ 64 - 1) * 2 ^ 64

/-- The value of an entry: in full for v and y, 8 bytes for the others. -/
def pendValue (p : Pend) : Nat := if p.port = .v ∨ p.port = .y then p.val.toNat else p.val.toNat % 2 ^ 64

/-- An entry read back. Its place in the issue order is kept from the record. -/
def pendOfImage (p : Pend) (v t : Nat) : Pend :=
  if p.stays then { p with stays := false } else
  { p with
    port := portOf (t / 2 ^ 12 % 16), reg := t / 2 ^ 16 % 64, val := BitVec.ofNat 2048 v, lmask := BitVec.ofNat 64 (t / 2 ^ 64),
    yu := if t.testBit 23 then some (t / 2 ^ 22 % 2) else none, due := t / 2 ^ 48 % 2 ^ 16 }

/-- The granules, by window index, that the seat wrote since it was placed or restored. -/
def writtenGrans (h : Hw) (k : Nat) : List Nat :=
  let s := h.seat k
  (List.range s.lrec.gn).filter (fun g => (h.core (coreOf k)).touched.contains (physOf s.lrec (isSeat1 k) .gran g))

/-- Window bases of the kinds in the image (R117). -/
def granOff (g : Nat) : Nat := 0x100000 + 4096 * g

/-- Bytes of a save or a restore (R51). -/
def volumeOf (r : LoopRec) (grans entries : Nat) : Nat :=
  8 * r.xn + 256 * r.vn + 1536 + 4104 * grans + 32768 * r.an + 16384 * (r.bn + r.hn) + 272 * entries

/-- Every word that the spill engine writes, as (offset, value), in the order of R51. -/
def spillWords (h : Hw) (k : Nat) : List (Nat × W64) :=
  let s := h.seat k
  let r := s.lrec
  let s1 := isSeat1 k
  let co := h.core (coreOf k)
  let gs := writtenGrans h k
  (List.range r.xn).map (fun i => (0x600 + 8 * i, s.xr i)) ++
  (List.range r.vn).flatMap (fun i => natWords (0x800 + 256 * i) 32 (s.vr i).toNat) ++
  fixedImage h k ++
  gs.flatMap (fun g =>
    let p := physOf r s1 .gran g
    (List.range 512).map (fun w => (granOff g + 8 * w, SMap.get 0 co.tile (512 * p + w))) ++ [(0x80000 + 8 * g, SMap.get 0 co.side p)]) ++
  (List.range r.an).flatMap (fun a => (accImage co (physOf r s1 .acc a)).map (fun e => (0x10000 + 32768 * a + 8 * e.1, e.2))) ++
  (List.range r.bn).flatMap (fun b =>
    let l := SMap.get {} co.latch (physOf r s1 .latch b)
    (List.range 2048).map (fun w => (0x50000 + 16384 * b + 8 * w, BitVec.ofNat 64
      (SMap.get 0 l.el (2 * w) % 2 ^ 16 + l.fmt % 16 * 2 ^ 28 + (SMap.get 0 l.el (2 * w + 1) % 2 ^ 16 + l.fmt % 16 * 2 ^ 28) * 2 ^ 32)))) ++
  (List.range r.hn).flatMap (fun t =>
    let p := physOf r s1 .ht t
    (List.range 2048).map (fun w => (0x60000 + 16384 * t + 8 * w, BitVec.ofNat 64
      ((SMap.get 0 co.ht (4096 * p + 2 * w)).toNat + (SMap.get 0 co.ht (4096 * p + 2 * w + 1)).toNat * 2 ^ 32)))) ++
  s.captured.zipIdx.flatMap (fun e => natWords (0x4800 + 272 * e.2) 32 (pendValue e.1) ++ natWords (0x4800 + 272 * e.2 + 256) 2 (pendTail e.1))

/-- Flat address of a seat's private window (R117). -/
def winBase (h : Hw) (k : Nat) : Nat := (h.pkg (pkgOfCore (coreOf k))).privBase + 2 ^ 22 * (h.seat k).win

/-- Physical address of an offset of the private window, if it translates. -/
def winPa (h : Hw) (k off : Nat) (wr : Bool) : Option Nat :=
  let va := (winBase h k + off) % 2 ^ 56
  match xlate h (coreOf k) (h.seat k).img va (if wr then 3 else 2) wr with
  | .ok e => some (paUnder e va)
  | .error _ => none

/-! ### The spill engine (R51, R420) -/

/-- The busy items of a seat's windows. -/
def winItems (r : LoopRec) (s1 : Bool) : List Nat :=
  (List.range r.gn).map (fun g => itGran (physOf r s1 .gran g)) ++ (List.range r.an).map (fun a => itAcc (physOf r s1 .acc a)) ++
  (List.range r.bn).map (fun b => itLatch (physOf r s1 .latch b)) ++ (List.range r.hn).map (fun t => itHt (physOf r s1 .ht t)) ++
  (List.range 8).map (itQ s1)

/-- Has everything that busy bits track come to its end? -/
def seatQuiet (h : Hw) (k : Nat) : Bool :=
  let co := h.core (coreOf k)
  let t := h.coreT (coreOf k)
  (winItems (h.seat k).lrec (isSeat1 k)).all (fun i => canWrite co i t) && co.landings.all (fun l => l.held || l.seat != isSeat1 k)

/-- Can the spill of a seat start: from c_r on, its busy bits clear, the engine free, seat 0 before seat 1? -/
def spillReady (h : Hw) (k : Nat) : Bool :=
  let s := h.seat k
  let co := h.core (coreOf k)
  let other := h.seat (seatKey (coreOf k) (!isSeat1 k))
  s.st == SeatSt.saving && !s.frozen.on && decide (s.nextIssue ≤ h.coreT (coreOf k)) && co.spillSeat == 2 && decide (co.spillAt ≤ h.glob.now) &&
  !(isSeat1 k && other.st == SeatSt.saving && !other.frozen.on) && seatQuiet h k

/-- The engine's requests at the banks for some granules, from a ck on: 4 bank words in each ck, granule by granule (R313). -/
def engineBanks (k start grans : Nat) : BankUse :=
  { cls := 7, seat := isSeat1 k, next := start, left := 64 * grans, masks := (List.range 8).map (fun i => 0xF * 2 ^ (4 * i)) }

/-- The engine works for a seat with some granules in its image, and then `e` comes: a ck for each 64 bytes, the registers and the fixed part
first, and 16 more; each ck in which it loses a bank is added (R314, R324). -/
def engineRun (k grans : Nat) (e : Event) : Act := fun h =>
  let s := h.seat k
  let d := ceilDiv (volumeOf s.lrec grans s.captured.length) 64 + 16
  let start := max h.glob.now (h.core (coreOf k)).spillAt
  Act.all [
    modCore (coreOf k) (fun co => { co with spillSeat := if isSeat1 k then 1 else 0, spillAt := start + d }),
    useBanks (coreOf k) (engineBanks k (start + ceilDiv (8 * s.lrec.xn + 256 * s.lrec.vn + 1536) 64) grans),
    schedule (start + d) e] h

/-- SPILL_START. -/
def spillStarts (k : Nat) : Act := fun h =>
  if spillReady h k then engineRun k (writtenGrans h k).length (.spillDone k) h else []

def execSpillStart (s : State) : Host.Outcome State Fault Refusal :=
  match s.ev with
  | .spillStart k => eventAct s (spillStarts k)
  | _ => eventAct s Act.nil

/-- What belongs to seat key `a` belongs to key `b`: its accesses and its pins. -/
def moveKey (a b : Nat) : Act := fun h => Act.all [
  Act.each ((seatAccs h a).map (fun e => e.1)) (fun id => modAcc id (fun x => { x with seat := b })),
  modPkg (pkgOfCore (coreOf a)) (fun p => { p with layers := p.layers.map (fun l =>
    (l.1, { l.2 with pins := l.2.pins.map (fun q => if q.1 = a then (b, q.2) else q) })) })] h

/-- The seat leaves for its saved record: its units are free, its flags stay (R53). -/
def seatSaved (k : Nat) : Act := withId (fun id => fun h =>
  let s := h.seat k
  let g := 2 ^ 18 * id + k
  let gs := writtenGrans h k
  let co := h.core (coreOf k)
  let mine := gs.map (physOf s.lrec (isSeat1 k) .gran)
  let rec' : Seat := { s with
    st := .saved, x := [], v := [], o := [], y := [], k := [], d := [], q := [], preReq := false, preempt := false,
    captured := s.captured.map (fun p => { p with stays := p.acc.isSome }), toReplay := false,
    spilled := s.spilled ++ gs.filter (fun x => !s.spilled.contains x),
    kept := co.landings.filter (fun l => l.seat == isSeat1 k) }
  Act.all [
    moveKey k g,
    (fun _ => [.seat g rec']),
    modCore (coreOf k) (fun co => { co with
      landings := co.landings.filter (fun l => l.seat != isSeat1 k), snapshot := co.snapshot - s.captured.length,
      touched := co.touched.filter (fun x => !mine.contains x) }),
    dropSeat k] h)

/-- The longest part of the image whose addresses translate, as bytes of memory, and the words that are left. -/
def spillBytes (h : Hw) (k : Nat) : List (Nat × W64) → List (Nat × Byte) × Nat
  | [] => ([], 0)
  | w :: r =>
    match winPa h k w.1 true with
    | none => ([], r.length + 1)
    | some pa => let t := spillBytes h k r; (writeNat pa 8 w.2.toNat ++ t.1, t.2)

/-- Lines that are written anew are no longer poisoned (R435). -/
def clearPoison (l : List Nat) : Act := modGlob (fun g => { g with poison := g.poison.filter (fun x => !l.contains x) })

/-- Has the seat a remote access that has not performed (R156)? A retry entry stays with the seat (R424). -/
def seatOpen (h : Hw) (k : Nat) : Bool :=
  (seatAccs h k).any (fun a => accOpen h (coreOf k) 3 { a.2 with parts := a.2.parts.filter (fun p => p.st != 6) }) ||
  (h.seat k).captured.any (fun p => match p.acc with
    | none => false
    | some id => match h.acc? id with | none => false | some a => !a.parts.any (fun q => q.st == 6))

/-- SPILL_DONE (R49, R51, R156, R413, R420): once every remote access of the seat has performed and the data of its captured results has come,
every byte of the image performs, and the seat is SAVED. A residue mismatch raises
0x05E; an address that does not translate is a spill failure, and the seat keeps its state. (DEDUCED, log 50) -/
def spillEnds (k : Nat) : Act := fun h =>
  let s := h.seat k
  let co := h.core (coreOf k)
  if s.st ≠ SeatSt.saving ∨ co.spillAt ≠ h.glob.now ∨ co.spillSeat ≠ (if isSeat1 k then 1 else 0) then []
  else if seatOpen h k then
    Act.all [modCore (coreOf k) (fun co => { co with spillAt := h.glob.now + 1 }), after 1 (.spillDone k)] h
  else
    let free : Act := modCore (coreOf k) (fun co => { co with spillSeat := 2 })
    if (List.range s.lrec.an).any (fun a => co.accBad (physOf s.lrec (isSeat1 k) .acc a) 64) then
      Act.all [free, trapEntry k [{ code := 0x5E, tval := 0, slots := 0 }]] h
    else
      let w := spillWords h k
      let b := spillBytes h k w
      let lines := b.1.map (fun e => lineOf e.1)
      Act.all [
        free, writeMem b.1, clearPoison lines,
        if b.2 = 0 then seatSaved k
        else trapEntry k [{ code := 0x1C8 + s.saveKind, tval := BitVec.ofNat 64 (8 * b.2), slots := 0 }]] h

def execSpillDone (s : State) : Host.Outcome State Fault Refusal :=
  match s.ev with
  | .spillDone k => eventAct s (spillEnds k)
  | _ => eventAct s Act.nil

/-! ### Restoring (R49, R52, R420) -/

/-- The offsets that a restore reads, in the order of the image. -/
def restoreOffs (s : Seat) : List Nat :=
  let r := s.lrec
  let run := fun (base n : Nat) => (List.range n).map (fun i => base + 8 * i)
  run 0x600 r.xn ++ run 0x800 (32 * r.vn) ++ run 0 192 ++ s.spilled.flatMap (fun g => run (granOff g) 512 ++ [0x80000 + 8 * g]) ++
  run 0x10000 (4096 * r.an) ++ run 0x50000 (2048 * r.bn) ++ run 0x60000 (2048 * r.hn) ++ run 0x4800 (34 * s.captured.length)

/-- The word at an offset of the window; zero where it does not translate. -/
def winWord (h : Hw) (k off : Nat) : Nat :=
  match winPa h k off false with
  | none => 0
  | some pa => readNat h pa 8

/-- The number that n words from an offset hold. -/
def winNat (h : Hw) (k off n : Nat) : Nat := (List.range n).foldr (fun i acc => acc * 2 ^ 64 + winWord h k (off + 8 * i)) 0

/-- A core with the windows of a loop record reading zero (R47). -/
def Core.clearWindows (co : Core) (r : LoopRec) (s1 : Bool) : Core :=
  let gs := (List.range r.gn).map (physOf r s1 .gran)
  let as := (List.range r.an).map (physOf r s1 .acc)
  let bs := (List.range r.bn).map (physOf r s1 .latch)
  let ts := (List.range r.hn).map (physOf r s1 .ht)
  { co with
    tile := SMap.keep co.tile (fun a => !gs.contains (a / 512)), side := SMap.keep co.side (fun a => !gs.contains a),
    acc := SMap.keep co.acc (fun a => !as.contains (a / 64)), latch := SMap.keep co.latch (fun a => !bs.contains a),
    ht := SMap.keep co.ht (fun a => !ts.contains (a / 4096)), touched := co.touched.filter (fun g => !gs.contains g) }

/-- The windows of a core with what the image holds. -/
def Core.loadWindows (co : Core) (h : Hw) (k : Nat) : Core :=
  let s := h.seat k
  let r := s.lrec
  let s1 := isSeat1 k
  let co := co.clearWindows r s1
  { co with
    tile := SMap.setAll 0 co.tile (s.spilled.flatMap (fun g =>
      (List.range 512).map (fun w => (512 * physOf r s1 .gran g + w, BitVec.ofNat 64 (winWord h k (granOff g + 8 * w)))))),
    side := SMap.setAll 0 co.side (s.spilled.map (fun g => (physOf r s1 .gran g, BitVec.ofNat 64 (winWord h k (0x80000 + 8 * g) % 2 ^ 13)))),
    acc := SMap.setAll {} co.acc ((List.range r.an).flatMap (fun a =>
      (accOfImage (fun w => winWord h k (0x10000 + 32768 * a + 8 * w))).zipIdx.map (fun e => (64 * physOf r s1 .acc a + e.2, e.1)))),
    latch := SMap.setAll {} co.latch ((List.range r.bn).map (fun b =>
      let x := fun e => winWord h k (0x50000 + 16384 * b + 8 * (e / 2)) / 2 ^ (32 * (e % 2)) % 2 ^ 32
      (physOf r s1 .latch b, { fmt := x 0 / 2 ^ 28, el := SMap.setAll 0 [] ((List.range 4096).map (fun e => (e, x e % 2 ^ 16))) }))),
    ht := SMap.setAll 0 co.ht ((List.range r.hn).flatMap (fun t => (List.range 4096).map (fun e =>
      (4096 * physOf r s1 .ht t + e, BitVec.ofNat 32 (winWord h k (0x60000 + 16384 * t + 8 * (e / 2)) / 2 ^ (32 * (e % 2))))))) }

/-- A seat with its registers and fixed state as the image holds them. -/
def Seat.loadImage (s : Seat) (h : Hw) (k : Nat) : Seat :=
  let w := fun off => BitVec.ofNat 64 (winWord h k off)
  let rl := winWord h k 0x418
  let s := { s with
    x := SMap.setAll 0 [] ((List.range s.lrec.xn).filterMap (fun i => if i = 0 then none else some (i, w (0x600 + 8 * i)))),
    v := SMap.setAll 0 [] ((List.range s.lrec.vn).map (fun i => (i, BitVec.ofNat 2048 (winNat h k (0x800 + 256 * i) 32)))),
    y := SMap.setAll 0 [] ((List.range 2).map (fun i => (i, BitVec.ofNat 2048 (winNat h k (256 * i) 32)))),
    q := SMap.setAll 0 [] ((List.range 8).map (fun i => (i, BitVec.ofNat 128 (winNat h k (0x200 + 16 * i) 2)))),
    d := SMap.setAll 0 [] ((List.range 16).map (fun i => (i, w (0x280 + 8 * i)))),
    k := SMap.setAll 0 [] ((List.range 7).map (fun i => (i + 1, w (0x308 + 8 * i)))),
    o := SMap.setAll 0 [] ((List.range 8).map (fun i => (i, w (0x340 + 8 * i)))),
    loops := ((List.range 4).map (fun i => loopOfImage (winNat h k (0x380 + 16 * i) 2))).filter (fun l => l.count != 0),
    sticky := (List.range 5).map (fun i => stickyOfImage (winNat h k (0x3C0 + 16 * i) 2) (rl.testBit (16 + i))),
    mpc := w 0x410, warn := (w 0x430).setWidth 8, accev := [], acctr := [] }
  let s := (savedCsrs.zipIdx.filter (fun c => c.1 != 0x12)).foldl (fun s c => s.csrWrite c.1 (w (0x420 + 8 * c.2))) s
  let s := (List.range 16).foldl (fun s i => s.csrWrite (0x40 + i) (w (0x468 + 8 * i))) s
  { s with
    captured := s.captured.zipIdx.map (fun e =>
      pendOfImage e.1 (winNat h k (0x4800 + 272 * e.2) 32) (winNat h k (0x4800 + 272 * e.2 + 256) 2)) }

/-- A saved seat comes back to its core and seat (R49): RESTORING. -/
def restoreStarts (g : Nat) : Act := fun h =>
  let s := h.seat g
  let k := g % 2 ^ 18
  Act.all [
    (fun _ => [.seat k { s with st := .restoring, claimed := false, kept := [], loss := 0 }]),
    moveKey g k, dropSeat g,
    modCore (coreOf k) (fun co => { co with landings := co.landings ++ s.kept, snapshot := co.snapshot + s.captured.length }),
    engineRun k s.spilled.length (.restoreDone k)] h

/-- RESTORE_DONE (R49, R50, R52, R420): the seat stands as it was saved, its next phase or, after YIELD, its own phase starts,
and the captured entries wait for its first bundle (`replayFirst`). -/
def restoreEnds (k : Nat) : Act := fun h =>
  let s := h.seat k
  let co := h.core (coreOf k)
  if s.st ≠ SeatSt.restoring ∨ co.spillAt ≠ h.glob.now ∨ co.spillSeat ≠ (if isSeat1 k then 1 else 0) then []
  else
    let free : Act := modCore (coreOf k) (fun co => { co with spillSeat := 2 })
    let offs := restoreOffs s
    let pas := offs.map (fun o => winPa h k o false)
    let t := h.coreT (coreOf k)
    if pas.any Option.isNone then
      Act.all [free, trapEntry k [{ code := 0x1D0 + s.saveKind, tval := BitVec.ofNat 64 (8 * (pas.dropWhile Option.isSome).length), slots := 0 }]] h
    else if pas.any (fun p => h.glob.poison.contains (lineOf (p.getD 0))) then
      let left := (pas.dropWhile (fun p => !h.glob.poison.contains (lineOf (p.getD 0)))).length
      Act.all [free, record (domDie (coreOf k)) (seatRec h k { code := 0x1D0 + s.saveKind, tval := BitVec.ofNat 64 (8 * left), slots := 0 } 0 0),
        trapEntry k [{ code := 0xF9, tval := 0, slots := 0 }]] h
    else
      let co' := co.loadWindows h k
      if (List.range s.lrec.an).any (fun a => co'.accBad (physOf s.lrec (isSeat1 k) .acc a) 64) then
        Act.all [free, trapEntry k [{ code := 0x5E, tval := 0, slots := 0 }]] h
      else Act.all [
        free,
        modCore (coreOf k) (fun co => co.loadWindows h k),
        modSeat k (fun s =>
          let s := s.loadImage h k
          let pc := BitVec.ofNat 64 (winWord h k 0x4E8 % 2 ^ 56)
          { s.startPhase s.phase s.iter t with st := .run, pc := pc, wait := .none, loss := 0, toReplay := true })] h

def execRestoreDone (s : State) : Host.Outcome State Fault Refusal :=
  match s.ev with
  | .restoreDone k => eventAct s (restoreEnds k)
  | _ => eventAct s Act.nil

end Sys2Proof.Machine
end

