-- ==== Sys2Proof/Machine/Dispatcher.lean ====
section
/-! DEFINITION. The dispatchers: kicks and instances (R31 to R33, R462, R463), release events and readiness (R35 to R37, R417,
R418), dispatch rounds and placement (R43 to R49, R321, R453), pre-emption requests (R46, R216), retirement and completion (R36,
R219, R322, R357), milestones (R38, R323), aborts (R397, R398). -/

namespace Sys2Proof.Machine

/-! ### Numbers and answers -/

/-- Key of instance n of a package. -/
def instKey (pk n : Nat) : Nat := 2 ^ 32 * pk + n
def modNode (inst node : Nat) (f : NodeRec → NodeRec) : Act :=
  modInst inst (fun i => { i with nodes := SMap.insert i.nodes node (f (SMap.get {} i.nodes node)) })
def nodeRec (h : Hw) (inst node : Nat) : NodeRec := SMap.get {} (h.inst inst).nodes node

/-- The lead dispatcher fails an instance at a node (R417, R418). -/
def dispFail (inst code node : Nat) : Act := fun h =>
  let i := h.inst inst
  Act.all [record (4 * i.pkg) { code := code, tval := BitVec.ofNat 64 node, unitk := 6, unit := 4 * i.pkg, inst := i.num },
    after 1 (.ext (.instanceAbort inst (abortStatus (4 * i.pkg) code)))] h

/-! ### Readiness (R35 to R37, R417, R418) -/

/-- Do the records of a node pass the checks of R417? -/
def recordsOk (h : Hw) (inst node : Nat) : Bool :=
  let i := h.inst inst
  let n := nodeImg h i.pkg i.img node
  let r := lrecImg h i.pkg i.img n.lrec
  let pl := placeImg h i.pkg i.img n.place
  let l := r.1
  !n.res && decide (n.place < secCount h i.pkg i.img secPlaces) && decide (n.lrec < secCount h i.pkg i.img secLrecs) && r.2 && !pl.res &&
  decide (1 ≤ l.xn) && decide (l.xn ≤ 32) && decide (l.vn ≤ 64) && decide (l.gn ≤ 256) && decide (l.an ≤ 8) && decide (l.bn ≤ 4) &&
  decide (l.hn ≤ 8) && decide (l.ln ≤ 32) && decide (l.fbase + l.fcnt ≤ 512) &&
  decide (pl.cpc ≤ 8) && decide (pl.cps ≤ 12) && decide (pl.spd ≤ 768) && pl.seat != 3 && !(pl.jct && (decide (1 < pl.cpc) || pl.xj)) &&
  decide (pl.sgbase < 12 * h.glob.npkg) && l.prol % 4 == 0 && l.kern % 4 == 0 && l.epil % 4 == 0 && !(l.kern == 0 && decide (0 < l.trip))

/-- Does the order of its node queue admit a node: the node before it has been placed, with NBAR completed (R37)? -/
def queueAdmits (h : Hw) (inst node : Nat) : Bool :=
  let i := h.inst inst
  let n := nodeImg h i.pkg i.img node
  let before := (List.range node).filter (fun m => let q := nodeImg h i.pkg i.img m; q.nqen && q.nq == n.nq)
  !n.nqen || (match before.getLast? with
    | none => true
    | some m => let r := nodeRec h inst m; r.done || (r.placed && !n.nbar))

/-- A node without seats that is ready completes, in its order, at once (R36). -/
def zeroDone (inst : Nat) : Act := fun h =>
  Act.each ((h.inst inst).nodes.filter (fun n => n.2.readyAt.isSome && !n.2.done && (nodePlace h inst n.1).count == 0 && queueAdmits h inst n.1))
    (fun n => after 0 (.nodeComplete inst n.1)) h

/-- A node's count has reached zero: its records are checked, and it is ready in this ck (R35, R417, R418). -/
def nodeReady (inst node : Nat) : Act := fun h =>
  let i := h.inst inst
  if !recordsOk h inst node then dispFail inst 0x134 node h
  else
    let pl := nodePlace h inst node
    if pl.count ≠ 0 ∧ (domainSeats h [] [] pl (nodeLrec h inst node)).isNone then dispFail inst 0x135 node h
    else Act.all [
      modNode inst node (fun n => { n with readyAt := some (h.cycle i.pkg) }),
      Act.when (pl.count == 0 && queueAdmits h inst node) (after 0 (.nodeComplete inst node))] h

/-- A release event (R35, R416): `src` 0 a SIGNAL or a completion, 1 a milestone. A count of 0 is never decremented; a surplus
milestone is recorded. -/
def releaseEvent (inst node src : Nat) : Act := fun h =>
  let i := h.inst inst
  if i.st ≠ 1 ∨ !SMap.has i.nodes node then []
  else
    let n := nodeRec h inst node
    if n.count = 0 then
      Act.when (src == 1) (record (4 * i.pkg) { code := 0x131, tval := BitVec.ofNat 64 node, unitk := 6, unit := 4 * i.pkg, inst := i.num }) h
    else Act.all [modNode inst node (fun n => { n with count := n.count - 1 }), Act.when (n.count == 1) (nodeReady inst node)] h

/-- SIGNAL_COUNTED (R214, R322, R416): the lead dispatcher counts a release event. -/
def execSignalCounted (s : State) : Host.Outcome State Fault Refusal :=
  match s.ev with
  | .signalCounted inst node src => eventAct s (releaseEvent inst node src)
  | _ => eventAct s Act.nil

/-! ### The end of an instance (R33, R341, R398, R454) -/

/-- A key under which the accesses of a seat that is gone go on. -/
def ghostKey (k id : Nat) : Nat := 2 ^ 18 * id + k

/-- Does an access go on when its seat is gone: a write that is no retry entry, or a delivery on its way? -/
def outlives (a : Access) : Bool :=
  (a.kind.writes || a.left != 0) && (a.left != 0 || a.parts.any (fun p => p.st != 5 && p.st != 6 && p.st != 8))

/-- A seat's record goes: what it has under way goes on without it, the rest is dropped. (DEDUCED, log 18) -/
def vacate (k : Nat) : Act := withId (fun id => fun h =>
  let s := h.seat k
  let core := coreOf k
  let phys := decide (k < 2 ^ 18)
  Act.all [
    Act.each (seatAccs h k) (fun a => if outlives a.2 then modAcc a.1 (fun x => { x with seat := ghostKey (k % 2 ^ 18) id }) else dropAcc a.1),
    dropSeatPins k,
    Act.when phys (modCore core (fun co => { co with
      landings := co.landings.filter (fun l => l.seat != isSeat1 k), windows := co.windows.filter (fun w => w.seat != isSeat1 k),
      snapshot := co.snapshot - s.captured.length, banks := co.banks.filter (fun u => u.seat != isSeat1 k),
      spillSeat := if co.spillSeat = (if isSeat1 k then 1 else 0) then 2 else co.spillSeat })),
    Act.when (s.st != SeatSt.free) (modPkg (pkgOfCore core) (fun p => { p with winUsed := p.winUsed.filter (fun w => w != s.win) })),
    dropSeat k, pump (ghostKey (k % 2 ^ 18) id)] h)

/-- The group tags of an instance are free (R44), and the scan rounds of their groups gone (R398). -/
def freeTags (inst : Nat) (only : Option Nat) : Act := fun h =>
  let pk := (h.inst inst).pkg
  let mine := fun (t : Nat × Nat × Nat) => t.2.1 == inst && (match only with | none => true | some n => t.2.2 == n)
  let tags := ((h.pkg pk).tagLive.filter mine).map (fun t => t.1)
  Act.all [
    modPkg pk (fun p => { p with tagLive := p.tagLive.filter (fun t => !mine t), tagFree := p.tagFree ++ tags.map (fun t => (t / 16, h.glob.now)) }),
    Act.when only.isNone (Act.each (h.dies.map (fun d => d.1)) (fun d => modDie d (fun x => { x with
      rounds := x.rounds.filter (fun r => !(r.lpkg == pk && tags.contains r.tag)) })))] h

/-- What an instance that ends leaves: queues unbound, communicators and mailbox entries freed, milestones disarmed, its
contexts no longer running. -/
def instEnds (inst : Nat) (status : W64) : Act := fun h =>
  let i := h.inst inst
  Act.all [
    modInst inst (fun i => { i with st := 2, status := status, codeWas := [] }),
    freeTags inst none, unbindInst inst,
    Act.each (h.clusters.map (fun c => c.1)) (fun c => modCluster c (fun x => { x with
      queues := x.queues.map (fun q => if q.2.inst = inst then (q.1, { q.2 with inst := 0, places := [] }) else q),
      mbox := x.mbox.filter (fun m => m.inst != inst) })),
    modDie (4 * i.pkg) (fun d => { d with wheel := d.wheel.filter (fun m => m.inst != inst) }),
    Act.each (List.range h.glob.npkg) (fun p => modelsEnd p i.models)] h

/-- INSTANCE_ABORT (R397, R398): seats go without spill, pins drop, rounds and windows are discarded, no further node starts, and
the report carries the status of its first failure, which is the one that brings the abort when none came before. -/
def endByAbort (inst : Nat) (status : W64) : Act := fun h =>
  if 2 ≤ (h.inst inst).st ∨ !SMap.has h.insts inst then []
  else Act.all [
    Act.each ((h.seats.filter (fun s => s.2.inst == inst)).map (fun s => s.1)) vacate,
    instEnds inst (match (h.inst inst).fail with | none => status | some (u, c) => abortStatus u c)] h

def execInstanceAbort (inst : Nat) (status : BitVec 64) (s : State) : Host.Outcome State Fault Refusal := eventAct s (endByAbort inst status)

/-- COMPLETION_REPORT_APPEND (R357): a store of 256; an ended instance waits for a free entry. -/
def reportAct (inst : Nat) : Act := fun h =>
  let i := h.inst inst
  if i.st ≠ 2 ∨ 256 ≤ (h.pkg i.pkg).reports.length then []
  else Act.all [
    modInst inst (fun i => { i with st := 3 }),
    modPkg i.pkg (fun p => { p with reports := p.reports ++ [(BitVec.ofNat 64 (i.ktag % 2 ^ 32 * 2 ^ 32 + i.num % 2 ^ 32), i.status)] })] h

def execCompletionReportAppend (s : State) : Host.Outcome State Fault Refusal :=
  match s.ev with
  | .completionReportAppend inst => eventAct s (reportAct inst)
  | _ => eventAct s Act.nil

/-! ### Completion of nodes (R36, R219) -/

/-- NODE_COMPLETE: its tag is free, its dependants get their release events in SLIST order, and the instance may complete. -/
def nodeDone (inst node : Nat) : Act := fun h =>
  let i := h.inst inst
  if i.st ≠ 1 ∨ (nodeRec h inst node).done then []
  else Act.all [
    modNode inst node (fun n => { n with done := true, placed := true }),
    freeTags inst (some node),
    Act.each (dependants h i.pkg i.img (nodeImg h i.pkg i.img node)) (fun d => releaseEvent inst d 0),
    zeroDone inst,
    Act.look (fun h => Act.when ((h.inst inst).st == 1 && (h.inst inst).nodes.all (fun n => n.2.done)) (instEnds inst 0))] h

def execNodeComplete (s : State) : Host.Outcome State Fault Refusal :=
  match s.ev with
  | .nodeComplete inst node => eventAct s (nodeDone inst node)
  | _ => eventAct s Act.nil

/-- A result that will never come: its access is gone or failed. -/
def pendGone (h : Hw) (p : Pend) : Bool :=
  match p.acc with
  | none => false
  | some id => match h.acc? id with
    | none => true
    | some a => a.parts.any (fun q => q.st == 6)

/-- The scope at which a retiring seat drains (R36). -/
def retireScope (h : Hw) (k : Nat) : Nat := instScope h (h.seat k).inst

/-- Has a RETIRING seat written its exposed results, landings and all that busy bits track, and drained (R49, R219)? -/
def retireReady (h : Hw) (k : Nat) : Bool :=
  let s := h.seat k
  s.st == SeatSt.retiring && s.pend.all (pendGone h) && seatQuiet h k && s.rels.isEmpty && drained h k (retireScope h k) h.glob.nextId

/-- SEAT_RETIRED: FREE; with the last seat of its node the completion goes to the lead dispatcher, as a SIGNAL does (R322). (DEDUCED, log 51) -/
def seatRetires (k : Nat) : Act := fun h =>
  if !retireReady h k then [] else
  let s := h.seat k
  let p := (h.inst s.inst).pkg
  let me := coreOf k
  Act.all [
    vacate k,
    modNode s.inst s.node (fun n => { n with live := n.live - 1 }),
    Act.when ((nodeRec h s.inst s.node).live == 1)
      (if reachable h (pkgOfCore me) p then sendTo (domCl me) (me % 8) (144 * p + attachCl 0) 12 16 none 0 (.event (.nodeComplete s.inst s.node))
       else record (domDie me) { code := 0x156, unitk := 8, unit := p })] h

def execSeatRetired (s : State) : Host.Outcome State Fault Refusal :=
  match s.ev with
  | .seatRetired k => eventAct s (seatRetires k)
  | _ => eventAct s Act.nil

/-! ### Kicks (R31, R32, R462, R463) -/

/-- A kick that is refused takes no instance number; its report names the port (R463). -/
def refuseKick (pk ktag code : Nat) : Act := fun h =>
  let port := (h.pkg pk).oport
  Act.all [
    Act.when (decide (0x138 ≤ code) && decide (code < 0x140)) (record (4 * pk) { code := code, unitk := 8, unit := port }),
    modPkg pk (fun p => { p with reports := p.reports ++ [(BitVec.ofNat 64 (ktag * 2 ^ 32), abortStatus port code)] })] h

/-- Instances of an image that count as in flight (R33, R357). -/
def inFlight (h : Hw) (pk img : Nat) : Nat := (h.insts.filter (fun i => i.2.pkg == pk && i.2.img == img && decide (i.2.st ≤ 2))).length

/-- Are the patches of a kick in order (R31, R462)? -/
def patchesOk (len : Nat) (l : List (W64 × W64)) : Bool :=
  l.all (fun p => decide (p.1.toNat < 2 ^ 32) && p.1.toNat % 8 == 0 && decide (p.1.toNat + 8 ≤ len))

/-- The cause for which a kick is refused (R462, R465); none when it is accepted. -/
def kickCause (h : Hw) (pk : Nat) (hdr : W64) (patches : List (W64 × W64)) : Option Nat :=
  let w := hdr.toNat
  let p := h.pkg pk
  let img := field w 23 20
  let len := secCount h pk img secParams
  let base := secAddr h pk img secParams
  match p.events with
  | c :: _ => some c
  | [] =>
    if !(SMap.get {} p.images img).valid then some 0x138
    else if 256 < field w 16 8 ∨ field w 31 24 ≠ 0 ∨ field w 19 17 ≠ 0 ∨ w % 2 ^ 8 ≠ 0 ∨ !patchesOk len patches then some 0x139
    else if imgMaxi h pk img < inFlight h pk img then some 0x13A
    else if len ≠ 0 ∧ h.glob.poison.any (fun l => decide (base / 64 ≤ l) && decide (l ≤ (base + len - 1) / 64)) then some 0x13B
    else none

/-- The places of parameter blocks are 1 MiB apart; the lowest that no instance in flight holds (R32). (DESIGN CHOICE, log 6) -/
def freeSlot (h : Hw) (pk : Nat) : Nat :=
  let used := (h.insts.filter (fun i => i.2.pkg == pk && decide (i.2.st ≤ 2))).map (fun i => i.2.slot)
  ((List.range 129).find? (fun s => !used.contains s)).getD 129

/-- Physical and flat address of a copy (R32). -/
def paramAt (pk slot : Nat) : Nat := paOf pk ((Config.paramPa pk).toNat * 2 ^ 16 + slot * 2 ^ 20)
def paramFlat (pk slot : Nat) : W64 := Config.paramVa pk + BitVec.ofNat 64 (slot * 2 ^ 20)

/-- Copy bytes of memory. -/
def copyBytes (src dst n : Nat) : Act := fun h =>
  Act.all [(fun _ => [.memDrop dst (dst + n)]),
    writeMem ((h.mem.filter (fun e => decide (src ≤ e.1) && decide (e.1 < src + n))).map (fun e => (dst + (e.1 - src), e.2)))] h

/-- KICK (R31 to R33): a complete transaction of the owner makes an instance with its own patched parameter block. A package whose
firmware is held accepts none (R464); a kick during a wipe, or one that arrived incomplete, has no effect (R31, R361). (DEDUCED, log 54) -/
def kickAct (pk node : Nat) (hdr : W64) (patches : List (W64 × W64)) : Act := fun h =>
  let p := h.pkg pk
  let w := hdr.toNat
  let img := field w 23 20
  if !portsLive h pk ∨ wipeRuns h pk ∨ (field w 16 8 ≤ 256 ∧ patches.length ≠ field w 16 8) ∨
    (List.range 4).any (fun d => (h.die (4 * pk + d)).fwHeld) then []
  else if !isOwner h pk node then refuseWrite pk h
  else match kickCause h pk hdr patches with
    | some c => refuseKick pk (w / 2 ^ 32) c h
    | none =>
      let n := (p.instCount + 1) % 2 ^ 32
      let slot := freeSlot h pk
      let at_ := paramAt pk slot
      Act.all [
        modPkg pk (fun p => { p with instCount := n }),
        copyBytes (secAddr h pk img secParams) at_ (secCount h pk img secParams),
        writeMem (patches.flatMap (fun q => writeNat (at_ + q.1.toNat) 8 q.2.toNat)),
        (fun _ => [.inst (instKey pk n) { pkg := pk, num := n, ktag := w / 2 ^ 32, img := img, slot := slot }])] h

def execKick (pkg node : Nat) (hdr : BitVec 64) (patches : List (BitVec 64 × BitVec 64)) (s : State) : Host.Outcome State Fault Refusal :=
  eventAct s (kickAct pkg node hdr patches)

/-! ### The start of an instance (R33, R38, R39, R439, R474) -/

/-- The queues that an image defines. -/
def imgQueues (h : Hw) (pk img : Nat) : List (Nat × Nat) := (queueImgs h pk img).map (fun q => (q.1, q.2.1))

/-- Must an instance wait for an earlier one that defines one of its queues (R33)? -/
def queueBlocked (h : Hw) (inst : Nat) : Bool :=
  let i := h.inst inst
  h.insts.any (fun j => decide (j.1 < inst) && j.2.pkg == i.pkg && decide (j.2.st ≤ 1) &&
    (imgQueues h i.pkg j.2.img).any (fun q => (imgQueues h i.pkg i.img).contains q))

/-- Are there layers that must be evicted before a waiting instance starts, and not yet told so? -/
def modelsUntold (h : Hw) (pk : Nat) (ms : List ModelImg) : Bool :=
  let p := h.pkg pk
  ms.any (fun m => modelDiffers p m && !modelRuns h pk m.model && p.layers.any (fun e => e.1 / 1024 == m.model && e.2.st != LayerSt.absent && !e.2.evictNow))

/-- Can an instance that waits do something? -/
def startDue (h : Hw) (inst : Nat) : Bool :=
  let i := h.inst inst
  let ms := modelImgs h i.pkg i.img
  i.st == 0 && SMap.has h.insts inst && !queueBlocked h inst &&
    ((modelPkgs h i.pkg).all (fun p => !modelsWait h p ms) || (modelPkgs h i.pkg).any (fun p => modelsUntold h p ms) ||
      ((h.pkg i.pkg).poolNew.isNone && (startCode h i.pkg ms).isSome))

/-- Arm the milestones of an image: relative times count from the start (R38); the wheel holds 4,096 (R217). (DEDUCED, log 52) -/
def armImage (inst : Nat) : Act := fun h =>
  let i := h.inst inst
  let d := h.die (4 * i.pkg)
  let atTick := decide (h.ptime i.pkg / 64 ≠ d.tickNo) || decide (h.cycle i.pkg % Config.tickCk = 0)
  let base := d.wheelAt + (if atTick then 0 else 1)
  let l := (milestoneImgs h i.pkg i.img).map (fun m =>
    ({ inst := inst, node := m.2.2, time := if m.2.1 then base + m.1 else m.1, abs := !m.2.1 } : Milestone))
  modDie (4 * i.pkg) (fun d => { d with wheel := d.wheel ++ l.take (4096 - min 4096 d.wheel.length) }) h

/-- INSTANCE_START: the residency engine checks the models, the queues are emptied and bound, the milestones armed, and the nodes
whose count is zero become ready. -/
def startAct (inst : Nat) : Act := fun h =>
  let i := h.inst inst
  let pk := i.pkg
  let ms := modelImgs h pk i.img
  if !startDue h inst then []
  else match (if (h.pkg pk).poolNew.isSome then none else startCode h pk ms) with
    | some c => Act.all [record (4 * pk) { code := c, unitk := 5, unit := 4 * pk, inst := i.num }, modInst inst (fun i => { i with st := 1 }),
        endByAbort inst (abortStatus (4 * pk) c)] h
    | none =>
      if (modelPkgs h pk).any (fun p => modelsWait h p ms) then Act.each (modelPkgs h pk) (fun p => modelsClear p ms) h else
      let n := imgNodes h pk i.img
      let nodes := (List.range n).map (fun j => (j, ({ count := (nodeImg h pk i.img j).depn } : NodeRec)))
      Act.all [
        Act.each (modelPkgs h pk) (fun p => modelsDefine p ms),
        modInst inst (fun i => { i with st := 1, nodes := nodes, models := ms.map (fun m => m.model), mpkgs := modelPkgs h pk }),
        Act.each (queueImgs h pk i.img) (fun q => Act.when (decide (q.1 < 144)) (modCluster (144 * pk + q.1) (fun c => { c with
          queues := SMap.insert c.queues q.2.1 { inst := inst, cap := 2 ^ q.2.2, places := [] } }))),
        armImage inst,
        Act.each (nodes.filter (fun x => x.2.count == 0)) (fun x => Act.look (fun h => Act.when ((h.inst inst).st == 1) (nodeReady inst x.1))),
        Act.when nodes.isEmpty (instEnds inst 0)] h

def execInstanceStart (s : State) : Host.Outcome State Fault Refusal :=
  match s.ev with
  | .instanceStart inst => eventAct s (startAct inst)
  | _ => eventAct s Act.nil

/-! ### Group tags (R44, R453) -/

/-- The next group tag: none when the list is empty, `some none` when its head must still wait 2^21 ck. (DEDUCED, log 72) -/
def nextTag (h : Hw) (pk : Nat) : Option (Option (Nat × Pkg)) :=
  let p := h.pkg pk
  if p.tagFresh < 4095 then some (some (16 * (p.tagFresh + 1), { p with tagFresh := p.tagFresh + 1 }))
  else match p.tagFree with
    | [] => none
    | (id, at_) :: r =>
      if at_ + 2 ^ 21 ≤ h.glob.now then
        let g := (SMap.get 0 p.tagGen id + 1) % 16
        some (some (16 * id + g, { p with tagFree := r, tagGen := SMap.set 0 p.tagGen id g }))
      else some none

/-! ### Dispatch rounds (R45, R46, R321) -/

/-- The entries of a round: nodes ready before this ck, in the order of their queues, and saved seats that the owner does not
hold. -/
def entriesOf (h : Hw) (pk : Nat) : List Entry :=
  let cyc := h.cycle pk
  let nodes := (h.insts.filter (fun i => i.2.pkg == pk && i.2.st == 1)).flatMap (fun i =>
    (i.2.nodes.filter (fun n => (match n.2.readyAt with | none => false | some r => decide (r < cyc)) && !n.2.placed && !n.2.done &&
        (nodePlace h i.1 n.1).count != 0 && queueAdmits h i.1 n.1)).map (fun n =>
      ({ pri := (nodeLrec h i.1 n.1).pri, rel := n.2.readyAt.getD 0, node := n.1, inst := i.1, saved := none } : Entry)))
  let saved := (h.seats.filter (fun s => s.2.st == SeatSt.saved && !s.2.ownerHeld && !s.2.claimed && (h.inst s.2.inst).pkg == pk)).map (fun s =>
    ({ pri := s.2.lrec.pri, rel := s.2.relTime, node := s.2.node, inst := s.2.inst, saved := some s.1 } : Entry))
  sortBy Entry.before (nodes ++ saved)

/-- A message of the lead dispatcher to the dispatcher of a seat's package (R321). -/
def placeDelay (pk core : Nat) : Nat := if pkgOfCore core = pk then 8 else 1800

/-- Promise the seats of a node to it, and send the placement. Its flags are cleared now, before any seat of it runs (R64). -/
def placeNode (pk : Nat) (e : Entry) (l : List Spot) (tag : Nat) : Act := fun h =>
  let i := h.inst e.inst
  let r := e.lrec h
  let pl := nodePlace h e.inst e.node
  Act.all [
    modNode e.inst e.node (fun n => { n with placed := true, seats := l.map (fun s => s.key), live := l.length, tag := tag }),
    modPkg pk (fun p => { p with tagLive := p.tagLive ++ [(tag, e.inst, e.node)] }),
    Act.each l (fun s => Act.all [
      (fun _ => [.seat s.key {
        inst := e.inst, node := e.node, rank := s.i + pl.cpc * (s.j + pl.cps * s.k), ordI := s.i, ordJ := s.j, ordK := s.k,
        tag := tag, img := i.img, lrec := r, parBase := paramFlat pk i.slot, relTime := e.rel }]),
      modCore (coreOf s.key) (fun co => { co with
        flags := SMap.keep co.flags (fun f => decide (f < r.fbase) || decide (r.fbase + r.fcnt ≤ f)) }),
      after (placeDelay pk (coreOf s.key)) (.seatPlacement s.key e.inst e.node (s.i + pl.cpc * (s.j + pl.cps * s.k)))])] h

/-- A saved seat is promised its own seat again. -/
def placeSaved (pk : Nat) (g : Nat) (e : Entry) : Act := fun h =>
  let s := h.seat g
  Act.all [
    modSeat g (fun s => { s with claimed := true }),
    (fun _ => [.seat (g % 2 ^ 18) { inst := s.inst, node := s.node, lrec := s.lrec, relTime := s.relTime }]),
    after (placeDelay pk (coreOf g)) (.seatPlacement g e.inst e.node s.rank)] h

/-- Ask a seat to leave. -/
def askSeat (k : Nat) : Act := Act.all [
  modSeat k (fun s => { s with preReq := true }), after 0 (.preemptionRequest k)]

/-- DISPATCH_ROUND: at most one entry is placed, the first that fits; the first entry of all, when it does not fit, pre-empts. -/
def roundAct (pk : Nat) : Act := fun h =>
  let es := entriesOf h pk
  Act.all [
    modPkg pk (fun p => { p with roundAt := h.cycle pk + 1 }),
    Act.each ((h.insts.filter (fun i => i.2.pkg == pk && i.2.st == 1)).map (fun i => i.1)) zeroDone,
    (match es with
      | [] => Act.nil
      | e :: _ =>
        if (e.spots h (occOf h) (savedOf h (e.saved.getD 0))).isNone then
          Act.each (victimSeats h e.pri (e.reserve h [])) askSeat
        else Act.nil),
    (match firstFit h (occOf h) es [] with
      | none => Act.nil
      | some (e, l) =>
        match e.saved with
        | some g => placeSaved pk g e
        | none =>
          if l.any (fun s => !reachable h pk (pkgOfCore (coreOf s.key))) then dispFail e.inst 0x137 e.node
          else match nextTag h pk with
            | none => dispFail e.inst 0x136 e.node
            | some none => Act.nil
            | some (some (tag, p)) => Act.all [(fun _ => [.pkg pk { p with roundAt := h.cycle pk + 1 }]), placeNode pk e l tag])] h

/-- Is a round due: every 4 ck (R321), when it would find something? -/
def roundDue (h : Hw) (pk : Nat) : Bool :=
  let cyc := h.cycle pk
  cyc % 4 == 0 && (h.pkg pk).roundAt != cyc + 1 &&
  (h.insts.any (fun i => i.2.pkg == pk && i.2.st == 1 && i.2.nodes.any (fun n => n.2.readyAt.isSome && !n.2.placed && !n.2.done)) ||
   h.seats.any (fun s => s.2.st == SeatSt.saved && !s.2.ownerHeld && !s.2.claimed && (h.inst s.2.inst).pkg == pk))

def execDispatchRound (s : State) : Host.Outcome State Fault Refusal :=
  match s.ev with
  | .dispatchRound pk => eventAct s (roundAct pk)
  | _ => eventAct s Act.nil

/-! ### Placement of seats (R47 to R49, R64, R117) -/

/-- The lowest private window of a package that is free. -/
def freeWindow (p : Pkg) : Nat := ((List.range (p.winUsed.length + 1)).find? (fun w => !p.winUsed.contains w)).getD 0

/-- A node's seat is placed: windows read zero, the entry registers are written, and it runs from the next ck on;
a record without a phase retires at once (R48). -/
def seatPlaced (k : Nat) : Act := fun h =>
  let s := h.seat k
  let core := coreOf k
  let t := h.coreT core
  let p := h.pkg (pkgOfCore core)
  let w := freeWindow p
  let top := BitVec.ofNat 64 ((p.privBase + 2 ^ 22 * (w + 1)) % 2 ^ 64)
  Act.all [
    modPkg (pkgOfCore core) (fun p => { p with winUsed := p.winUsed ++ [w] }),
    modCore core (fun co => co.clearWindows s.lrec (isSeat1 k)),
    modSeat k (fun s => { s with st := .placed, win := w, seatpri := s.lrec.spri }),
    modSeat k (fun s => s.setX 2 top),
    (match firstPhase s.lrec with
      | none => Act.all [modSeat k (fun s => { s with st := .run }), retireSeat k]
      | some (ph, it) => modSeat k (fun s => s.startPhase ph it (t + 1)))] h

/-- SEAT_PLACEMENT: a placement that has lost its instance meanwhile comes to nothing. -/
def placementAct (k inst node : Nat) : Act := fun h =>
  let s := h.seat k
  if s.inst ≠ inst ∨ s.node ≠ node then []
  else if s.st = SeatSt.saved then (if s.claimed then restoreStarts k h else [])
  else if s.st = SeatSt.free then seatPlaced k h
  else []

def execSeatPlacement (s : State) : Host.Outcome State Fault Refusal :=
  match s.ev with
  | .seatPlacement k inst node _ => eventAct s (placementAct k inst node)
  | _ => eventAct s Act.nil

/-- PREEMPTION_REQUEST (R46, R49, R216): the seat leaves at its next phase end; a parked seat goes back to RUN first. (DEDUCED, log 48) -/
def requestAct (k : Nat) : Act := fun h =>
  let s := h.seat k
  let t := h.coreT (coreOf k)
  if !s.preReq ∨ s.st = SeatSt.free ∨ s.st = SeatSt.retiring ∨ s.st = SeatSt.saving then []
  else modSeat k (fun s => { s with
    preempt := true, preReq := false,
    st := (if s.st = SeatSt.parked then SeatSt.run else s.st),
    wait := (match s.wait with | .sleep _ => .none | w => w),
    savedWait := (match s.savedWait with | .sleep _ => .none | w => w),
    nextIssue := (match s.wait with | .sleep _ => max s.nextIssue (t + 1) | _ => s.nextIssue) }) h

def execPreemptionRequest (s : State) : Host.Outcome State Fault Refusal :=
  match s.ev with
  | .preemptionRequest k => eventAct s (requestAct k)
  | _ => eventAct s Act.nil

/-- OWNER_PREEMPT (R46): a seat, or every seat of an instance, leaves and stays saved until the owner releases it; a placement that is on its
way to bring it back is withdrawn. -/
def execOwnerPreempt (pkg node : Nat) (target : OwnerTarget) (s : State) : Host.Outcome State Fault Refusal :=
  eventAct s (Act.look (fun h =>
    if !portsLive h pkg then Act.nil
    else if !isOwner h pkg node then refuseWrite pkg
    else
      let hit := fun (e : Nat × Seat) => e.2.st != SeatSt.free && e.2.st != SeatSt.retiring && (match target with
        | .seat k => e.1 == k || (e.2.st == SeatSt.saved && e.1 % 2 ^ 18 == k)
        | .inst n => e.2.inst == instKey pkg n)
      Act.each (h.seats.filter hit) (fun e => Act.all [
        Act.when (e.2.st == SeatSt.saved && e.2.claimed) (dropSeat (e.1 % 2 ^ 18)),
        modSeat e.1 (fun s => { s with ownerHeld := true, claimed := false }),
        Act.when (e.2.st != SeatSt.saved && e.2.st != SeatSt.saving && !leaving e.2) (askSeat e.1)])))

/-- OWNER_RELEASE_SEAT (R46): a seat that the owner pre-empted stands in the order again. -/
def execOwnerReleaseSeat (pkg node seat : Nat) (s : State) : Host.Outcome State Fault Refusal :=
  eventAct s (Act.look (fun h =>
    if !portsLive h pkg then Act.nil
    else if !isOwner h pkg node then refuseWrite pkg
    else Act.each ((h.seats.filter (fun e => e.1 % 2 ^ 18 == seat)).map (fun e => e.1)) (fun k => modSeat k (fun s => { s with ownerHeld := false }))))

/-! ### The milestone wheel (R38, R217, R323, R358) -/

/-- Does the wheel of a package's lead die tick in this ck? -/
def tickDue (h : Hw) (pk : Nat) : Bool := h.ptime pk / 64 != (h.die (4 * pk)).tickNo

/-- MILESTONE_WHEEL_TICK: what is due delivers its release event 4 ck later. Absolute times wait for synchronisation. A tick that PTIME
passed over is delivered late, with cause 0x07E where a milestone stood on it (R389). (DESIGN CHOICE, log 83) -/
def tickAct (die : Nat) : Act := fun h =>
  let pk := die / 4
  let n := h.ptime pk / 64
  let d := h.die die
  let ticks := d.wheelAt + 1
  let due := fun (m : Milestone) => if m.abs then (h.pkg pk).synced && decide (m.time ≤ n) else decide (m.time ≤ ticks)
  Act.all [
    Act.when (d.wheel.any (fun m => m.abs && due m && decide (d.tickNo < m.time) && decide (m.time < n)))
      (record die { code := 0x7E, unitk := 6, unit := 4 * pk }),
    modDie die (fun d => { d with wheelAt := ticks, tickNo := n, wheel := d.wheel.filter (fun m => !due m) }),
    Act.each (d.wheel.filter due) (fun m => after 4 (.signalCounted m.inst m.node 1))] h

def execMilestoneWheelTick (s : State) : Host.Outcome State Fault Refusal :=
  match s.ev with
  | .milestoneWheelTick die => eventAct s (tickAct die)
  | _ => eventAct s Act.nil

end Sys2Proof.Machine
end

