-- ==== Sys2Proof/Machine/Watch.lean ====
section
/-! DEFINITION. Limits on a seat's progress (R377, R411, R419), and what a supervisor does with a frozen seat (R398, R420 to R422,
R431, R432). -/

namespace Sys2Proof.Machine

/-! ### Hold watchdogs (R411) -/

/-- The slot whose form a path or unit belongs to. -/
def pathSlot (p : Nat) : Slot := if p = 5 then .v0 else if p = 6 then .v1 else if p = 7 then .c0 else if p = 8 then .c1 else .m

/-- Has a seat's bundle been held by one path or unit for 2^22 ck? -/
def holdLate (h : Hw) (k : Nat) : Bool :=
  let s := h.seat k
  s.holdFrom != 0 && decide (s.holdWhy < 9) && decide (s.holdFrom + 2 ^ 22 ≤ h.glob.now + 1)

/-- HOLD_WATCHDOG. -/
def execHoldWatchdog (s : State) : Host.Outcome State Fault Refusal :=
  match s.ev with
  | .holdWatchdog k => eventAct s (Act.look (fun h => Act.all [
      modSeat k (fun s => { s with holdFrom := 0, holdWhy := 0 }),
      trapEntry k [mkCause (0x74 + (h.seat k).holdWhy) 0 (pathSlot (h.seat k).holdWhy)]]))
  | _ => eventAct s Act.nil

/-- Has an ACOMMIT waited for its arrivals for 2^24 ck? -/
def acommitLate (h : Hw) (k : Nat) : Bool :=
  let s := h.seat k
  s.holdFrom != 0 && decide (16 ≤ s.holdWhy) && decide (s.holdFrom + 2 ^ 24 ≤ h.glob.now + 1)

/-- The arrivals present in an accumulate window of a seat. -/
def arrivalsIn (h : Hw) (k a : Nat) : Nat :=
  match (h.core (coreOf k)).windows.find? (fun w => w.seat == isSeat1 k && w.acc == a) with
  | none => 0
  | some w => w.arr.length

/-- ACOMMIT_ARRIVAL_TIMEOUT: the window stays open. -/
def execAcommitArrivalTimeout (s : State) : Host.Outcome State Fault Refusal :=
  match s.ev with
  | .acommitArrivalTimeout k => eventAct s (Act.look (fun h => Act.all [
      modSeat k (fun s => { s with holdFrom := 0, holdWhy := 0 }),
      trapEntry k [mkCause 0x7D (arrivalsIn h k ((h.seat k).holdWhy - 16)) .m]]))
  | _ => eventAct s Act.nil

/-! ### The bound of a phase (R48, R419) -/

/-- Has a phase, or a handler, reached its bound? -/
def boundLate (h : Hw) (k : Nat) : Bool :=
  let s := h.seat k
  s.boundAt != 0 && decide (s.boundAt ≤ h.glob.now)

def phaseNo : Phase → Nat
  | .prologue => 0
  | .kernel => 1
  | .epilogue => 2

/-- The cause of a bound that is exceeded: in handler state the nested fault 0x1DB, with 0x1C3 in TVAL (R382, R419). -/
def boundCause (s : Seat) : Cause :=
  if s.handler then { code := 0x1C3, tval := 0, slots := 0 }
  else { code := 0x1C0 + phaseNo s.phase, tval := BitVec.ofNat 64 (s.lrec.ibnd + 1), slots := 0 }

/-- PHASE_BOUND_EXCEEDED. -/
def execPhaseBoundExceeded (s : State) : Host.Outcome State Fault Refusal :=
  match s.ev with
  | .phaseBoundExceeded k => eventAct s (Act.look (fun h => trapEntry k [boundCause (h.seat k)]))
  | _ => eventAct s Act.nil

/-! ### The bundle without a slot (R158, R160, R164) -/

/-- EMPTY_BUNDLE: nothing issues in any slot, and the sequencer goes on. -/
def execEmptyBundle (s : State) : Host.Outcome State Fault Refusal :=
  .next (if s.cur.on then s.commit else s)

/-! ### A supervisor's commands (R398, R422) -/

/-- May the supervisor resume or retire a seat: it is frozen, and its cause is not of class A or P? -/
def canResume (s : Seat) : Bool :=
  s.frozen.on && recov s.frozen.cause.code != .a && recov s.frozen.cause.code != .p

/-- A seat that was not in a handler goes on at its bundle, its entries replayed as ERET does: retry entries issue again,
failed granules are decoded again, overdue requests are made again (R424, R431, R432). A phase bound is granted afresh. (DEDUCED, log 44) -/
def resumeSeat (k : Nat) : Act := fun h =>
  let s := h.seat k
  let t := h.coreT (coreOf k)
  let c := s.frozen.cause.code
  Act.all [
    modSeat k (fun s => { s with frozen := {} }),
    reissue k, redecode k, reissueOver k,
    if s.handler then trapReturn k 3
    else Act.all [
      modSeat k (fun s => { s with
        nextIssue := t + 3, wait := restartWait s t h.glob.now h.glob.nextId, savedWait := .none,
        rels := (match s.savedWait with | .release _ => s.rels.map (fun r => { r with start := h.glob.now }) | _ => s.rels),
        st := (match s.savedWait with | .sleep _ => SeatSt.parked | _ => s.st),
        boundAt := if 0x1C0 ≤ c ∧ c ≤ 0x1C2 then h.glob.now + s.lrec.ibnd + 1 else s.boundAt }),
      replay k (t + 3)]] h

/-- Before it resumes a seat whose cause it had reported to the owner, the supervisor invalidates what the caches hold of the
repaired table or page (R427, R444, R471). -/
def freshCaches (k : Nat) : Act := fun h =>
  let s := h.seat k
  let c := s.frozen.cause
  if !s.frozen.toOwner then []
  else if c.code = 0x0A3 ∨ c.code = 0x0A4 ∨ c.code = 0x0A9 ∨ c.code = 0x0AA then dropTables (pkgOfCore (coreOf k)) h
  else if 0x080 ≤ c.code ∧ c.code < 0x0A0 ∧ c.code % 4 ≤ 2 then dropLeaf (pkgOfCore (coreOf k)) s.img c.tval.toNat h
  else []

/-- RESUME_COMMAND: a spill or a restore starts again from its first byte (R420). -/
def resumeAct (k : Nat) : Act := fun h =>
  let s := h.seat k
  if !canResume s then []
  else Act.all [freshCaches k, match s.st with
    | .saving => modSeat k (fun s => { s with frozen := {} })
    | .restoring => Act.all [modSeat k (fun s => { s with frozen := {} }),
        engineRun k s.spilled.length (.restoreDone k)]
    | _ => resumeSeat k] h

def execResumeCommand (seat : Nat) (s : State) : Host.Outcome State Fault Refusal := eventAct s (resumeAct seat)

/-- SEAT_RETIRE_COMMAND: the seat retires, so that its node still completes. -/
def execSeatRetireCommand (seat : Nat) (s : State) : Host.Outcome State Fault Refusal :=
  eventAct s (Act.look (fun h => if canResume (h.seat seat) then retireSeat seat else Act.nil))

end Sys2Proof.Machine
end

