-- ==== Sys2Proof/Machine/Failure.lean ====
section
/-! DEFINITION. Failures of the machine's parts: patrol scrub and detected faults (R375, R391, R400, R434, R435), link retry and exhaustion (R445, R446), routers
and links that fail (R447, R448), the partition reset (R399), Stehayth links (R460), the carry channel (R458), temperature and
power (R465). -/

namespace Sys2Proof.Machine

/-! ### What is in flight -/

/-- The domain cluster at which an event arrives, for what the fabric delivers. -/
def evCluster (h : Hw) : Event → Option Nat
  | .lateDataArrival a i => (h.acc? a).map (fun x => if (x.parts.getD i {}).st = 1 then partHome h (x.parts.getD i {}) else domCl (coreOf x.seat))
  | .remoteFlagArrival m => if m.byTag.isSome then none else some (domCl m.core)
  | .inboundRemoteWrite m => some (domCl m.core)
  | .accumulateArrival m => some (domCl m.core)
  | .neighbourMessageArrival m => some (domCl m.core)
  | .carryMessageArrival m => some (domCl m.core)
  | .chunkArrival m => some m.cluster
  | .reductionPacketArrival m => some m.cluster
  | .creditGrant c _ _ _ _ _ => some c
  | .abortNotice c _ _ _ _ => some c
  | _ => none

/-- Take events out of the agenda. -/
def dropEvents (f : Event → Bool) : Act := modGlob (fun g => { g with agenda := g.agenda.filter (fun e => !f e.2) })

/-- An access ends in the fabric, with all that would still arrive of it. -/
def killAcc (id bit : Nat) : Act := Act.all [dropEvents (fun e => evAcc e == some id), loseAccess id bit]

/-! ### The partition reset (R399, R448) -/

/-- The clusters of some stack groups of a package. -/
def groupCls (gs : List Nat) : List Nat := (List.range 144).filter (fun c => gs.contains (stackOfCl c))

/-- The stack groups of some clusters. -/
def groupsOf (cls : List Nat) : List Nat := (List.range 12).filter (fun s => cls.any (fun c => stackOfCl c == s))

/-- Traffic to a partition that is dropped is counted at a cluster (R399). -/
def countDrop (pk cl : Nat) : Act := record (4 * pk + dieOfCl cl) { code := 0x152, unitk := 3, unit := 144 * pk + cl }

/-- Packets held in failed routers are lost; those in the partition, or on their way to it, are dropped. -/
def dropPackets (pk : Nat) (dead : List Nat) (gs : List Nat) : Act := Act.look (fun h =>
  Act.each (List.range 144) (fun c =>
    let k := 144 * pk + c
    let all := (h.cluster k).pkts ++ (h.cluster k).inj ++ (h.cluster k).held
    let lost := if dead.contains c then all else []
    let gone := if dead.contains c then [] else if gs.contains (stackOfCl c) then all else all.filter (fun x => gs.contains (stackOfCl x.dst))
    Act.when (!(lost.isEmpty && gone.isEmpty)) (Act.all [
      modCluster k (fun x =>
        let out := fun (y : Packet) => lost.contains y || gone.contains y
        { x with pkts := x.pkts.filter (fun y => !out y), inj := x.inj.filter (fun y => !out y), held := x.held.filter (fun y => !out y) }),
      Act.each lost (fun x => Act.all [Act.when (gs.contains (stackOfCl x.dst)) (countDrop pk c), losePkt x]),
      Act.each gone (dropPkt pk c)])))

/-- Is a part on its way to, or at, a stack of the partition? -/
def partInGroups (pk : Nat) (gs : List Nat) (p : Part) : Bool :=
  (p.st == 1 || p.st == 3) && p.pa / 2 ^ 46 == pk && gs.contains (p.pa / 2 ^ 36 % 1024)

/-- Accesses of other seats under way to the partition: an atomic is refused and waits to be made again (R436), anything else is
dropped with RESET. -/
def dropTraffic (pk : Nat) (gs : List Nat) : Act := Act.look (fun h => Act.all [
  Act.each (h.accs.filter (fun a => !a.2.isStream && a.2.parts.any (partInGroups pk gs))) (fun a =>
    match a.2.kind with
    | .amo _ _ _ _ _ => Act.all [
        dropEvents (fun e => evAcc e == some a.1 || e == .atomicExecution a.1 0),
        modAcc a.1 (fun x => { x with parts := x.parts.map (fun p =>
          { p with st := 6, why := 0x102 + 4 * atomicSite (coreOf x.seat) p.pa p.ms }) }), chargeWalks a.1]
    | _ => Act.all [countDrop pk ((groupCls gs).headD 0), killAcc a.1 bitReset]),
  Act.each (h.glob.agenda.filter (fun e => match evCluster h e.2 with
      | some c => c / 144 == pk && gs.contains (stackOfCl (c % 144))
      | none => false)) (fun e =>
    Act.all [countDrop pk ((groupCls gs).headD 0), match evAcc e.2 with
      | some a => killAcc a bitReset
      | none => dropEvents (fun x => x == e.2)]),
  Act.each (groupCls gs) (fun c => modCluster (144 * pk + c) (fun x => { x with sliceQ := [] })),
  modGlob (fun g => { g with mcq := SMap.keep g.mcq (fun q => !(q / 768 == pk && gs.contains (q % 768 / 64))) })])

/-- The stores of a partition are wiped (R399). -/
def wipeGroups (pk : Nat) (gs : List Nat) : Act := Act.look (fun h => Act.all [
  Act.each ((h.cores.map (·.1)).filter (fun n => decide (n < sysBase) && pkgOfCore n == pk && gs.contains (stackOfCl (clOfCore n))))
    (fun n => modCore n (fun co => { co with tile := [], side := [], touched := [], ht := [], snapshot := 0, landings := [], inbound := [], banks := [] })),
  Act.each (groupCls gs) (fun c => wipeSlices (144 * pk + c)),
  Act.each gs (wipeStack pk)])

/-- Does a layer's slot lie in the partition? -/
def layerInGroups (p : Pkg) (gs : List Nat) (e : Layer) : Bool :=
  !e.slots.isEmpty && gs.contains (p.poolBase / 2 ^ 36 % 1024)

/-- Layers whose slots lay in the partition become ABSENT; arrivals from it, and write-backs to it, fail. -/
def layersReset (pk : Nat) (gs : List Nat) : Act := Act.look (fun h =>
  Act.each (List.range h.glob.npkg) (fun q =>
    Act.each (h.pkg q).layers (fun e =>
      let mine := decide (q = pk) && layerInGroups (h.pkg q) gs e.2
      let home := e.2.home / 2 ^ 46 == pk && gs.contains (e.2.home / 2 ^ 36 % 1024)
      if (mine || home) && e.2.st == LayerSt.arriving then arrivalFails q e.1 14
      else if mine then Act.all [stopStreams q e.1,
        modLayer q e.1 (fun x => { x with st := .absent, slots := [], dirty := [], evictNow := false })]
      else if home && e.2.st == LayerSt.evicting then writeBackFails q e.1
      else Act.nil)))

/-- A partition reset: `gs` are its stack groups and `dead` its failed routers. Placement stops, instances with a seat there are
aborted, traffic is dropped, the stores are wiped within 20 ms, and the provisional tables go round it; it resumes after that. (DEDUCED, log 63) -/
def partitionReset (pk : Nat) (gs dead : List Nat) (r : ErrRec) : Act := fun h =>
  let until_ := h.glob.now + 45000000
  let hit := ((h.seats.filter (fun s => s.2.st != SeatSt.free && pkgOfCore (coreOf s.1) == pk && decide (coreOf s.1 < sysBase) &&
    gs.contains (stackOfCl (clOfCore (coreOf s.1))))).map (fun s => s.2.inst)).foldl (fun l i => if l.contains i then l else l ++ [i]) []
  Act.all [
    record (4 * pk + gs.headD 0 / 3) r,
    modPkg pk (fun p => { p with
      failedRtr := p.failedRtr ++ dead.filter (fun c => !p.failedRtr.contains c),
      tabOff := p.tabOff ++ (dead ++ groupCls gs).filter (fun c => !p.tabOff.contains c),
      fenced := p.fenced ++ (gs.map (fun s => 12 * pk + s)).filter (fun g => !p.fenced.contains g),
      resetTo := max p.resetTo until_ }),
    Act.each hit (fun i => Act.all [noteFail i r.unit r.code, endByAbort i (abortStatus r.unit r.code)]),
    dropPackets pk dead gs, dropTraffic pk gs, layersReset pk gs, wipeGroups pk gs,
    schedule until_ (.ext (.partitionResume pk))] h

/-- A router, or a link with its ends, has failed (R447). -/
def unitFails (pk : Nat) (cls : List Nat) (code : Nat) : Act :=
  partitionReset pk (groupsOf cls) cls { code := code, unitk := 3, unit := 144 * pk + cls.headD 0 }

/-! ### Detected faults (R375, R434, R435) -/

/-- The structure of R391 that a fault site belongs to; `none` where it has a code of its own. -/
def structOf : FaultSite → Option Nat
  | .hbm _ => some 12
  | .word s _ => some s
  | .latch _ _ => none
  | .fetch _ => some 8
  | .landing _ => some 5
  | .snapshot _ _ => some 6
  | .cached _ _ _ _ => some 9
  | .sliceLine _ _ => some 10
  | .sliceSet _ _ => some 11
  | .memSide _ => some 13
  | .store s _ => some s
  | _ => none

/-- The seat of an access; 0 when it is gone. -/
def accSeat (h : Hw) (a : Nat) : Nat := match h.acc? a with | none => 0 | some x => x.seat

/-- The record of a fault of class 7 or of an operation: where it is written and the unit that it names. -/
def siteRec (h : Hw) (site : FaultSite) (code : Nat) : Nat × ErrRec :=
  let atSeat := fun (k : Nat) => (domDie (coreOf k), seatRec h k { code := code, tval := 0, slots := 0 } 0 (h.seat k).pc)
  let atStack := fun (line unitk : Nat) => (4 * pkgOfPa (64 * line) + stackOfPa (64 * line) / 3,
    ({ code := code, unitk := unitk, unit := 12 * pkgOfPa (64 * line) + stackOfPa (64 * line) } : ErrRec))
  let atCluster := fun (cl unitk : Nat) => (4 * (cl / 144) + dieOfCl (cl % 144), ({ code := code, unitk := unitk, unit := cl } : ErrRec))
  match site with
  | .hbm line => atStack line 7
  | .memSide line => atStack line 2
  | .word _ k => atSeat k
  | .latch k _ => atSeat k
  | .fetch k => atSeat k
  | .snapshot k _ => atSeat k
  | .operation _ k => atSeat k
  | .landing a => atSeat (accSeat h a)
  | .decoder a => atSeat (accSeat h a)
  | .frameWrite a => atSeat (accSeat h a)
  | .cached core _ _ _ => (domDie core, { code := code, unit := core })
  | .sliceLine cl _ => atCluster cl 1
  | .sliceSet cl _ => atCluster cl 1
  | .router pk cl => atCluster (144 * pk + cl) 3
  | .store _ i => (4 * (h.inst i).pkg, { code := code, unitk := 6, unit := 4 * (h.inst i).pkg, inst := (h.inst i).num })
  | .engineTable pk key => (4 * pk, { code := code, unitk := 5, unit := 4 * pk, tval := BitVec.ofNat 64 key })
  | .milestone die _ => (die, { code := code, unitk := 6, unit := die })

/-- The fault is recorded. -/
def siteRecord (site : FaultSite) (code : Nat) : Act := fun h => record (siteRec h site code).1 (siteRec h site code).2 h

/-- An instance is aborted for a fault (R434): its seats stop in this ck, so that the form that reads the word writes nothing. -/
def siteAborts (inst unit code : Nat) : Act := endByAbort inst (abortStatus unit code)

/-- The fault is recorded and the instance of a seat aborted. -/
def seatFault (site : FaultSite) (k code : Nat) : Act := Act.all [siteRecord site code,
  Act.look (fun h => Act.when (isPlaced (h.seat k)) (siteAborts (h.seat k).inst (coreOf k) code))]

/-- Drop an entry of a core's cache (R434). -/
def dropCached (core cache i : Nat) : Act := modCore core (fun co =>
  match cache with
  | 0 => { co with tlb := co.tlb.eraseIdx i }
  | 1 => { co with tens := co.tens.eraseIdx i }
  | _ => { co with tabs := co.tabs.eraseIdx i })

/-- The fate of what is uncorrectable (R388 to R393, R409, R413, R429, R430, R434, R435, R443, R447). -/
def siteFails (site : FaultSite) : Act :=
  let code := 0xE1 + 2 * (structOf site).getD 0
  match site with
  | .hbm line => Act.all [setPoison line 12, siteRecord site code]
  | .memSide line => Act.all [setPoison line 13, siteRecord site code]
  | .word _ k => seatFault site k code
  | .latch k b => seatFault site k (0x5A + b % 4)
  | .fetch k => modSeat k (fun s => { s with pendCause := s.pendCause ++
      [{ code := 0x1D, tval := if s.repOn then s.mpc else s.pc, slots := 0, due := 0 }] })
  | .landing a => Act.look (fun h => match h.acc? a with
      | none => Act.nil
      | some x => Act.all [seatFault site x.seat code, killAcc a bitData])
  | .snapshot k i => Act.all [modSeat k (fun s => { s with captured := s.captured.eraseIdx i }), seatFault site k code]
  | .cached core cache i again => Act.all [dropCached core cache i, match again with
      | none => siteRecord site code
      | some k => seatFault site k code]
  | .sliceLine cl line => Act.look (fun h => Act.when (sliceHas h cl line) (Act.all [
      siteRecord site code, Act.when (!h.glob.poison.contains line) (Act.all [setPoison line 10, modCluster cl (fun x => { x with
        slice := SMap.set [] x.slice (line % 8192) ((SMap.get [] x.slice (line % 8192)).map (fun l => if l.line = line then { l with bad := true } else l)) })])]))
  | .sliceSet cl set => Act.look (fun h =>
      let ls := SMap.get [] (h.cluster cl).slice set
      Act.all [
        siteRecord site code, modCluster cl (fun x => { x with slice := SMap.set [] x.slice set [] }), goodAgain ls,
        Act.each (ls.filter (fun l => l.dirty)) (fun l => setPoison l.line 11)])
  | .store _ i => Act.all [siteRecord site code, Act.look (fun h => siteAborts i (4 * (h.inst i).pkg) code)]
  | .decoder a => Act.look (fun h => match h.acc? a with
      | none => Act.nil
      | some x => seatFault site x.seat 0xBC)
  | .frameWrite a => Act.look (fun h => match h.acc? a with
      | none => Act.nil
      | some x => Act.all [killAcc a bitRefused, seatFault site x.seat 0xAE])
  | .operation n k => seatFault site k (0x103 + 4 * n)
  | .engineTable pk key => Act.look (fun h =>
      let code := if h.seats.any (fun s => match s.2.wait with | .lacq m l _ => 1024 * m + l == key | _ => false) then 0xCF else 0xDF
      Act.all [siteRecord site code,
        Act.each (h.insts.filter (fun i => i.2.st == 1 && i.2.models.contains (key / 1024) && i.2.mpkgs.contains pk)) (fun i =>
          siteAborts i.1 (4 * pk) code)])
  | .milestone die i => Act.look (fun h => match (h.die die).wheel[i]? with
      | none => Act.nil
      | some m => Act.all [siteRecord site 0x133, modDie die (fun d => { d with wheel := d.wheel.eraseIdx i }), siteAborts m.inst die 0x133])
  | .router pk cl => unitFails pk [cl] 0x142

/-- What is corrected: the record of class C, and no change of a result or a schedule; parity of the fetch path drops the line, which is
fetched again (R375, R434). -/
def siteCorrected (site : FaultSite) : Act :=
  match structOf site with
  | none => Act.nil
  | some s => siteRecord site (0xE0 + 2 * s)

/-- A line is of HBM (R111). -/
def siteOk : FaultSite → Bool
  | .hbm line => hbmOk (64 * line)
  | .memSide line => hbmOk (64 * line)
  | _ => true

/-- PATROL_SCRUB, and every other detector of R375, at a site: a corrected fault is recorded, an uncorrectable one has its fate (R400, R434,
R435). (DESIGN CHOICE, log 8) -/
def execPatrolScrub (site : FaultSite) (uncorrectable : Bool) (s : State) : Host.Outcome State Fault Refusal :=
  eventAct s (if !siteOk site then Act.nil else if uncorrectable then siteFails site else siteCorrected site)

/-- Has a seat frozen for a unit that did not work been promised its resumption (R444)? -/
def awaitsUnit (s : Seat) : Bool :=
  s.frozen.on && supDefault s.frozen.cause.code == 8 && s.faults.contains (faultKey s s.frozen.cause)

/-- PARTITION_RESUME: once the wipe has ended, and but for dies whose hot spot or power stage does not allow it, the record and
the tables are final and placement goes on; seats that waited for the unit resume (R399, R444, R448, R465). -/
def partitionResumes (pk : Nat) : Act := fun h =>
  let p := h.pkg pk
  let back := p.fenced.filter (fun g => let d := h.die (4 * pk + g % 12 / 3); !d.hot && !d.power)
  if h.glob.now < p.resetTo ∨ back.isEmpty then []
  else
    let rest := p.fenced.filter (fun g => !back.contains g)
    Act.all [
      modPkg pk (fun p => { p with
        fenced := rest, failedRtr := [],
        rtrOff := p.rtrOff ++ p.failedRtr.filter (fun c => !p.rtrOff.contains c),
        tabOff := p.rtrOff ++ (p.failedRtr ++ groupCls (rest.map (fun g => g % 12))).filter (fun c => !p.rtrOff.contains c) }),
      Act.when (!p.failedRtr.isEmpty) (record (4 * pk) { code := 0x1AF, unitk := 3, unit := 144 * pk + p.failedRtr.headD 0 }),
      Act.each ((h.seats.filter (fun s => awaitsUnit s.2)).map (fun s => s.1)) (fun k => Act.all [
        dropEvents (fun e => e == .ext (.resumeCommand k)),
        modSeat k (fun s => { s with faults := s.faults.erase (faultKey s s.frozen.cause) }),
        after 1 (.ext (.resumeCommand k))])] h

def execPartitionResume (pkg : Nat) (s : State) : Host.Outcome State Fault Refusal := eventAct s (partitionResumes pkg)

/-- ROUTER_ACK_TIMEOUT (R447). -/
def execRouterAckTimeout (cluster : Nat) (s : State) : Host.Outcome State Fault Refusal :=
  eventAct s (if s.hw.glob.npkg ≤ cluster / 144 ∨ !rtrWorks (s.hw.pkg (cluster / 144)) (cluster % 144) then Act.nil
    else unitFails (cluster / 144) [cluster % 144] 0x14A)

/-! ### Stehayth links (R339, R460) -/

/-- The instance that a beat belongs to: that of the seat whose access it serves, or of the communicator. -/
def beatInst (h : Hw) (x : Packet) : Option Nat :=
  match h.acc? x.acc with
  | some a => if a.seat = resSeat then none else some (h.seat a.seat).inst
  | none => match (x.out.headD (0, x.deliver)).2 with
    | .event (.chunkArrival m) => some (commAt h m.cluster m.comm).inst
    | .event (.reductionPacketArrival m) => some m.inst
    | .event (.creditGrant cl n _ _ _ _) => some (commAt h cl n).inst
    | .event (.abortNotice cl n _ _ _) => some (commAt h cl n).inst
    | _ => none

/-- The beats on a port's link. -/
def beatsOn (h : Hw) (pk port : Nat) : List Packet := (SMap.get {} (h.pkg pk).links port).fly

/-- A Stehayth link is down: marked in the domain table, its beats lost, every instance with a beat there aborted; what still waits at the
port goes to another of its candidates (R460). (DEDUCED, log 64) -/
def stehaythDown (pk port code : Nat) : Act := fun h =>
  let unit := 36 * pk + port
  let lost := beatsOn h pk port
  let wait := (SMap.get {} (h.pkg pk).links port).q
  Act.all [
    record (4 * pk + port / 9) { code := code, unitk := 3, unit := unit },
    modPkg pk (fun p => { p with linkDown := if p.linkDown.contains port then p.linkDown else p.linkDown ++ [port], links := SMap.erase p.links port }),
    Act.each (uniq (lost.map (fun x => x.acc))) (fun a => killAcc a bitLink),
    Act.each wait (atPort pk),
    Act.each (uniq (lost.filterMap (beatInst h))) (fun i => Act.all [noteFail i unit code, after 1 (.ext (.instanceAbort i (abortStatus unit code)))])] h

/-- STEHAYTH_LINK_FAILURE. -/
def execStehaythLinkFailure (pkg port : Nat) (s : State) : Host.Outcome State Fault Refusal :=
  eventAct s (if s.hw.glob.npkg ≤ pkg ∨ 36 ≤ port then Act.nil else stehaythDown pkg port 0x14E)

/-! ### Control ports -/

/-- A port has lost its link (R353, R461): the owner has 2 s to come back. -/
def portDown (pk port code : Nat) : Act := fun h =>
  let p := h.pkg pk
  if !p.up.contains port then []
  else
    let lapse := h.glob.now + 4500000000
    let mine := p.ownv && p.oport == port
    Act.all [
      record (4 * pk) { code := code, unitk := 8, unit := port },
      modPkg pk (fun p => { p with up := p.up.filter (fun q => q != port), lapseAt := if mine then lapse else p.lapseAt }),
      Act.when mine (schedule lapse (.ownerLapse pk))] h

/-! ### The carry channel (R458) -/

/-- Is a message of the carry channel on the link out of a die? -/
def onCarry (h : Hw) (die : Nat) (ext : Bool) : Event → Bool
  | .carryMessageArrival m => domDie m.core == carryNext h die ext && domDie (coreOf m.src) == die &&
      (ext == (pkgOfCore m.core != die / 4))
  | .blockCarryArrival m => !m.leaves && m.die == carryNext h die ext && (ext == (die % 4 == 3))
  | _ => false

/-- The instance that a carry belongs to. -/
def carryInst (h : Hw) : Event → Option Nat
  | .carryMessageArrival m => some (h.seat m.src).inst
  | .blockCarryArrival m => (tagOwner h m.lpkg m.tag).map (fun t => t.1)
  | _ => none

/-- A carry is lost: it ends its group's rounds, and its instance is aborted under the loss. -/
def carryLost (unit code : Nat) (e : Event) : Act := fun h =>
  Act.all [
    dropEvents (fun x => x == e),
    (match evAcc e with | some a => loseAccess a bitLink | none => Act.nil),
    (match carryInst h e with
      | some i => Act.all [noteFail i unit code, after 1 (.ext (.instanceAbort i (abortStatus unit code)))]
      | none => Act.nil)] h

/-- CARRY_INPUT_LOSS of a package: what was on its external carry input, and the rounds of its die 0 that wait for it. -/
def execCarryInputLoss (pkg : Nat) (s : State) : Host.Outcome State Fault Refusal :=
  eventAct s (Act.look (fun h =>
    let unit := 4 * pkg
    let coming := (h.glob.agenda.map (fun e => e.2)).filter (fun e => match e with
      | .carryMessageArrival m => domDie m.core == unit && pkgOfCore (coreOf m.src) != pkg
      | .blockCarryArrival m => !m.leaves && m.die == unit
      | _ => false)
    let waits := ((h.die unit).rounds.filter (fun r => r.cb.isNone)).filterMap (fun r => (tagOwner h r.lpkg r.tag).map (fun t => t.1))
    if h.glob.npkg ≤ pkg then Act.nil else Act.all [
      record unit { code := 0x18F, unitk := 3, unit := unit },
      modPkg pkg (fun p => { p with carryOff := if p.carryOff.contains 5 then p.carryOff else p.carryOff ++ [5] }),
      Act.each coming (carryLost unit 0x18F),
      Act.each waits (fun i => Act.all [noteFail i unit 0x18F, after 1 (.ext (.instanceAbort i (abortStatus unit 0x18F)))])]))

/-! ### Link retry (R445, R446) -/

/-- One-way time of a link, and the resends that it allows. -/
def linkTime (l : LinkId) : Nat × Nat :=
  match l.kind with
  | .meshHop => (2, 8)
  | .dieBridge => (10, 8)
  | .neighbour => ((match nbrCl (l.unit % 144) l.dir with | some n => if isBridge (l.unit % 144) n then 14 else 6 | none => 6), 8)
  | .stehayth => (800, 16)
  | .lomoamo => (4500, 16)
  | .carryHop => (24, 8)
  | .carryIn => (675, 8)
  | .carryOut => (675, 8)

def kindNo : LinkKind → Nat
  | .meshHop => 0 | .dieBridge => 1 | .neighbour => 2 | .stehayth => 3 | .lomoamo => 4 | .carryHop => 5 | .carryIn => 6 | .carryOut => 7

/-- The package of a link. -/
def linkPkg (l : LinkId) : Nat :=
  match l.kind with
  | .meshHop => l.unit / 144 | .dieBridge => l.unit / 144 | .neighbour => l.unit / 144 | .stehayth => l.unit / 36 | .lomoamo => l.unit / 2
  | .carryHop => l.unit / 4 | .carryIn => l.unit / 4 | .carryOut => l.unit / 4

/-- The package whose external output feeds a package's external carry input (R360). -/
def carryFrom (h : Hw) (pk : Nat) : Nat := ((List.range h.glob.npkg).find? (fun p => (h.pkg p).chain == some pk)).getD pk

/-- Is an event a transfer on a link? Mesh packets stand at routers, beats at their Stehayth port, and control ports hold nothing. -/
def onLink (h : Hw) (l : LinkId) (e : Event) : Bool :=
  match l.kind with
  | .neighbour => (match e with
      | .neighbourMessageArrival m => domCl m.src == l.unit && m.dir == oppDir l.dir
      | _ => false)
  | .carryHop => onCarry h l.unit false e
  | .carryOut => onCarry h l.unit true e
  | .carryIn => onCarry h (4 * carryFrom h (l.unit / 4) + 3) true e
  | _ => false

/-- Packets on a mesh link: they stand at the far router until the ck in which they are there. -/
def linkPackets (h : Hw) (l : LinkId) : List Packet :=
  match nbrCl (l.unit % 144) l.dir with
  | none => []
  | some n => ((h.cluster (144 * (l.unit / 144) + n)).pkts).filter (fun x => x.inDir == oppDir l.dir && decide (h.glob.now < x.ready))

def isMesh (l : LinkId) : Bool := l.kind == .meshHop || l.kind == .dieBridge

/-- From which ck on the copies of a transfer, and all behind it, are on their way; none when the link holds no such transfer. -/
def sentFrom (h : Hw) (l : LinkId) (acc : Nat) : Option Nat :=
  if isMesh l then ((linkPackets h l).find? (fun x => x.acc == acc)).map (fun x => x.ready)
  else if l.kind = .stehayth then ((beatsOn h (l.unit / 36) (l.unit % 36)).find? (fun x => x.acc == acc)).map (fun x => x.ready)
  else (h.glob.agenda.find? (fun e => (evAcc e.2).getD 0 == acc && onLink h l e.2)).map (fun e => e.1)

/-- The packet, and every packet behind it, is sent again 2·L + 4 ck later. (DEDUCED, log 66) -/
def resend (l : LinkId) (t : Nat) : Act := fun h =>
  let d := 2 * (linkTime l).1 + 4
  if isMesh l then
    (match nbrCl (l.unit % 144) l.dir with
      | none => Act.nil
      | some n => modCluster (144 * (l.unit / 144) + n) (fun c => { c with pkts := c.pkts.map (fun (x : Packet) =>
          if x.inDir = oppDir l.dir ∧ h.glob.now < x.ready ∧ t ≤ x.ready then { x with ready := x.ready + d } else x) })) h
  else if l.kind = .stehayth then modPkg (l.unit / 36) (fun p =>
    let k := SMap.get {} p.links (l.unit % 36)
    { p with links := SMap.insert p.links (l.unit % 36) { k with fly := k.fly.map (fun x => if t ≤ x.ready then { x with ready := x.ready + d } else x) } }) h
  else delayEvents d (fun u e => decide (t ≤ u) && onLink h l e) h

/-- Exhaustion of a neighbour link: the message is not delivered, and its sender is charged (R446). (DEDUCED, log 65) -/
def nbrLost (l : LinkId) (e : Event) : Act := fun h =>
  match e with
  | .neighbourMessageArrival m => (match h.acc? m.acc with
      | none => Act.nil
      | some a => Act.all [
          dropEvents (fun x => x == e), loseAccess m.acc bitLink,
          modCluster (domCl m.core) (fun x => { x with nres := x.nres.filter (fun r => r.2.1 != m.acc) }),
          modOwner a.seat (fun s => { s with
            pendCause := s.pendCause ++ [(⟨0x145, BitVec.ofNat 64 (l.dir % 4 + 16 * (m.core % 8 + 8 * m.seat.toNat)), 0, h.coreT (coreOf a.seat)⟩ : Cause)] })]) h
  | _ => []

/-- The link is treated as failed (R446). -/
def exhausted (l : LinkId) (t : Nat) : Act := fun h =>
  let pk := linkPkg l
  let lost := ((h.glob.agenda.filter (fun e => decide (t ≤ e.1) && onLink h l e.2)).map (fun e => e.2))
  let ends := l.unit % 144 :: (match nbrCl (l.unit % 144) l.dir with | some n => [n] | none => [])
  let off := fun (q n : Nat) => modPkg q (fun p => { p with carryOff := if p.carryOff.contains n then p.carryOff else p.carryOff ++ [n] })
  let carry := fun (code q n : Nat) => Act.all [record l.unit { code := code, unitk := 3, unit := l.unit }, off q n, Act.each lost (carryLost l.unit code)]
  match l.kind with
  | .meshHop => unitFails pk ends 0x140 h
  | .dieBridge => unitFails pk ends 0x141 h
  | .neighbour => Act.all [modPkg pk (fun p => { p with nbrOff := p.nbrOff ++ [(l.unit % 144, l.dir)] }), Act.each lost (nbrLost l)] h
  | .stehayth => stehaythDown pk (l.unit % 36) 0x146 h
  | .lomoamo => portDown pk (l.unit % 2) 0x147 h
  | .carryHop => carry 0x18B pk (l.unit % 4) h
  | .carryIn => carry 0x18F pk 5 h
  | .carryOut => carry 0x193 pk 4 h

/-- LINK_RETRY_REQUEST for a transfer on a link: resent, or after the last resend the link is exhausted. A control port holds no
transfer that the model would delay. -/
def execLinkRetryRequest (link : LinkId) (acc : Nat) (s : State) : Host.Outcome State Fault Refusal :=
  eventAct s (Act.look (fun h =>
    let key := 8 * (4 * link.unit + link.dir) + kindNo link.kind
    let r := SMap.get 0 (h.pkg (linkPkg link)).retries key
    let n := if r / 32 = acc then r % 32 else 0
    let put := fun (v : Nat) => modPkg (linkPkg link) (fun p => { p with retries := SMap.set 0 p.retries key v })
    if h.glob.npkg ≤ linkPkg link ∨ 4 ≤ link.dir then Act.nil
    else match (if link.kind = .lomoamo then some h.glob.now else sentFrom h link acc) with
      | none => Act.nil
      | some t => if n < (linkTime link).2 then Act.all [put (32 * acc + n + 1), resend link t] else Act.all [put 0, exhausted link t]))

/-- LINK_TRAINING_LOSS of a mesh hop or a die bridge (R447). -/
def execLinkTrainingLoss (link : LinkId) (s : State) : Host.Outcome State Fault Refusal :=
  eventAct s (match nbrCl (link.unit % 144) link.dir with
    | none => Act.nil
    | some n => if s.hw.glob.npkg ≤ linkPkg link ∨ !isMesh link ∨ 4 ≤ link.dir then Act.nil
      else unitFails (linkPkg link) [link.unit % 144, n] (if isBridge (link.unit % 144) n then 0x149 else 0x148))

/-! ### Temperature and power (R465, R466) -/

/-- Tell the owner of a record that the error ring does not forward (R466). -/
def tellOwner (pk code : Nat) : Act := modPkg pk (fun p => if p.ownv then { p with replies := p.replies ++ [(5, code)] } else p)

/-- TEMPERATURE_WARNING. -/
def execTemperatureWarning (pkg die : Nat) (s : State) : Host.Outcome State Fault Refusal :=
  eventAct s (if s.hw.glob.npkg ≤ pkg ∨ 4 ≤ die then Act.nil else Act.all [
    record (4 * pkg + die) { code := 0x1B0 + die, unitk := 9, unit := 4 * pkg + die }, tellOwner pkg (0x1B0 + die)])

/-- A die's three stack groups are reset as a partition. -/
def dieTrips (pk die code : Nat) : Act :=
  partitionReset pk [3 * die, 3 * die + 1, 3 * die + 2] [] { code := code, unitk := 9, unit := 4 * pk + die }

/-- TEMPERATURE_TRIP. -/
def execTemperatureTrip (pkg die : Nat) (s : State) : Host.Outcome State Fault Refusal :=
  eventAct s (if s.hw.glob.npkg ≤ pkg ∨ 4 ≤ die then Act.nil else Act.all [
    modDie (4 * pkg + die) (fun d => { d with hot := true }), dieTrips pkg die (0x1B4 + die)])

/-- POWER_STAGE_FAULT. -/
def execPowerStageFault (pkg die : Nat) (s : State) : Host.Outcome State Fault Refusal :=
  eventAct s (if s.hw.glob.npkg ≤ pkg ∨ 4 ≤ die then Act.nil else Act.all [
    modDie (4 * pkg + die) (fun d => { d with power := true }), dieTrips pkg die (0x1B8 + die)])

/-- A module event: a record, every instance of the package aborted; while it persists kicks are refused. -/
def moduleEvent (pk code : Nat) : Act := fun h =>
  if h.glob.npkg ≤ pk then [] else Act.all [
    record (4 * pk) { code := code, unitk := 9, unit := pk },
    modPkg pk (fun p => { p with events := if p.events.contains code then p.events else p.events ++ [code] }),
    Act.each (h.insts.filter (fun i => i.2.pkg == pk && decide (i.2.st ≤ 1))) (fun i => Act.all [
      noteFail i.1 pk code, after 1 (.ext (.instanceAbort i.1 (abortStatus pk code)))])] h

def execCoolantFlowLow (pkg : Nat) (s : State) : Host.Outcome State Fault Refusal := eventAct s (moduleEvent pkg 0x1BC)
def execCoolantTemperatureHigh (pkg : Nat) (s : State) : Host.Outcome State Fault Refusal := eventAct s (moduleEvent pkg 0x1BD)
def execInputUndervoltage (pkg : Nat) (s : State) : Host.Outcome State Fault Refusal := eventAct s (moduleEvent pkg 0x1BE)
def execInputOvercurrent (pkg : Nat) (s : State) : Host.Outcome State Fault Refusal := eventAct s (moduleEvent pkg 0x1BF)

/-- MODULE_EVENT_CLEARED: a cause persists no longer. A die whose hot spot is below 90 °C again, or whose power stage is good,
lets its partition resume. (DEDUCED, log 67) -/
def execModuleEventCleared (pkg cause : Nat) (s : State) : Host.Outcome State Fault Refusal :=
  eventAct s (Act.look (fun h =>
    let p := h.pkg pkg
    if h.glob.npkg ≤ pkg then Act.nil else Act.all [
      modPkg pkg (fun p => { p with events := p.events.filter (fun c => c != cause) }),
      Act.when (decide (0x1B4 ≤ cause) && decide (cause < 0x1BC)) (Act.all [
        modDie (4 * pkg + cause % 4) (fun d => if cause < 0x1B8 then { d with hot := false } else { d with power := false }),
        schedule (max p.resetTo (h.glob.now + 1)) (.ext (.partitionResume pkg))])]))

/-- The hardware without a package: what loses its power keeps nothing but its fuses and what self-test finds again. -/
def Hw.without (h : Hw) (pk : Nat) : Hw :=
  let p := h.pkg pk
  { h with
    mem := Memory.drop h.mem (pk * 2 ^ 46) ((pk + 1) * 2 ^ 46),
    seats := SMap.keep h.seats (fun k => pkgOfCore (coreOf k) != pk),
    cores := SMap.keep h.cores (fun c => pkgOfCore c != pk),
    clusters := SMap.keep h.clusters (fun c => c / 144 != pk),
    dies := SMap.keep h.dies (fun d => d / 4 != pk),
    insts := SMap.keep h.insts (fun i => i / 2 ^ 32 != pk),
    accs := h.accs.filter (fun a => a.2.pkg != pk),
    glob := { h.glob with
      agenda := h.glob.agenda.filter (fun e => (evCluster h e.2).map (· / 144) != some pk),
      mcq := SMap.keep h.glob.mcq (fun k => k / 768 != pk), mcWait := SMap.keep h.glob.mcWait (fun k => k / 768 != pk),
      mcAt := SMap.keep h.glob.mcAt (fun k => k / 768 != pk), mcHi := SMap.keep h.glob.mcHi (fun k => k / 768 != pk),
      poison := h.glob.poison.filter (fun l => l / 2 ^ 40 != pk) },
    pkgs := SMap.insert h.pkgs pk {
      coresOff := p.coresOff, rtrOff := p.rtrOff, stkOff := p.stkOff, linkOff := p.linkOff, chain := p.chain, tabOff := p.rtrOff,
      slcOff := p.slcOff, wires := p.wires, life := p.life, keyBad := p.keyBad, off := true } }

/-- What other packages lose with a package: their packets and beats in it, and their accesses under way to its memory. -/
def losesWith (pk : Nat) : Act := Act.look (fun h =>
  let cls := (h.clusters.filter (fun c => c.1 / 144 == pk)).flatMap (fun c => c.2.pkts ++ c.2.inj ++ c.2.held)
  let beats := (h.pkg pk).links.flatMap (fun l => l.2.q ++ l.2.fly)
  let accs := (h.accs.filter (fun a => a.2.pkg != pk && a.2.parts.any (fun p => (p.st == 1 || p.st == 3) && p.pa / 2 ^ 46 == pk))).map (·.1)
  Act.all [Act.each (cls ++ beats) losePkt, Act.each accs (fun a => killAcc a bitReset)])

/-- MODULE_POWER_DOWN: the module is off until a reset. -/
def execModulePowerDown (pkg : Nat) (s : State) : Host.Outcome State Fault Refusal :=
  .next (if s.hw.glob.npkg ≤ pkg then { s with ev := .ext .nop }
    else { hw := (s.hw.run (losesWith pkg)).without pkg, pre := none, cur := {}, ev := .ext .nop })

end Sys2Proof.Machine
end

