-- ==== Sys2Proof/Machine/Device.lean ====
section
/-! DEFINITION. The control ports: ownership (R352, R353, R356, R461, R464), image upload (R355, R462), the register window
(R354, R475), completion reports (R357), time (R358), life cycle and reset (R359, R361), attestation (R362). -/

namespace Sys2Proof.Machine

/-! ### Ownership -/

/-- Is the firmware of a die held (R359, R464)? -/
def anyHeld (h : Hw) (pk : Nat) : Bool := (List.range 4).any (fun d => (h.die (4 * pk + d)).fwHeld)

/-- After a claim the supervisor tells the owner what it reports at the next claim (R466); the records that waited in the rings it
forwards when it next passes them (`passRings`, R461). -/
def forwardWaiting (pk : Nat) : Act := modPkg pk (fun p => { p with replies := p.replies ++ p.later.map (fun c => (5, c)), later := [] })

/-- A cause of R464 is recorded, and reported to the owner at its next claim (R466). -/
def reportLater (pk port code : Nat) : Act := Act.all [
  record (4 * pk) { code := code, unitk := 8, unit := port }, modPkg pk (fun p => { p with later := p.later ++ [code] })]

/-- A node becomes the owner. -/
def ownerIs (pk port node at_ : Nat) : Act := Act.all [
  modPkg pk (fun p => { p with owner := node, ownv := true, oport := port, succv := false, lapseAt := 0, claimAt := at_ }),
  answer pk 1 node, forwardWaiting pk]

/-- Of two claims in one ck the losing one is answered with the winner's node id: the last answer to it names the winner. -/
def answerAgain (loser winner : Nat) (l : List (Nat × Nat)) : List (Nat × Nat) :=
  match l.reverse.findIdx? (· == (1, loser)) with
  | none => l
  | some i => l.set (l.length - 1 - i) (1, winner)

/-- CLAIM (R352, R353): the first valid claim wins; the named successor takes over; of two in one ck the lower node wins. Any
other is answered with the owner. A claim that fails its signature is refused (R464). (DEDUCED, log 68) -/
def execClaim (pkg port node : Nat) (valid : Bool) (s : State) : Host.Outcome State Fault Refusal :=
  eventAct s (Act.look (fun h =>
    let p := h.pkg pkg
    if !portsLive h pkg || anyHeld h pkg || !p.up.contains port || decide (2 ^ 16 ≤ node) then Act.nil
    else if !valid then Act.all [answer pkg 0 0, reportLater pkg port 0x1A9]
    else if !p.ownv then ownerIs pkg port node (h.glob.now + 1)
    else if p.succv && p.succ == node then ownerIs pkg port node 0
    else if p.claimAt = h.glob.now + 1 ∧ port ≠ p.oport ∧ node < p.owner then
      Act.all [modPkg pkg (fun p => { p with replies := answerAgain p.owner node p.replies }), ownerIs pkg port node (h.glob.now + 1)]
    else answer pkg 1 p.owner))

/-- OWNERSHIP_HANDOVER (R353, R356): the owner names its successor. -/
def execOwnershipHandover (pkg node succ : Nat) (s : State) : Host.Outcome State Fault Refusal :=
  eventAct s (Act.look (fun h =>
    if !portsLive h pkg then Act.nil
    else if !isOwner h pkg node then refuseWrite pkg
    else modPkg pkg (fun p => { p with succ := succ % 2 ^ 16, succv := true })))

/-- PORT_LINK_LOSS (R461). -/
def execPortLinkLoss (pkg port : Nat) (s : State) : Host.Outcome State Fault Refusal :=
  eventAct s (if s.hw.glob.npkg ≤ pkg then Act.nil else portDown pkg port 0x1AE)

/-- PORT_LINK_UP (R356): the owner's link stops the count to its lapse. -/
def execPortLinkUp (pkg port : Nat) (s : State) : Host.Outcome State Fault Refusal :=
  eventAct s (Act.look (fun h =>
    if h.glob.npkg ≤ pkg ∨ 2 ≤ port ∨ (h.pkg pkg).up.contains port then Act.nil
    else modPkg pkg (fun p => { p with up := p.up ++ [port], lapseAt := if p.oport = port then 0 else p.lapseAt })))

/-- OWNER_LAPSE (R353, R461): nobody owns the device; instances, images and milestones stay. -/
def lapseAct (pk : Nat) : Act := fun h =>
  let p := h.pkg pk
  if p.lapseAt = 0 ∨ h.glob.now < p.lapseAt ∨ !p.ownv then []
  else Act.all [
    record (4 * pk) { code := 0x1AD, unitk := 8, unit := p.oport },
    modPkg pk (fun p => { p with ownv := false, succv := false, lapseAt := 0 })] h

def execOwnerLapse (s : State) : Host.Outcome State Fault Refusal :=
  match s.ev with
  | .ownerLapse pk => eventAct s (lapseAct pk)
  | _ => eventAct s Act.nil

/-! ### Images (R29, R355, R462) -/

/-- Are the reserved bits of an entry zero, and ROOTN in range? -/
def entryOk (w : Nat → Nat) : Bool :=
  w 0 / 2 ^ 52 == 0 && w 0 % 64 / 2 == 0 && w 1 / 2 ^ 48 == 0 && w 2 / 2 ^ 52 == 0 && w 2 % 64 / 2 ^ 5 == 0 &&
  decide (1 ≤ w 2 % 32) && decide (w 2 % 32 ≤ 26) && (List.range 5).all (fun i => w (3 + i) == 0)

/-- Do the image's bytes lie in one stack of a package? -/
def pagesOk (i : Img) : Bool :=
  hbmOk i.base && decide (0 < i.length) && decide (i.base % 2 ^ 36 + i.length ≤ 48000000000)

/-- The bytes that the checks read: the header and the section descriptors. -/
def headPoison (h : Hw) (base : Nat) : Bool := h.glob.poison.any (fun l => decide (base / 64 ≤ l) && decide (l ≤ (base + 95) / 64))

/-- The cause of an entry that fails its checks; none when it passes. `h` already holds the entry's words. (DEDUCED, log 55) -/
def imgCause (h : Hw) (pk handle : Nat) : Option Nat :=
  let im := SMap.get {} (h.pkg pk).images handle
  if !entryOk (fun i => (SMap.get 0 im.words i).toNat) then some 0x13C
  else if !pagesOk im then some 0x13E
  else if headPoison h im.base then some 0x13F
  else if !imgHeaderOk h pk handle then some 0x13C
  else if !imgSectionsOk h pk handle then some 0x13E
  else none

/-- Does an instance of a handle run? -/
def handleRuns (h : Hw) (pk handle : Nat) : Bool := h.insts.any (fun i => i.2.pkg == pk && i.2.img == handle && i.2.st == 1)

/-- Write doublewords of an image table entry from doubleword w on: with V = 1 the entry is checked. -/
def writeEntry (pk handle w : Nat) (l : List W64) : Act := fun h =>
  let port := (h.pkg pk).oport
  if handleRuns h pk handle then
    Act.all [record (4 * pk) { code := 0x13D, unitk := 8, unit := port }, refuseWrite pk] h
  else Act.all [
    modPkg pk (fun p =>
      let im := SMap.get {} p.images handle
      let ws := (l.zipIdx.filter (fun x => decide (w + x.2 < 8))).foldl (fun m x => SMap.set 0 m (w + x.2) x.1) im.words
      { p with images := SMap.insert p.images handle { words := ws, valid := false } }),
    Act.look (fun h =>
      let im := SMap.get {} (h.pkg pk).images handle
      if !(SMap.get (0 : W64) im.words 0).getLsbD 0 then Act.nil
      else match imgCause h pk handle with
        | some c => record (4 * pk) { code := c, unitk := 8, unit := port }
        | none => modPkg pk (fun p => { p with images := SMap.insert p.images handle { im with valid := true } }))] h

/-- The bytes that a port may write: those of the package's own HBM (R111). -/
def portBytes (pk : Nat) (bytes : List (Nat × Byte)) : List (Nat × Byte) :=
  bytes.filter (fun b => hbmOk b.1 && b.1 / 2 ^ 46 == pk && decide (b.1 < 2 ^ 52))

/-- Bytes that the owner writes through its port, in the order received; a line that is written whole is no longer poisoned (R155, R435). -/
def hostWrite (pk : Nat) (bytes : List (Nat × Byte)) : Act :=
  let l := portBytes pk bytes
  Act.all [writeMem l, modGlob (fun g => { g with
    poison := g.poison.filter (fun n => !(List.range 64).all (fun i => l.any (fun b => b.1 == 64 * n + i))) })]

/-- IMAGE_UPLOAD (R155, R353, R355): the owner writes bytes of an image, its tables or its data, and then, if it gives doublewords, an
entry of the image table. (DEDUCED, log 77) -/
def execImageUpload (pkg node handle : Nat) (bytes : List (Nat × BitVec 8)) (words : List (BitVec 64)) (s : State) :
    Host.Outcome State Fault Refusal :=
  eventAct s (Act.look (fun h =>
    if !portsLive h pkg then Act.nil
    else if !isOwner h pkg node then refuseWrite pkg
    else Act.all [hostWrite pkg bytes, Act.when (!words.isEmpty && decide (handle < 16)) (writeEntry pkg handle 0 words)]))

/-! ### The register window (R354, R356, R475) -/

/-- A write of POOLBASE, or of k and NS: a change that has not completed keeps its other half. -/
def writePool (pk n v : Nat) : Act := fun h =>
  let p := h.pkg pk
  let old := p.poolNew.getD (p.poolBase, p.poolK, p.poolNs)
  if n = 2176 then poolWrite pk v old.2.1 old.2.2 h else poolWrite pk old.1 (v % 16) (field v 30 16) h

/-- A write of a domain table entry lifts the marks of the ports that it names (R460). -/
def writeDomain (pk i : Nat) (v : W64) : Act := modPkg pk (fun p => { p with
  domTab := SMap.set 0 p.domTab i v,
  linkDown := p.linkDown.filter (fun q => i % 2 == 1 || !((List.range 4).any (fun j => v.toNat / 2 ^ (9 * j) % 512 == q))) })

/-- WINDOW_REGISTER_WRITE of doubleword `off`, by the owner or the supervisor firmware. Writes of read-only and unassigned
doublewords, and a kick that is not whole (R31), have no effect. -/
def execWindowRegisterWrite (pkg node off : Nat) (data : BitVec 64) (s : State) : Host.Outcome State Fault Refusal :=
  let v := data.toNat
  eventAct s (Act.look (fun h =>
    if decide (h.glob.npkg ≤ pkg) || (h.pkg pkg).off then Act.nil
    else if node ≠ fwNode ∧ !isOwner h pkg node then refuseWrite pkg
    else if off = 513 then modPkg pkg (fun p => { p with succ := v % 2 ^ 16, succv := data.getLsbD 16 })
    else if 2048 ≤ off ∧ off < 2176 then writeEntry pkg ((off - 2048) / 8) (off % 8) [data]
    else if off = 2176 ∨ off = 2177 then writePool pkg off v
    else if off = 2178 then modPkg pkg (fun p => { p with privBase := v })
    else if off = 2179 then (if v % 2 ^ 7 < field v 14 8 ∧ field v 14 8 ≤ 64 then modPkg pkg (fun p => { p with cl := v % 2 ^ 7, ch := field v 14 8 }) else Act.nil)
    else if 2208 ≤ off ∧ off < 2336 then writeDomain pkg (off - 2208) data
    else if 2432 ≤ off ∧ off < 2496 then modPkg pkg (fun p => { p with
      policy := (List.range 8).foldl (fun m i => SMap.set 0 m (8 * (off - 2432) + i) (v / 2 ^ (8 * i) % 8)) p.policy })
    else Act.nil))

/-- COMPLETION_REPORT_POP (R354, R357): the head goes to the reader; an empty store reads zero. -/
def execCompletionReportPop (pkg : Nat) (s : State) : Host.Outcome State Fault Refusal :=
  eventAct s (Act.look (fun h =>
    let r := (h.pkg pkg).reports.headD (0, 0)
    if decide (h.glob.npkg ≤ pkg) || (h.pkg pkg).off then Act.nil
    else Act.all [modPkg pkg (fun p => { p with reports := p.reports.drop 1 }), answer pkg 2 r.1.toNat, answer pkg 4 r.2.toNat]))

/-! ### Time (R358) -/

/-- PTIME_SYNC over the owner's port. -/
def execPtimeSync (pkg : Nat) (ns : BitVec 64) (s : State) : Host.Outcome State Fault Refusal :=
  eventAct s (Act.look (fun h =>
    let p := h.pkg pkg
    if !portsLive h pkg || !p.ownv || !p.up.contains p.oport then Act.nil
    else Act.all [
      Act.when (p.synced && decide (20 < ((ns.toNat : Int) - h.ptime pkg).natAbs)) (record (4 * pkg) { code := 0x7F, unitk := 6, unit := 4 * pkg }),
      modPkg pkg (fun p => { p with
      ptimeAdd := (ns.toNat : Int) - (h.cycle pkg * Config.ptimeNum / Config.ptimeDen : Nat), synced := true })]))

/-! ### Attestation, life cycle and reset (R359, R361, R362, R464) -/

def lifeNo : Life → Nat
  | .manufacture => 0 | .provisioned => 1 | .deployed => 2 | .returned => 3

/-- A command that a life-cycle state or the identity key does not allow is refused (R394, R464). -/
def refuseLife (pk : Nat) : Act := fun h => Act.all [answer pk 0 0, reportLater pk (h.pkg pk).oport 0x1AC] h

/-- The digest of the firmware that an attestation names: of the running one, or of the image of the lowest die that is held (R464). -/
def firmwareDigest (h : Hw) (pk : Nat) : BitVec 384 :=
  match (List.range 4).find? (fun d => (h.die (4 * pk + d)).fwHeld) with
  | some d => Config.heldFirmware (4 * pk + d)
  | none => Config.firmware

/-- ATTESTATION_REQUEST: the report is signed with the package's key. -/
def execAttestationRequest (pkg : Nat) (nonce : BitVec 384) (s : State) : Host.Outcome State Fault Refusal :=
  eventAct s (Act.look (fun h =>
    let p := h.pkg pkg
    let rec_ := Config.digest ((List.range 512).map (fun n => (windowRead h pkg n).toNat))
    let sig := Config.signature pkg [nonce.toNat, (firmwareDigest h pkg).toNat, rec_.toNat, lifeNo p.life, p.owner]
    if decide (h.glob.npkg ≤ pkg) || p.off then Act.nil
    else if p.keyBad then refuseLife pkg
    else modPkg pkg (fun p => { p with attest := p.attest ++
      [{ nonce := nonce, firmware := firmwareDigest h pkg, record := rec_, life := p.life, owner := p.owner, signature := sig }] })))

/-- A change of the life cycle wipes every memory of the package; the ports take nothing until that has ended (R361). (DEDUCED, log 69) -/
def lifeMoves (pk : Nat) (l : Life) : Act := Act.all [
  Act.each (List.range 4) (fun d => wipeDie (4 * pk + d) true),
  fun h => modPkg pk (fun p => { p with life := l, wipeUntil := h.glob.now + 45000000 }) h]

/-- PROVISIONING_COMMAND, signed by Derius. -/
def execProvisioningCommand (pkg : Nat) (valid : Bool) (s : State) : Host.Outcome State Fault Refusal :=
  eventAct s (Act.look (fun h =>
    let p := h.pkg pkg
    if !portsLive h pkg then Act.nil
    else if !valid then Act.all [answer pkg 0 0, reportLater pkg p.oport 0x1AA]
    else if p.keyBad then refuseLife pkg
    else match p.life with
      | .manufacture => lifeMoves pkg .provisioned
      | .returned => lifeMoves pkg .provisioned
      | _ => refuseLife pkg))

/-- DEPLOYMENT_COMMAND of the owner. -/
def execDeploymentCommand (pkg node : Nat) (s : State) : Host.Outcome State Fault Refusal :=
  eventAct s (Act.look (fun h =>
    if !portsLive h pkg then Act.nil
    else if !isOwner h pkg node then refuseWrite pkg
    else match (h.pkg pkg).life with
      | .provisioned => lifeMoves pkg .deployed
      | _ => refuseLife pkg))

/-- RETURN_COMMAND of the owner. -/
def execReturnCommand (pkg node : Nat) (s : State) : Host.Outcome State Fault Refusal :=
  eventAct s (Act.look (fun h =>
    if !portsLive h pkg then Act.nil
    else if !isOwner h pkg node then refuseWrite pkg
    else match (h.pkg pkg).life with
      | .deployed => lifeMoves pkg .returned
      | _ => refuseLife pkg))

/-- The routers that do not work: a cluster whose slice does not work is harvested as well (R360). -/
def offRouters (f : PartConf) : List Nat := f.rtrOff ++ f.slcOff.filter (fun c => !f.rtrOff.contains c)

/-- What a reset leaves of a package: its life cycle; the configuration record and the key's state are what self-test finds (R359). -/
def freshPkg (p : Pkg) (f : PartConf) : Pkg := {
  coresOff := f.coresOff, rtrOff := offRouters f, stkOff := f.stkOff, linkOff := f.linkOff, chain := f.chain, tabOff := offRouters f,
  slcOff := f.slcOff, wires := f.wires, life := p.life, keyBad := f.keyBad }

/-- A cause of the boot ROM or of self-test: recorded with the system core as its unit, and reported at the next claim (R464, R466). -/
def bootCause (pk die code : Nat) : Act := Act.all [
  record (4 * pk) { code := code, unit := 73728 + die }, modPkg pk (fun p => { p with later := p.later ++ [code] })]

/-- The firmware of dies that fails its verification does not run (0x1A8); a key that fails leaves the package running (0x1AB). -/
def bootChecks (pk : Nat) (f : PartConf) : Act := Act.all [
  Act.each ((List.range 4).filter (fun d => f.held.contains d)) (fun d => Act.all [
    modDie (4 * pk + d) (fun x => { x with fwHeld := true }), bootCause pk (4 * pk + d) 0x1A8]),
  Act.when f.keyBad (bootCause pk (4 * pk) 0x1AB)]

/-- What self-test found of a package before. -/
def confOf (h : Hw) (pk : Nat) : PartConf :=
  let p := h.pkg pk
  { coresOff := p.coresOff, rtrOff := p.rtrOff, stkOff := p.stkOff, linkOff := p.linkOff, slcOff := p.slcOff, wires := p.wires, chain := p.chain, keyBad := p.keyBad
    held := (List.range 4).filter (fun d => (h.die (4 * pk + d)).fwHeld) }

/-- The hardware after a reset of the whole domain: as many packages as there are configurations. -/
def resetAll (h : Hw) (parts : List PartConf) : Hw :=
  let n := max 1 (min 64 parts.length)
  let hw : Hw := {
    pkgs := (List.range n).map (fun p => (p, freshPkg (h.pkg p) (parts.getD p {}))), glob := { npkg := n, free := h.glob.free } }
  hw.run (Act.each (List.range n) (fun p => bootChecks p (parts.getD p {})))

/-- The hardware after a reset of one package, while the others run on: its CYCLE starts at 0 in this ck. -/
def resetOne (h : Hw) (pk : Nat) (f : PartConf) : Hw :=
  let p := h.pkg pk
  ((h.run (losesWith pk)).without pk).run (Act.all [
    modPkg pk (fun _ => { freshPkg p f with cycleBase := h.glob.now }), bootChecks pk f])

/-- RESET (R359, R361, R464) of the domain or of one package: every memory is wiped, CYCLE starts at 0, nobody owns the device; a die whose
firmware fails its verification stays held. The event in flight says what self-test finds; without one it finds what it did before. Free
values are not drawn again. (DESIGN CHOICE, log 9) -/
def execReset (s : State) : Host.Outcome State Fault Refusal :=
  let h := s.hw
  let hw := match s.ev with
    | .reset none l => resetAll h l
    | .reset (some pk) l => if h.glob.npkg ≤ pk then h else resetOne h pk (l.headD (confOf h pk))
    | _ => resetAll h ((List.range h.glob.npkg).map (confOf h))
  .next { hw := hw, pre := none, cur := {}, ev := .ext .nop }

end Sys2Proof.Machine
end

