-- ==== Sys2Proof/Machine/Vector.lean ====
section
/-! DEFINITION. The meanings of the vector slots (R222 to R243): register forms, streams, vector memory, plane
conversion, and what holds a vector form. -/

namespace Sys2Proof.Machine

/-! ### What V.R forms share (R222 to R228) -/

/-- The row of R228 of a form. -/
def vuOf (i : Instr) : VForm :=
  match vform i with
  | some (_, u) => u
  | none => { d := .unused, a := .unused, b := .unused, lat := 1 }

/-- A V.R form's operands as issued. -/
structure VIn where
  c : Ctx
  f : FVR
  u : VForm

def vIn (c : Ctx) (i : Instr) (f : FVR) : VIn := { c := c, f := f, u := vuOf i }

def VIn.x (v : VIn) : VExt := FVR.x v.f
/-- The element width (R224). -/
def VIn.w (v : VIn) : Nat := vrWidth v.f v.u
/-- The rounding mode, to nearest where the form does not round. -/
def VIn.rm (v : VIn) : RM := RM.ofBits (if v.u.rm then v.x.rm else 0)
/-- The lane mask of the K field (R223). -/
def VIn.m (v : VIn) : W64 := v.c.s.kr v.f.k.toNat
/-- The immediate at an element width (R225). -/
def VIn.immAt (v : VIn) (w : Nat) : BitVec 2048 := splat (laneOf w (fun _ => imageNat w v.x.imm.toInt))
def VIn.a (v : VIn) : BitVec 2048 := vOp v.c v.f.a v.c.o2
/-- The B operand: the immediate under IM. -/
def VIn.b (v : VIn) : BitVec 2048 := if v.x.im then v.immAt v.w else vOp v.c v.f.b v.c.o3
/-- D as the third operand. -/
def VIn.d (v : VIn) : BitVec 2048 := vOp v.c v.f.d v.c.o1
/-- A mask operand. -/
def VIn.ka (v : VIn) : W64 := v.c.s.kr (v.f.a.toNat % 8)
def VIn.kb (v : VIn) : W64 := v.c.s.kr (v.f.b.toNat % 8)
/-- The float format of W and BF (R224). -/
def VIn.fmt (v : VIn) : FFmt := if v.w = 16 then (if v.x.sat then bf16 else fp16) else fp32

/-- Operand faults of a V.R form. -/
def VIn.causes (v : VIn) : List Cause :=
  (match v.u.d with
    | .dst => specCauses v.c v.f.d v.c.o1
    | .scalar => specCauses v.c v.f.d 0
    | _ => []) ++
  (if v.u.a = .src ∧ ¬(v.x.im ∧ v.u.b ≠ .src) then specCauses v.c v.f.a v.c.o2 else []) ++
  (if v.u.b = .src ∧ v.x.im = false then specCauses v.c v.f.b v.c.o3 else [])

/-- Registers a V.R form reads. -/
def VIn.reads (v : VIn) : List (Port × Nat) :=
  (if v.u.third then vReads v.f.d v.c.o1 else []) ++
  (match v.u.a with | .src => vReads v.f.a v.c.o2 | .mask => [(.k, v.f.a.toNat % 8)] | _ => []) ++
  (match v.u.b with
    | .src => if v.x.im then [] else vReads v.f.b v.c.o3
    | .mask => [(.k, v.f.b.toNat % 8)]
    | _ => []) ++
  (if v.u.k then [(.k, v.f.k.toNat)] else [])

/-- The unit is held for the occupancy of the form (R227). -/
def holdUnit (c : Ctx) (occ : Nat) : Act := holdPath c (pVec (vUnit c)) occ

/-- A V.R form that writes a vector or o register under a lane mask. -/
def VIn.out (v : VIn) (no32 : Bool) (m : W64) (r : BitVec 2048) : Out :=
  Out.check v.causes
    { act := Act.all [warnBits v.c (vrWarn v.f v.u false no32), holdUnit v.c v.u.occ, wV v.c v.f.d v.c.o1 m r v.u.lat],
      reads := v.reads }

/-- An element form (R229, R230): `g` on the element images. -/
def vElems (c : Ctx) (i : Instr) (f : FVR) (g : VIn → Nat → Nat → Nat → Nat) : Out :=
  let v := vIn c i f
  v.out false v.m (mapElems v.w (g v) v.a v.b (if v.u.third then v.d else 0))

/-- Narrow an exact integer to w bits: wrapping, or saturating under SAT (R229). -/
def VIn.narrow (v : VIn) (x : Int) : Nat :=
  imageNat v.w (if v.x.sat && v.u.sat then clampInt x (-(2 ^ (v.w - 1) : Nat)) ((2 ^ (v.w - 1) : Nat) - 1) else x)

/-- s() of R229. -/
def VIn.s (v : VIn) (x : Nat) : Int := sextNat v.w x

/-! ### VNOP and the integer forms (R228, R229) -/

/-- VNOP: sticky-idle (R164); modifiers of its extension word fall back (R179). -/
def execVnop (ext : Option VExt) (s : State) : Host.Outcome State Fault Refusal :=
  slotOp (.vnop ext) s (fun c =>
    let f : FVR := { d := 0, a := 0, b := 0, k := 0, ext := ext }
    let u : VForm := { d := .unused, a := .unused, b := .unused, k := false, wr := false, lat := 1 }
    Out.ok (warnBits c (vrWarn f u false false)))

/-- VADD (R229). -/
def execVadd (f : FVR) (s : State) : Host.Outcome State Fault Refusal :=
  slotOp (.vadd f) s (fun c => vElems c (.vadd f) f (fun v a b _ => v.narrow (v.s a + v.s b)))

/-- VSUB (R229). -/
def execVsub (f : FVR) (s : State) : Host.Outcome State Fault Refusal :=
  slotOp (.vsub f) s (fun c => vElems c (.vsub f) f (fun v a b _ => v.narrow (v.s a - v.s b)))

/-- VMUL (R229). -/
def execVmul (f : FVR) (s : State) : Host.Outcome State Fault Refusal :=
  slotOp (.vmul f) s (fun c => vElems c (.vmul f) f (fun v a b _ => v.narrow (v.s a * v.s b)))

/-- VMULH (R229). -/
def execVmulh (f : FVR) (s : State) : Host.Outcome State Fault Refusal :=
  slotOp (.vmulh f) s (fun c => vElems c (.vmulh f) f (fun v a b _ => v.narrow (v.s a * v.s b / (2 ^ v.w : Nat))))

/-- VAND (R229). -/
def execVand (f : FVR) (s : State) : Host.Outcome State Fault Refusal :=
  slotOp (.vand f) s (fun c => vElems c (.vand f) f (fun _ a b _ => a &&& b))

/-- VOR (R229). -/
def execVor (f : FVR) (s : State) : Host.Outcome State Fault Refusal :=
  slotOp (.vor f) s (fun c => vElems c (.vor f) f (fun _ a b _ => a ||| b))

/-- VXOR (R229). -/
def execVxor (f : FVR) (s : State) : Host.Outcome State Fault Refusal :=
  slotOp (.vxor f) s (fun c => vElems c (.vxor f) f (fun _ a b _ => a ^^^ b))

/-- VSHL (R229): the count is b modulo the width. -/
def execVshl (f : FVR) (s : State) : Host.Outcome State Fault Refusal :=
  slotOp (.vshl f) s (fun c => vElems c (.vshl f) f (fun v a b _ => v.narrow (v.s a * 2 ^ (b % v.w))))

/-- VSHR (R229). -/
def execVshr (f : FVR) (s : State) : Host.Outcome State Fault Refusal :=
  slotOp (.vshr f) s (fun c => vElems c (.vshr f) f (fun v a b _ => a >>> (b % v.w)))

/-- VSRA (R229). -/
def execVsra (f : FVR) (s : State) : Host.Outcome State Fault Refusal :=
  slotOp (.vsra f) s (fun c => vElems c (.vsra f) f (fun v a b _ => v.narrow (v.s a >>> (b % v.w))))

/-- VMIN (R229). -/
def execVmin (f : FVR) (s : State) : Host.Outcome State Fault Refusal :=
  slotOp (.vmin f) s (fun c => vElems c (.vmin f) f (fun v a b _ => if v.s a < v.s b then a else b))

/-- VMAX (R229). (DEDUCED, log 24) -/
def execVmax (f : FVR) (s : State) : Host.Outcome State Fault Refusal :=
  slotOp (.vmax f) s (fun c => vElems c (.vmax f) f (fun v a b _ => if v.s a < v.s b then b else a))

/-- VABS (R229). -/
def execVabs (f : FVR) (s : State) : Host.Outcome State Fault Refusal :=
  slotOp (.vabs f) s (fun c => vElems c (.vabs f) f (fun v a _ _ => v.narrow (v.s a).natAbs))

/-- VMAD (R229). -/
def execVmad (f : FVR) (s : State) : Host.Outcome State Fault Refusal :=
  slotOp (.vmad f) s (fun c => vElems c (.vmad f) f (fun v a b d => v.narrow (v.s a * v.s b + v.s d)))

/-! ### Float forms (R230) -/

/-- VFADD. -/
def execVfadd (f : FVR) (s : State) : Host.Outcome State Fault Refusal :=
  slotOp (.vfadd f) s (fun c => vElems c (.vfadd f) f (fun v a b _ => v.fmt.add v.rm a b))

/-- VFSUB. -/
def execVfsub (f : FVR) (s : State) : Host.Outcome State Fault Refusal :=
  slotOp (.vfsub f) s (fun c => vElems c (.vfsub f) f (fun v a b _ => v.fmt.sub v.rm a b))

/-- VFMUL. -/
def execVfmul (f : FVR) (s : State) : Host.Outcome State Fault Refusal :=
  slotOp (.vfmul f) s (fun c => vElems c (.vfmul f) f (fun v a b _ => v.fmt.mul v.rm a b))

/-- VFMA: one rounding. -/
def execVfma (f : FVR) (s : State) : Host.Outcome State Fault Refusal :=
  slotOp (.vfma f) s (fun c => vElems c (.vfma f) f (fun v a b d => v.fmt.fma v.rm a b d))

/-- VFMIN (R100). -/
def execVfmin (f : FVR) (s : State) : Host.Outcome State Fault Refusal :=
  slotOp (.vfmin f) s (fun c => vElems c (.vfmin f) f (fun v a b _ => v.fmt.minmax false a b))

/-- VFMAX (R100). -/
def execVfmax (f : FVR) (s : State) : Host.Outcome State Fault Refusal :=
  slotOp (.vfmax f) s (fun c => vElems c (.vfmax f) f (fun v a b _ => v.fmt.minmax true a b))

/-- VFNEG. -/
def execVfneg (f : FVR) (s : State) : Host.Outcome State Fault Refusal :=
  slotOp (.vfneg f) s (fun c => vElems c (.vfneg f) f (fun v a _ _ => v.fmt.negate a))

/-- VFRCP: 1/a, correctly rounded (R101). -/
def execVfrcp (f : FVR) (s : State) : Host.Outcome State Fault Refusal :=
  slotOp (.vfrcp f) s (fun c => vElems c (.vfrcp f) f (fun v a _ _ => v.fmt.divV v.rm (.fin false 1 0) (v.fmt.decode a)))

/-- VFRSQ: 1/√a (R101). -/
def execVfrsq (f : FVR) (s : State) : Host.Outcome State Fault Refusal :=
  slotOp (.vfrsq f) s (fun c => vElems c (.vfrsq f) f (fun v a _ _ => v.fmt.rsqrtV v.rm (v.fmt.decode a)))

/-- VFEXP2 (R101). -/
def execVfexp2 (f : FVR) (s : State) : Host.Outcome State Fault Refusal :=
  slotOp (.vfexp2 f) s (fun c => vElems c (.vfexp2 f) f (fun v a _ _ => v.fmt.exp2V v.rm (v.fmt.decode a)))

/-- VFLOG2 (R101). -/
def execVflog2 (f : FVR) (s : State) : Host.Outcome State Fault Refusal :=
  slotOp (.vflog2 f) s (fun c => vElems c (.vflog2 f) f (fun v a _ _ => v.fmt.log2V v.rm (v.fmt.decode a)))

/-- VFDIV (R101). -/
def execVfdiv (f : FVR) (s : State) : Host.Outcome State Fault Refusal :=
  slotOp (.vfdiv f) s (fun c => vElems c (.vfdiv f) f (fun v a b _ => v.fmt.divV v.rm (v.fmt.decode a) (v.fmt.decode b)))

/-- VFSQRT (R101). -/
def execVfsqrt (f : FVR) (s : State) : Host.Outcome State Fault Refusal :=
  slotOp (.vfsqrt f) s (fun c => vElems c (.vfsqrt f) f (fun v a _ _ => v.fmt.sqrtV v.rm (v.fmt.decode a)))

/-! ### Compares and lane masks (R231, R232) -/

/-- A form that writes the lane mask D[2:0]. -/
def VIn.outK (v : VIn) (r : W64) : Out :=
  Out.check v.causes
    { act := Act.all [warnBits v.c (vrWarn v.f v.u false false), holdUnit v.c v.u.occ, wK v.c (v.f.d.toNat % 8) r v.u.lat],
      reads := v.reads }

/-- The mask of the active lanes on which a comparison holds. -/
def VIn.cmpMask (v : VIn) (p : Nat → Nat → Bool) : W64 :=
  let a := v.a; let b := v.b; let m := v.m
  BitVec.ofNat 64 (bitsOf 64 (fun n => m.getLsbD n && p (lane a n) (lane b n)))

/-- The integer conditions (R231). -/
def intCc (cc a b : Nat) : Bool :=
  let x := sextNat 32 a; let y := sextNat 32 b
  match cc with
  | 0 => a == b
  | 1 => a != b
  | 2 => decide (x < y)
  | 3 => decide (x ≤ y)
  | 4 => decide (y < x)
  | 5 => decide (y ≤ x)
  | 6 => decide (a < b)
  | _ => decide (b ≤ a)

/-- The float conditions (R231). -/
def fltCc (cc : Nat) (o : Option Ordering) : Bool :=
  match cc with
  | 0 => o == some .eq
  | 1 => o != some .eq
  | 2 => o == some .lt
  | 3 => o == some .lt || o == some .eq
  | 4 => o == some .gt
  | 5 => o == some .gt || o == some .eq
  | 6 => o.isNone
  | _ => o.isSome

/-- VCMP (R231). -/
def execVcmp (f : FVR) (s : State) : Host.Outcome State Fault Refusal :=
  slotOp (.vcmp f) s (fun c => let v := vIn c (.vcmp f) f; v.outK (v.cmpMask (intCc v.x.cc.toNat)))

/-- VFCMP (R231). -/
def execVfcmp (f : FVR) (s : State) : Host.Outcome State Fault Refusal :=
  slotOp (.vfcmp f) s (fun c => let v := vIn c (.vfcmp f) f
    v.outK (v.cmpMask (fun a b => fltCc v.x.cc.toNat (FVal.cmp (fp32.decode a) (fp32.decode b)))))

/-- KAND (R232). -/
def execKand (f : FVR) (s : State) : Host.Outcome State Fault Refusal :=
  slotOp (.kand f) s (fun c => let v := vIn c (.kand f) f; v.outK (v.ka &&& v.kb))

/-- KOR (R232). -/
def execKor (f : FVR) (s : State) : Host.Outcome State Fault Refusal :=
  slotOp (.kor f) s (fun c => let v := vIn c (.kor f) f; v.outK (v.ka ||| v.kb))

/-- KXOR (R232). -/
def execKxor (f : FVR) (s : State) : Host.Outcome State Fault Refusal :=
  slotOp (.kxor f) s (fun c => let v := vIn c (.kxor f) f; v.outK (v.ka ^^^ v.kb))

/-- KNOT (R232). -/
def execKnot (f : FVR) (s : State) : Host.Outcome State Fault Refusal :=
  slotOp (.knot f) s (fun c => let v := vIn c (.knot f) f; v.outK (~~~v.ka))

/-- KPOPC (R232). -/
def execKpopc (f : FVR) (s : State) : Host.Outcome State Fault Refusal :=
  slotOp (.kpopc f) s (fun c => let v := vIn c (.kpopc f) f
    v.out false allLanes (splat ((List.range 64).filter (fun n => v.ka.getLsbD n)).length))

/-- VSELK (R232): K selects, and masks nothing. -/
def execVselk (f : FVR) (s : State) : Host.Outcome State Fault Refusal :=
  slotOp (.vselk f) s (fun c => let v := vIn c (.vselk f) f; v.out false allLanes (mergeLanes v.m v.a v.b))

/-! ### Conversion and packing (R233 to R235) -/

/-- The conversions of R233 on one lane. -/
def convLane (code : Nat) (rm : RM) (x : Nat) : Nat :=
  let v := fp32.decode x
  match code with
  | 0 => fp32.ofInt rm (sextNat 32 x)
  | 1 => fp32.ofInt rm x
  | 2 => imageNat 32 (v.toInt rm (-(2 ^ 31 : Nat)) (2 ^ 31 - 1))
  | 3 => imageNat 32 (v.toInt rm 0 (2 ^ 32 - 1))
  | 4 => fp32.convert fp16 rm x
  | 5 => fp32.convert bf16 rm x
  | 6 => fp32.convert fp8e4 rm x
  | 7 => fp32.convert fp8e5 rm x
  | 8 => fp16.convert fp32 rm (x % 2 ^ 16)
  | 9 => bf16.convert fp32 rm (x % 2 ^ 16)
  | 10 => fp8e4.convert fp32 rm (x % 2 ^ 8)
  | 11 => fp8e5.convert fp32 rm (x % 2 ^ 8)
  | 12 => imageNat 32 (v.toInt rm (-(2 ^ 15 : Nat)) (2 ^ 15 - 1))
  | _ => imageNat 32 (v.toInt rm (-(2 ^ 7 : Nat)) (2 ^ 7 - 1))

/-- VCVT (R233). -/
def execVcvt (f : FVR) (s : State) : Host.Outcome State Fault Refusal :=
  slotOp (.vcvt f) s (fun c => let v := vIn c (.vcvt f) f
    let a := v.a
    v.out false v.m (ofLanes (fun n => convLane f.b.toNat v.rm (lane a n))))

/-- The lane that VPACK gathers at n from the low w bits of lanes of A and B (R234). -/
def packLane (w : Nat) (a b d : BitVec 2048) (n : Nat) : Nat :=
  let q := 32 / w
  let h := 64 / q
  if n < h then laneOf w (fun e => lane a (q * n + e))
  else if n < 2 * h then laneOf w (fun e => lane b (q * (n - h) + e))
  else lane d n

/-- VPACK (R234); at 32 bits it copies A. -/
def execVpack (f : FVR) (s : State) : Host.Outcome State Fault Refusal :=
  slotOp (.vpack f) s (fun c => let v := vIn c (.vpack f) f
    let a := v.a; let b := v.b; let d := v.d
    v.out true v.m (if v.w = 32 then a else ofLanes (packLane v.w a b d)))

/-- The lane that VUNPACK writes at n (R235). -/
def unpackLane (w code : Nat) (a : BitVec 2048) (n : Nat) : Nat :=
  let q := 32 / w
  let e := 64 * (code % q) + n
  let x := elemOf w (lane a (e / q)) (e % q)
  if code.testBit (Nat.log2 q) then x else imageNat 32 (sextNat w x)

/-- VUNPACK (R235); at 32 bits it copies A. -/
def execVunpack (f : FVR) (s : State) : Host.Outcome State Fault Refusal :=
  slotOp (.vunpack f) s (fun c => let v := vIn c (.vunpack f) f
    let a := v.a
    v.out true v.m (if v.w = 32 then a else ofLanes (unpackLane v.w f.b.toNat a)))

/-! ### Permutes (R236) -/

/-- VSHUF. -/
def execVshuf (f : FVR) (s : State) : Host.Outcome State Fault Refusal :=
  slotOp (.vshuf f) s (fun c => let v := vIn c (.vshuf f) f
    let a := v.a; let b := v.b
    v.out false v.m (ofLanes (fun n => lane a (lane b n % 64))))

/-- The lane selector of VBCAST and VEXT. -/
def VIn.sel (v : VIn) : Nat := lane v.b 0 % 64

/-- VBCAST. -/
def execVbcast (f : FVR) (s : State) : Host.Outcome State Fault Refusal :=
  slotOp (.vbcast f) s (fun c => let v := vIn c (.vbcast f) f; v.out false v.m (splat (lane v.a v.sel)))

/-- VSLIDE. -/
def execVslide (f : FVR) (s : State) : Host.Outcome State Fault Refusal :=
  slotOp (.vslide f) s (fun c => let v := vIn c (.vslide f) f
    let a := v.a
    let n0 := sextNat 32 (lane v.b 0)
    v.out false v.m (ofLanes (fun n =>
      let j := (n : Int) + n0
      if 0 ≤ j ∧ j < 64 then lane a j.toNat else 0)))

/-! ### Lane reductions (R103, R237) -/

/-- A reduction along the tree of R103, its result in every element of every lane. -/
def vReduce (c : Ctx) (i : Instr) (f : FVR) (ident : VIn → Nat) (op : VIn → Nat → Nat → Nat) : Out :=
  let v := vIn c i f
  let r := (treeFold (op v) 9 (elemList v.w v.m v.a)).getD (ident v)
  v.out false allLanes (splat (laneOf v.w (fun _ => r)))

/-- VRADD. -/
def execVradd (f : FVR) (s : State) : Host.Outcome State Fault Refusal :=
  slotOp (.vradd f) s (fun c => vReduce c (.vradd f) f (fun _ => 0) (fun v a b => v.narrow (v.s a + v.s b)))

/-- VRMAX. -/
def execVrmax (f : FVR) (s : State) : Host.Outcome State Fault Refusal :=
  slotOp (.vrmax f) s (fun c => vReduce c (.vrmax f) f (fun v => 2 ^ (v.w - 1)) (fun v a b => if v.s a < v.s b then b else a))

/-- VRMIN. -/
def execVrmin (f : FVR) (s : State) : Host.Outcome State Fault Refusal :=
  slotOp (.vrmin f) s (fun c => vReduce c (.vrmin f) f (fun v => 2 ^ (v.w - 1) - 1) (fun v a b => if v.s b < v.s a then b else a))

/-- VRFADD. -/
def execVrfadd (f : FVR) (s : State) : Host.Outcome State Fault Refusal :=
  slotOp (.vrfadd f) s (fun c => vReduce c (.vrfadd f) f (fun _ => 0) (fun v a b => v.fmt.add v.rm a b))

/-! ### Conditional streams (R238) -/

/-- The records of a stream of a seat, oldest first. -/
def Seat.stream (s : Seat) (n : Nat) : List W32 := SMap.get [] s.streams n
def Seat.setStream (s : Seat) (n : Nat) (l : List W32) : Seat := { s with streams := SMap.set [] s.streams n l }

/-- VPUSHC. The count is what earlier operations of the seat leave, V0's of the same ck included (R408). -/
def execVpushc (f : FVR) (s : State) : Host.Outcome State Fault Refusal :=
  slotOp (.vpushc f) s (fun c =>
    let v := vIn c (.vpushc f) f
    let q := f.b.toNat % 4
    let a := v.a
    let old := (s.hw.seat c.k).stream q
    let new := ((List.range 64).filter (fun n => v.m.getLsbD n)).map (fun n => BitVec.ofNat 32 (lane a n))
    let count := (SMap.find s.cur.counts q).getD old.length
    Out.check (v.causes ++ (if 512 < count + new.length then [operandFault c.sl 3 (count + q * 2 ^ 16)] else []))
      { issue := fun i => { i with counts := SMap.insert i.counts q (count + new.length) }
        act := Act.all [warnBits c (vrWarn f v.u false false), holdUnit c 1, modSeat c.k (fun s => s.setStream q (old ++ new))],
        reads := v.reads })

/-- VPOPC: the popped lanes to D and the fill predicate to mask K, at c+3. (DEDUCED, log 27) -/
def execVpopc (f : FVR) (s : State) : Host.Outcome State Fault Refusal :=
  slotOp (.vpopc f) s (fun c =>
    let v := vIn c (.vpopc f) f
    let q := f.b.toNat % 4
    let old := (s.hw.seat c.k).stream q
    let n := min 64 old.length
    let fill := BitVec.ofNat 64 (2 ^ n - 1)
    let r := ofLanes (fun i => (old.getD i 0).toNat)
    Out.check v.causes
      { issue := fun i => { i with counts := SMap.insert i.counts q (old.length - n) }
        act := Act.all [warnBits c (vrWarn f v.u false false), holdUnit c 1,
          modSeat c.k (fun s => (s.setStream q (old.drop n)).addPend
            { port := if f.d.toNat < 64 then .v else .o, reg := if f.d.toNat < 64 then (stepSpec f.d c.o1).toNat else f.d.toNat - 64,
              val := r, lmask := fill, yu := some (vUnit c), due := c.t + v.u.lat, order := c.order, load := 3 }),
          wK c f.k.toNat fill v.u.lat] })

/-- VREBAL: fill stream B[1:0] to a multiple of 64 from stream B[3:2]. -/
def execVrebal (f : FVR) (s : State) : Host.Outcome State Fault Refusal :=
  slotOp (.vrebal f) s (fun c =>
    let v := vIn c (.vrebal f) f
    let a := f.b.toNat % 4; let b := f.b.toNat / 4 % 4
    let sa := (s.hw.seat c.k).stream a; let sb := (s.hw.seat c.k).stream b
    let n := min ((64 - sa.length % 64) % 64) sb.length
    Out.ok (Act.all [warnBits c (vrWarn f v.u false false), holdUnit c 1,
      Act.when (a != b) (modSeat c.k (fun s => (s.setStream a (sa ++ sb.take n)).setStream b (sb.drop n)))]))

/-- VSCNT: the count after the operations issued before it. -/
def execVscnt (f : FVR) (s : State) : Host.Outcome State Fault Refusal :=
  slotOp (.vscnt f) s (fun c => let v := vIn c (.vscnt f) f
    v.out false allLanes (splat ((s.hw.seat c.k).stream (f.b.toNat % 4)).length))

/-! ### Vector memory (R239 to R241) -/

/-- Fields of V.M. -/
def vmOff (f : FVM) : Int := match f.ext with | none => 0 | some x => x.off.toInt
def vmLand (f : FVM) : Nat := match f.ext with | none => 0 | some x => x.land.toNat

/-- Faults of the data and index registers and the base register. -/
def vmCauses (c : Ctx) (f : FVM) (idx : Bool) : List Cause :=
  specCauses c f.v 0 ++ (if idx then specCauses c f.vi 0 else []) ++ xLim c [f.a]

/-- The active lanes of K. -/
def actives (m : W64) : List Nat := (List.range 64).filter (fun n => m.getLsbD n)

/-- The addresses of the active lanes: base + 4n, or base + zext(vI lane n), modulo 2^bits (no wrap for bits = 0). -/
def laneAddrs (c : Ctx) (f : FVM) (idx : Bool) (base bits : Nat) : List (Nat × Nat) :=
  let v := if idx then vOp c f.vi 0 else 0
  (actives (c.s.kr f.k.toNat)).map (fun n =>
    let a := base + (if idx then lane v n else 4 * n)
    (n, if bits = 0 then a else a % 2 ^ bits))

/-- Misaligned flat addresses: an operand fault with the address (R239, R406). -/
def misFlat (c : Ctx) (base : Nat) (l : List (Nat × Nat)) : List Cause :=
  if base % 4 ≠ 0 then [operandFault c.sl 2 base]
  else match l.find? (fun e => e.2 % 4 != 0) with
    | none => []
    | some e => [operandFault c.sl 2 e.2]

/-- The lines of some lane addresses, in order of first use. -/
def linesOf (l : List (Nat × Nat)) : List Nat :=
  (l.foldl (fun acc e => if acc.contains (e.2 / 64) then acc else (e.2 / 64) :: acc) []).reverse

/-- One part per line: from its lowest to its highest active word; with the lanes' offsets in the data (R239). -/
def vecParts : List Nat → List (Nat × Nat) → Nat → List Part × List (Nat × Nat)
  | [], _, _ => ([], [])
  | ln :: r, l, off =>
    let mine := l.filter (fun e => e.2 / 64 == ln)
    let lo := mine.foldl (fun a e => min a e.2) (64 * ln + 63)
    let hi := mine.foldl (fun a e => max a (e.2 + 4)) 0
    let p := vecParts r l (off + (hi - lo))
    ({ va := lo, off := off, len := hi - lo } :: p.1, mine.map (fun e => (e.1, off + (e.2 - lo))) ++ p.2)

/-- The bytes that a store writes under one part; a higher lane wins (R239). -/
def vecBytes (v : BitVec 2048) (p : Part) (l : List (Nat × Nat)) : List (Nat × Byte) :=
  (l.filter (fun e => e.2 / 64 == p.va / 64)).foldl (fun m e =>
    (leBytes 4 (lane v e.1)).zipIdx.foldl (fun m b => SMap.insert m (e.2 - p.va + b.2) b.1) m) []

/-- The cause of cached leaves without the permission, TVAL the lowest lane address (R423). -/
def vecFlat (c : Ctx) (cls : Nat) (wr : Bool) (parts : List Part) : List Cause :=
  match flatCauses c.co c.s.img cls wr c.sl parts with
  | [] => []
  | x :: r => [r.foldl (fun b y => if y.tval.toNat < b.tval.toNat then y else b) x]

/-- A flat vector load; a gather holds its unit for 4 ck. -/
def vloadFlat (c : Ctx) (f : FVM) (idx : Bool) : Out :=
  let base := addr56 (xOp c f.a) (vmOff f)
  let l := laneAddrs c f idx base 56
  let p := vecParts (linesOf l) l 0
  let m := c.s.kr f.k.toNat
  let cls := if idx then 7 else 5
  let due := c.t + landOf c.s.lddef (vmLand f)
  let pend : Pend := { port := .v, reg := f.v.toNat, val := 0, lmask := m, yu := some (vUnit c), due := due, order := c.order, load := 2 }
  let a : Access := { seat := c.k, kind := .vload c.order p.2, img := c.s.img, cls := cls, bypass := f.bypass, parts := p.1 }
  Out.check (vmCauses c f idx ++ misFlat c base l ++ vecFlat c cls false p.1)
    { act := Act.all [holdUnit c (if idx then 4 else 1),
        if p.1.isEmpty then modSeat c.k (fun s => s.addPend pend)
        else withId (fun id => Act.all [modSeat c.k (fun s => s.addPend { pend with acc := some id }), startFlat c.k a id])],
      reads := (if idx then vReads f.vi 0 else []) ++ xReads [f.a] ++ [(.k, f.k.toNat)] }

/-- A flat vector store; a scatter holds its unit for 4 ck. BY and LAND are ignored (R179). -/
def vstoreFlat (c : Ctx) (f : FVM) (idx : Bool) : Out :=
  let base := addr56 (xOp c f.a) (vmOff f)
  let l := laneAddrs c f idx base 56
  let p := vecParts (linesOf l) l 0
  let v := vOp c f.v 0
  let cls := if idx then 7 else 6
  let parts := p.1.map (fun q => { q with wdata := vecBytes v q l })
  let a : Access := { seat := c.k, kind := .vstore, img := c.s.img, cls := cls, parts := parts }
  Out.check (vmCauses c f idx ++ misFlat c base l ++ vecFlat c cls true p.1)
    { act := Act.all [warnBits c (warnIf (f.bypass || vmLand f != 0) wMisc), holdUnit c (if idx then 4 else 1),
        Act.when (!p.1.isEmpty) (withId (fun id => startFlat c.k a id))],
      reads := vReads f.v 0 ++ (if idx then vReads f.vi 0 else []) ++ xReads [f.a] ++ [(.k, f.k.toNat)] }

/-- The tile-store base address (R240). -/
def tsBase (c : Ctx) (f : FVM) : Nat := imageNat 20 ((xOp c f.a % 2 ^ 20 : Nat) + vmOff f)

/-- Faults of tile-store addresses: outside 0 to 2^20 − 1 or misaligned (reason 2), outside the window (reason 1). -/
def tsCauses (c : Ctx) (base : Nat) (l : List (Nat × Nat)) : List Cause :=
  if base % 4 ≠ 0 then [operandFault c.sl 2 base]
  else match l.find? (fun e => e.2 % 4 != 0 || decide (2 ^ 20 ≤ e.2)) with
    | some e => [operandFault c.sl 2 e.2]
    | none => match l.find? (fun e => decide (c.s.lrec.gn ≤ e.2 / 4096)) with
      | some e => [operandFault c.sl 1 (e.2 / 4096)]
      | none => stageCauses c (l.map (fun e => phys c .gran (e.2 / 4096)))

/-- The tile word that holds a tile-store address of the seat. -/
def tsWord (c : Ctx) (a : Nat) : Nat := 512 * phys c .gran (a / 4096) + a % 4096 / 8

/-- A 4-byte word of the tile store. -/
def tsRead (c : Ctx) (a : Nat) : Nat := (SMap.get 0 c.co.tile (tsWord c a)).toNat / 2 ^ (8 * (a % 8)) % 2 ^ 32

/-- The physical granules of some addresses. -/
def tsGrans (c : Ctx) (l : List (Nat × Nat)) : List Nat :=
  l.foldl (fun acc e => let g := phys c .gran (e.2 / 4096); if acc.contains g then acc else acc ++ [g]) []

/-- Write 4-byte words in order, a later one on top. -/
def tsWrite (c : Ctx) (l : List (Nat × Nat)) : Act := fun h =>
  let co := h.core c.core
  writeTile c.core (l.foldl (fun (m : List (Nat × W64)) e =>
    let w := tsWord c e.1
    let old := (match SMap.find m w with | some x => x | none => SMap.get 0 co.tile w).toNat
    let sh := 8 * (e.1 % 8)
    let cur := old / 2 ^ sh % 2 ^ 32
    SMap.insert m w (BitVec.ofNat 64 (old - cur * 2 ^ sh + e.2 * 2 ^ sh))) []) h

/-- The bank requests of a vector form from core time `from_` on: `occ` of them, with the banks in `masks` in turn; what a lost one moves. -/
def vecBanks (c : Ctx) (occ from_ : Nat) (masks : List Nat) (rd wr : List (Nat × Nat)) : Act := useBanks c.core {
  cls := 4, sub := vUnit c, seat := isSeat1 c.k, next := from_, left := occ, masks := masks, rd := rd, wr := wr,
  path := [(pVec (vUnit c), c.t + occ)], order := some c.order }

/-- Those of a load or store of words: all at once, or the words of 16 lanes in each ck (R240). -/
def tsBanks (c : Ctx) (l : List (Nat × Nat)) (occ from_ : Nat) (rd wr : List (Nat × Nat)) : Act :=
  vecBanks c occ from_ ((List.range occ).map (fun j => banksOf ((l.filter (fun e => occ == 1 || e.1 / 16 == j)).map (·.2)))) rd wr

/-- A tile-store vector load: VD in c+3, a gather in c+5 (R240). -/
def vloadTs (c : Ctx) (f : FVM) (idx : Bool) : Out :=
  let base := tsBase c f
  let l := laneAddrs c f idx base (if idx then 20 else 0)
  let occ := if idx then 4 else 1
  let r := ofLanes (fun n => match l.find? (fun e => e.1 == n) with | none => 0 | some e => tsRead c e.2)
  Out.check (vmCauses c f idx ++ tsCauses c base l)
    { act := Act.all [warnBits c (warnIf (vmLand f != 0) wMisc), holdUnit c occ,
        markRd c.core (c.t + occ) ((tsGrans c l).map itGran),
        tsBanks c l occ c.t (marks (c.t + occ) ((tsGrans c l).map itGran)) [],
        wV c f.v 0 (c.s.kr f.k.toNat) r (if idx then 5 else 3)],
      reads := (if idx then vReads f.vi 0 else []) ++ xReads [f.a] ++ [(.k, f.k.toNat)] }

/-- A tile-store vector store: written in c+1, a scatter in c+1 to c+4 (R240). -/
def vstoreTs (c : Ctx) (f : FVM) (idx : Bool) : Out :=
  let base := tsBase c f
  let l := laneAddrs c f idx base (if idx then 20 else 0)
  let occ := if idx then 4 else 1
  let v := vOp c f.v 0
  Out.check (vmCauses c f idx ++ tsCauses c base l)
    { act := Act.all [warnBits c (warnIf (vmLand f != 0) wMisc), holdUnit c occ,
        markWr c.core (c.t + occ) ((tsGrans c l).map itGran),
        tsBanks c l occ (c.t + 1) [] (marks (c.t + occ + 1) ((tsGrans c l).map itGran)),
        tsWrite c (l.map (fun e => (e.2, lane v e.1)))],
      reads := vReads f.v 0 ++ (if idx then vReads f.vi 0 else []) ++ xReads [f.a] ++ [(.k, f.k.toNat)] }

/-- Faults of a sidecar address: misaligned (reason 2), outside the window (reason 1) (R241). -/
def scCauses (c : Ctx) (base : Nat) : List Cause :=
  if base % 4096 ≠ 0 then [operandFault c.sl 2 base] else granCauses c (base / 4096 : Nat) 1

/-- VLD flat (R239). -/
def execVld (f : FVM) (s : State) : Host.Outcome State Fault Refusal := slotOp (.vld f) s (fun c => vloadFlat c f false)

/-- VLD from the tile store (R240). -/
def execVldTs (f : FVM) (s : State) : Host.Outcome State Fault Refusal := slotOp (.vldTs f) s (fun c => vloadTs c f false)

/-- VLD of a sidecar word to lanes 0 and 1 (R241). -/
def execVldSc (f : FVM) (s : State) : Host.Outcome State Fault Refusal :=
  slotOp (.vldSc f) s (fun c =>
    let base := tsBase c f
    let g := phys c .gran (base / 4096)
    Out.check (vmCauses c f false ++ scCauses c base)
      { act := Act.all [warnBits c (warnIf (vmLand f != 0) wMisc), holdUnit c 1, markRd c.core (c.t + 1) [itGran g],
          wV c f.v 0 allLanes (BitVec.ofNat 2048 (SMap.get 0 c.co.side g).toNat) 3],
        reads := xReads [f.a] })

/-- VST flat (R239). -/
def execVst (f : FVM) (s : State) : Host.Outcome State Fault Refusal := slotOp (.vst f) s (fun c => vstoreFlat c f false)

/-- VST to the tile store (R240). -/
def execVstTs (f : FVM) (s : State) : Host.Outcome State Fault Refusal := slotOp (.vstTs f) s (fun c => vstoreTs c f false)

/-- VST of lanes 0 and 1 to a sidecar word (R241). -/
def execVstSc (f : FVM) (s : State) : Host.Outcome State Fault Refusal :=
  slotOp (.vstSc f) s (fun c =>
    let base := tsBase c f
    let g := phys c .gran (base / 4096)
    Out.check (vmCauses c f false ++ scCauses c base)
      { act := Act.all [warnBits c (warnIf (vmLand f != 0) wMisc), holdUnit c 1, markWr c.core (c.t + 1) [itGran g],
          writeSide c.core g (oOf (vOp c f.v 0))],
        reads := vReads f.v 0 ++ xReads [f.a] })

/-- VLDG flat (R239). -/
def execVldg (f : FVM) (s : State) : Host.Outcome State Fault Refusal := slotOp (.vldg f) s (fun c => vloadFlat c f true)

/-- VLDG from the tile store (R240). -/
def execVldgTs (f : FVM) (s : State) : Host.Outcome State Fault Refusal := slotOp (.vldgTs f) s (fun c => vloadTs c f true)

/-- VSTS flat (R239). -/
def execVsts (f : FVM) (s : State) : Host.Outcome State Fault Refusal := slotOp (.vsts f) s (fun c => vstoreFlat c f true)

/-- VSTS to the tile store (R240). -/
def execVstsTs (f : FVM) (s : State) : Host.Outcome State Fault Refusal := slotOp (.vstsTs f) s (fun c => vstoreTs c f true)

/-! ### Plane conversion (R242) -/

/-- Faults of a plane form: address a multiple of 8, the image inside 0 to 2^20 − 1 and the window. -/
def planeCauses (c : Ctx) (b base bytes : Nat) : List Cause :=
  if b % 8 ≠ 0 ∨ 2 ^ 20 < base + bytes then [operandFault c.sl 2 b]
  else granCauses c (base / 4096 : Nat) ((base + bytes - 1) / 4096 - base / 4096 + 1)

/-- The physical granules of the plane words of a row at b. -/
def planeGrans (c : Ctx) (b planes : Nat) : List Nat :=
  tsGrans c ((List.range planes).map (fun p => (p, b + 512 * p)))

/-- The element image that VPLANE takes from a lane. -/
def laneImage (fmt planes x : Nat) : Nat :=
  if fmt = 0 then (if x % 2 ^ 32 = 0 then 0 else if x.testBit 31 then 3 else 1) else x % 2 ^ planes

/-- VPLANE: one tile row from the lanes of VS. -/
def execVplane (f : FVM) (s : State) : Host.Outcome State Fault Refusal :=
  slotOp (.vplane f) s (fun c =>
    let fmt := f.vi.toNat % 16
    let np := fmtPlanes fmt
    let b := tsBase c f
    let base := b - 8 * (b / 8 % 64)
    let v := vOp c f.v 0
    let m := c.s.kr f.k.toNat
    let occ := ceilDiv np 8
    Out.check (vmCauses c f false ++ planeCauses c b base (512 * np))
      { act := Act.all [holdUnit c occ, markWr c.core (c.t + occ) ((planeGrans c b np).map itGran),
          vecBanks c occ (c.t + 1) [banksOf [b]] [] (marks (c.t + occ + 1) ((planeGrans c b np).map itGran)),
          fun h => writeTile c.core ((List.range np).map (fun p =>
            let w := tsWord c (b + 512 * p)
            let old := SMap.get 0 (h.core c.core).tile w
            (w, BitVec.ofNat 64 (bitsOf 64 (fun n =>
              if m.getLsbD n then (laneImage fmt np (lane v n)).testBit (np - 1 - p) else old.getLsbD n))))) h],
        reads := vReads f.v 0 ++ xReads [f.a] ++ [(.k, f.k.toNat)] })

/-- The lane that VDEPLANE writes for an element image. -/
def laneOfImage (fmt planes x : Nat) : Nat :=
  if fmt = 0 then (if x = 1 then 1 else if x = 3 then 2 ^ 32 - 1 else 0)
  else if fmt = 1 ∨ fmt = 2 ∨ fmt = 4 then imageNat 32 (sextNat planes x)
  else x

/-- VDEPLANE: one tile row to the lanes of VD; a TERN (1, 0) reads 0 and sets WARN.MISC. -/
def execVdeplane (f : FVM) (s : State) : Host.Outcome State Fault Refusal :=
  slotOp (.vdeplane f) s (fun c =>
    let fmt := f.vi.toNat % 16
    let np := fmtPlanes fmt
    let b := tsBase c f
    let base := b - 8 * (b / 8 % 64)
    let ws := (List.range np).map (fun p => (SMap.get 0 c.co.tile (tsWord c (b + 512 * p))).toNat)
    let m := c.s.kr f.k.toNat
    let occ := ceilDiv np 8
    Out.check (vmCauses c f false ++ planeCauses c b base (512 * np))
      { act := Act.all [holdUnit c occ, markRd c.core (c.t + occ) ((planeGrans c b np).map itGran),
          vecBanks c occ c.t [banksOf [b]] (marks (c.t + occ) ((planeGrans c b np).map itGran)) [],
          warnBits c (warnIf (fmt == 0 && (actives m).any (fun n => fromPlanes ws n == 2)) wMisc),
          wV c f.v 0 m (ofLanes (fun n => laneOfImage fmt np (fromPlanes ws n))) (2 + occ)],
        reads := xReads [f.a] ++ [(.k, f.k.toNat)] })

/-! ### Moves (R243) -/

/-- VMOV: whole 32-bit lanes whatever W holds. (DEDUCED, log 26) -/
def execVmov (f : FVR) (s : State) : Host.Outcome State Fault Refusal :=
  slotOp (.vmov f) s (fun c =>
    let v := vIn c (.vmov f) f
    let im := v.x.im
    Out.check (specCauses c f.d c.o1 ++ (if im then [] else specCauses c f.a c.o2))
      { act := Act.all [warnBits c (vrWarn f { v.u with b := .unused } true false), holdUnit c 1,
          wV c f.d c.o1 v.m (if im then v.immAt 32 else v.a) v.u.lat],
        reads := (if im then [] else vReads f.a c.o2) ++ [(.k, f.k.toNat)] })

/-- VEXT: one lane, sign-extended, to a scalar register in c+2. -/
def execVext (f : FVR) (s : State) : Host.Outcome State Fault Refusal :=
  slotOp (.vext f) s (fun c =>
    let v := vIn c (.vext f) f
    Out.check v.causes
      { act := Act.all [warnBits c (vrWarn f v.u false false), holdUnit c 1,
          wX c (BitVec.ofNat 5 (f.d.toNat - 96)) (w64 (sextNat 32 (lane v.a v.sel))) v.u.lat],
        reads := v.reads })

/-! ### Holds (R227, R239, R246) -/

/-- What holds a bundle (R190, R227, R246, R281): a path or unit by its number, or something else (9). -/
abbrev Hold := Option Nat

/-- The first hold of a list. -/
def firstHold (l : List (Bool × Nat)) : Hold := (l.find? (fun e => e.1)).map (·.2)

/-- Loads of a kind with writes pending. -/
def pendLoads (s : Seat) (kind : Nat) : Nat := ((s.pend ++ s.captured).filter (fun p => p.load == kind)).length

/-- Is a form a flat vector load (R239)? -/
def isVload : Instr → Bool
  | .vld _ => true | .vldg _ => true | _ => false

/-- What holds a vector form: its unit, a ninth flat load (`n` counts those of the repetition's earlier slots), or busy granules. -/
def vHold (c : Ctx) (i : Instr) (n : Nat) : Hold :=
  let u := pVec (vUnit c)
  let unit := (!pathFree c.co u c.t, u)
  let loads := (decide (8 ≤ pendLoads c.s 2 + n), 9)
  let rd (gs : List Nat) := (gs.any (fun g => !rdOk c (itGran g)), 9)
  let wr (gs : List Nat) := (gs.any (fun g => !wrOk c (itGran g)), 9)
  match i with
  | .vld _ => firstHold [unit, loads]
  | .vldg _ => firstHold [unit, loads]
  | .vldTs f => firstHold [unit, rd (tsGrans c (laneAddrs c f false (tsBase c f) 0))]
  | .vldgTs f => firstHold [unit, rd (tsGrans c (laneAddrs c f true (tsBase c f) 20))]
  | .vldSc f => firstHold [unit, rd [phys c .gran (tsBase c f / 4096)]]
  | .vstTs f => firstHold [unit, wr (tsGrans c (laneAddrs c f false (tsBase c f) 0))]
  | .vstsTs f => firstHold [unit, wr (tsGrans c (laneAddrs c f true (tsBase c f) 20))]
  | .vstSc f => firstHold [unit, wr [phys c .gran (tsBase c f / 4096)]]
  | .vplane f => firstHold [unit, wr (planeGrans c (tsBase c f) (fmtPlanes (f.vi.toNat % 16)))]
  | .vdeplane f => firstHold [unit, rd (planeGrans c (tsBase c f) (fmtPlanes (f.vi.toNat % 16)))]
  | _ => firstHold [unit]

/-- What holds a scalar form: the divider (R190), a seventeenth load or atomic. -/
def sHold (c : Ctx) (i : Instr) : Hold :=
  match i with
  | .div _ => firstHold [(decide (c.t < c.s.divUntil), 9)]
  | .divu _ => firstHold [(decide (c.t < c.s.divUntil), 9)]
  | .rem _ => firstHold [(decide (c.t < c.s.divUntil), 9)]
  | .remu _ => firstHold [(decide (c.t < c.s.divUntil), 9)]
  | .ld _ => firstHold [(decide (16 ≤ pendLoads c.s 1), 9)]
  | .amoadd _ => firstHold [(decide (16 ≤ pendLoads c.s 1), 9)]
  | .amoand _ => firstHold [(decide (16 ≤ pendLoads c.s 1), 9)]
  | .amoor _ => firstHold [(decide (16 ≤ pendLoads c.s 1), 9)]
  | .amoxor _ => firstHold [(decide (16 ≤ pendLoads c.s 1), 9)]
  | .amomin _ => firstHold [(decide (16 ≤ pendLoads c.s 1), 9)]
  | .amomax _ => firstHold [(decide (16 ≤ pendLoads c.s 1), 9)]
  | .amominu _ => firstHold [(decide (16 ≤ pendLoads c.s 1), 9)]
  | .amomaxu _ => firstHold [(decide (16 ≤ pendLoads c.s 1), 9)]
  | .amoswap _ => firstHold [(decide (16 ≤ pendLoads c.s 1), 9)]
  | .amocas _ => firstHold [(decide (16 ≤ pendLoads c.s 1), 9)]
  | .amofadd _ => firstHold [(decide (16 ≤ pendLoads c.s 1), 9)]
  | _ => none

end Sys2Proof.Machine
end

