-- ==== Sys2Proof/Machine/Todo.lean ====
section
/-! DEFINITION. What the machine does next: the order of what happens within one ck. First a repetition in flight goes on slot
by slot; then what falls due in this ck; then the seats in ascending order, each with what happens to it and the bundle it
issues (R47, R159 to R162, R309 to R311); then the units; then the clocks of the cores (R142). -/

namespace Sys2Proof.Machine

/-! ### Presenting a bundle (R157 to R164, R309) -/

/-- A repetition ready to issue. -/
structure Rep where
  stall : Nat
  sclr : Bool
  len : Nat
  count : Nat
  j : Nat
  slots : List SlotOp
  warn : Bool
  causes : List Cause
  acq : List Nat
  engines : List Nat

/-- What a seat's next repetition is. -/
inductive Prep where
  | none
  | fault (c : Cause)
  | held (why : Nat) (a : Act)
  | go (r : Rep)

/-- Operations that move the sequencer: a repeat count does not apply to them (R159). -/
def movesSeat : Instr → Bool
  | .beq _ => true | .bne _ => true | .blt _ => true | .bge _ => true | .bltu _ => true | .bgeu _ => true
  | .j _ => true | .jal _ => true | .jalr _ => true | .loop _ _ => true | .loopr _ _ => true
  | .yield => true | .exit => true | .eret => true | .trap _ => true
  | _ => false

/-- Slots of the sticky engines in issue order. -/
def stickySlots : List Slot := [.v0, .v1, .m, .c0, .c1]

/-- A re-issue from a sticky record. -/
def reissueOp (s : Seat) (sl : Slot) : Option SlotOp :=
  let r := s.srec (engOf sl)
  if r.idle then none
  else match decodeSlot sl r.word r.ext with
    | .error _ => none
    | .ok i => some { slot := sl, instr := i, re := true, word := r.word, ext := r.ext }

/-- The operations of repetition j: at j = 0 the present slots, and the other engines that are not sticky-idle unless SCLR; after
that every engine that is not sticky-idle. -/
def repSlots (s : Seat) (sclr : Bool) (ops : List SlotOp) (j : Nat) : List SlotOp :=
  let op := fun (sl : Slot) => match (if j = 0 then ops.find? (fun o => o.slot == sl) else none) with
    | some o => some o
    | none => if j = 0 ∧ sclr then none else reissueOp s sl
  (if j = 0 then ops.filter (fun o => o.slot == .s) else []) ++ stickySlots.filterMap op

/-- The context in which a held operation would issue. -/
def opCtx (h : Hw) (k len : Nat) (acq : List Nat) (o : SlotOp) : Ctx :=
  mkCtx h { seat := k, slots := [o], pc := (h.seat k).pc.toNat, len := len, acq := acq }

/-- What holds an operation, `extra` counting what the repetition's earlier operations take. -/
def opHold (c : Ctx) (i : Instr) (extra : Extra) : Option Nat :=
  match c.sl with
  | .s => sHold c i
  | .v0 => vHold c i extra.vloads
  | .v1 => vHold c i extra.vloads
  | .m => (match mHold c i with | some n => some n | none => scHold c i)
  | .c0 => cHold c i extra
  | .c1 => cHold c i extra

/-- The first hold of a repetition, and what a held copy form fetches meanwhile. -/
def firstHeld (h : Hw) (k len : Nat) (acq : List Nat) : List SlotOp → Extra → Option (Nat × Act)
  | [], _ => none
  | o :: r, extra =>
    let c := opCtx h k len acq o
    let copy := o.slot == .c0 || o.slot == .c1
    match opHold c o.instr extra with
    | some n => some (n, if copy then cFetch c o.instr else Act.nil)
    | none => firstHeld h k len acq r {
        lands := if copy then extra.lands ++ (cUse c o.instr).landing c 0 else extra.lands
        vloads := extra.vloads + (isVload o.instr).toNat
        rooms := if copy then extra.rooms ++ (cUse c o.instr).room.toList else extra.rooms }

/-- The engine that an operation occupies (R309): 0 scalar, 1 and 2 vector units, 3 matrix, 4 scan, 5 and 6 copy channels. -/
def opEngine (c : Ctx) (i : Instr) : Option Nat :=
  match c.sl with
  | .s => if i = .nop then none else some 0
  | .v0 => some 1
  | .v1 => some 2
  | .m => if (mUse c i).isSome then some 3 else if (scUse c i).isSome then some 4 else none
  | .c0 => some 5
  | .c1 => some 6

/-- The layers that a bundle's LACQs name (R135). -/
def acqOf (h : Hw) (k len : Nat) (l : List SlotOp) : List Nat :=
  l.filterMap (fun o => match o.instr with
    | .lacq a => let c := opCtx h k len [] o; let m := layerArg c a; some (1024 * m.1 + m.2)
    | _ => none)

/-- May a seat present a bundle: RUN, not frozen, nothing waited for but a layer that is RESIDENT, its ck come, its system core not waiting for
the end of a supervisor form (R221)? -/
def presents (h : Hw) (k : Nat) : Bool :=
  let s := h.seat k
  s.st == SeatSt.run && !s.frozen.on && decide (s.nextIssue ≤ h.coreT (coreOf k)) && !(isSys (coreOf k) && (supSeat h (coreOf k)).isSome) &&
  (match s.wait with
    | .none => true
    | .lacq m l _ => (layerAt h (pkgOfCore (coreOf k)) (1024 * m + l)).st == LayerSt.resident
    | _ => false)

/-- What puts back the captured entries of a restored seat, in the ck in which its first bundle comes up (R52). -/
def replayFirst (k : Nat) : Act := fun h => if (h.seat k).toReplay then replay k (h.coreT (coreOf k)) h else []

/-- The hardware as the first bundle of a restored seat finds it. -/
def atReplay (h : Hw) (k : Nat) : Hw := h.run (replayFirst k)

/-- The next repetition of a seat. -/
def prepare (h : Hw) (k : Nat) : Prep :=
  let s := h.seat k
  let core := coreOf k
  let pc := s.pc.toNat
  if !presents h k then .none
  else let h := atReplay h k
  match fetchBundle h core s.img s.inst pc s.lrec.xn with
    | .error c => .fault c
    | .ok (hd, ops, len) =>
      let n0 := if hd.rr then (s.xr hd.rpt.toNat).toNat % 2 ^ 16 else hd.rpt.toNat + 1
      let once := decide (1 < n0) && ops.any (fun o => o.slot == .s && movesSeat o.instr)
      let n := if s.repOn then s.repN else if once then 1 else n0
      let j := if s.repOn then s.repJ else 0
      let slots := if n = 0 then [] else repSlots s hd.sclr ops j
      let acq := acqOf h k len slots
      let chk := if s.chkmode && hd.rr && !s.repOn then
          ((s.pend.find? (fun p => p.hits (.x, hd.rpt.toNat))).map (fun p =>
            ({ code := 0x60, tval := BitVec.ofNat 64 (hd.rpt.toNat + (p.due - h.coreT core) % 2 ^ 16 * 2 ^ 16), slots := 0 } : Cause))).toList
        else []
      match firstHeld h k len acq slots {} with
      | some (why, a) => .held why a
      | none => .go {
          stall := hd.stall.toNat, sclr := hd.sclr, len := len, count := n, j := j, slots := slots, warn := once && decide (j = 0), causes := chk, acq := acq,
          engines := slots.filterMap (fun o => opEngine (opCtx h k len acq o) o.instr) }

/-- A repetition issues: what stands whatever its slots do, then the state of the hardware before it is kept, and its first slot
comes next. -/
def startRep (s : State) (k : Nat) (r : Rep) : State :=
  let x := s.hw.seat k
  let pc := x.pc.toNat
  let pre := s.hw.run (Act.all [
    modSeat k (fun y => { y with
      wait := .none, repOn := decide (r.count ≠ 0), repJ := r.j, repN := r.count }),
    bundleFill (coreOf k) x.img pc r.len,
    modGlob (fun g => { g with seatKey := k + 1 })])
  let present := r.slots.filter (fun o => !o.re)
  let hw := pre.run (Act.all [
    Act.when r.warn (modSeat k (fun y => { y with warn := y.warn ||| (1 <<< wRepbr) })),
    Act.when (decide (r.j = 0 ∧ r.count ≠ 0) && r.sclr) (modSeat k (fun y =>
      (stickySlots.filter (fun sl => !present.any (fun o => o.slot == sl))).foldl (fun y sl =>
        y.setSrec (engOf sl) { y.srec (engOf sl) with idle := true }) y))])
  { s with
    hw := hw, pre := some pre,
    cur := { seat := k, slots := r.slots, on := true, pc := pc, len := r.len, stall := r.stall, last := decide (r.count ≤ r.j + 1),
             causes := r.causes, acq := r.acq } }

/-! ### The merge (R310, R311) -/

/-- Does a seat wait for something? -/
def waiting (s : Seat) : Bool := s.wait != .none

/-- Is a cause that is due charged at once, not at the next bundle? TRAP and the break are; a seat that waits takes one at once
when it is of class 4 or of the decompressor (R425, R468), or when what it waits for is a layer, a plan or the supervisor's own operation (R440). -/
def chargedNow (s : Seat) (c : Cause) : Bool :=
  decide (0x1E0 ≤ c.code) || c.code == 0x1A5 ||
  (match s.wait with
    | .none => false
    | .lacq _ _ _ => true
    | .sup _ _ => true
    | .xplan _ _ _ => true
    | _ => (decide (0x080 ≤ c.code) && decide (c.code < 0x0A0)) || (decide (0x0B0 ≤ c.code) && decide (c.code < 0x0C0)))

/-- Has a seat a cause that is charged when it would issue? -/
def chargeDue (h : Hw) (k : Nat) : Bool := !(dueCauses h k).isEmpty

/-- The repetition of a seat that takes part in the merge. -/
def mergeRep (h : Hw) (k : Nat) : Option Rep :=
  if chargeDue h k then none else match prepare h k with | .go r => some r | _ => none

/-- Which seats of a core may issue in this ck, as a mask: both when their engines are disjoint. -/
def mergeMask (h : Hw) (core : Nat) (r0 r1 : Rep) : Nat :=
  let a := h.seat (2 * core)
  let b := h.seat (2 * core + 1)
  if r0.engines.all (fun e => !r1.engines.contains e) then 3
  else if a.loss = 256 then 1 else if b.loss = 256 then 2
  else if b.seatpri ≤ a.seatpri then 1 else 2

/-- A seat loses the merge of this ck (R311). -/
def loses (k : Nat) : Act := modSeat k (fun s => { s with loss := s.loss + 1 })

/-- Whether a seat whose repetition is ready may issue. Seat 0 decides for both, before either has issued. -/
def mayIssue (h : Hw) (k : Nat) (r : Rep) : Bool × Act :=
  if isSeat1 k then (true, Act.nil)
  else match mergeRep h (k + 1) with
    | none => (true, Act.nil)
    | some r1 =>
      match mergeMask h (coreOf k) r r1 with
      | 1 => (true, Act.all [modGlob (fun g => { g with merged := coreOf k + 1 }), loses (k + 1)])
      | 2 => (false, loses k)
      | _ => (true, Act.nil)

/-! ### One seat in one ck -/

/-- What a seat does when its turn comes. -/
inductive Turn where
  | idle
  | change (a : Act)
  | event (e : Event)
  | issue (r : Rep) (a : Act)
  | fault (c : Cause)

/-- What happens to a seat whose core's clock runs, apart from issuing (R213, R216, R218, R377, R386, R411, R419, R425, R440). -/
def seatEvent (h : Hw) (k : Nat) : Option Event :=
  let s := h.seat k
  let core := coreOf k
  let now := h.glob.now
  let run := s.st == SeatSt.run && !s.frozen.on
  if (relReady h k).isSome then some (.releaseDrainComplete k)
  else if s.frozen.on then none
  else if retireReady h k then some (.seatRetired k)
  else if spillReady h k then some (.spillStart k)
  else if holdLate h k then some (.holdWatchdog k)
  else if acommitLate h k then some (.acommitArrivalTimeout k)
  else if boundLate h k && run && (waiting s || decide (s.nextIssue ≤ h.coreT core)) then some (.phaseBoundExceeded k)
  else if (run || s.st == SeatSt.parked) && (dueCauses h k).any (chargedNow s) then
    some (.deferredCauseCharge k)
  else match s.wait with
    | .fwait f thr start tmo _ _ _ =>
      if tmo ≠ 2 ^ 32 - 1 ∧ start + tmo + 1 ≤ h.coreT core then some (.fwaitTimeout k)
      else if thr ≤ (SMap.get 0 (h.core core).flags f).toNat then some (.fwaitSatisfied k) else none
    | .drain _ sc start before =>
      if drained h k sc before then some (.drainComplete k)
      else if start + 2 ^ 22 ≤ now then some (.drainLimit k) else none
    | .sleep target => if target ≤ h.cycle (pkgOfCore core) then some (.sleepWake k) else none
    | .lacq _ _ _ => if lacqLate h k then some (.lacqTimeout k) else none
    | _ => none

/-- A held bundle: since when, and by what. -/
def heldAct (k why : Nat) (a : Act) : Act := fun h => Act.all [
  modSeat k (fun s => if s.holdFrom ≠ 0 ∧ s.holdWhy = why then s else { s with holdFrom := h.glob.now + 1, holdWhy := why }), a] h

/-- The turn of a seat. -/
def seatTurn (h : Hw) (k : Nat) : Turn :=
  let core := coreOf k
  if 2 ^ 18 ≤ k then (if (relReady h k).isSome then .event (.releaseDrainComplete k) else .idle)
  else if coreStill h core then
    match overdueAcc h k with
    | some id => .event (.landingOverdue k id)
    | none => if freezeDue h core then .event (.freezeWatchdog core) else .idle
  else match seatEvent h k with
    | some e => .event e
    | none => if isSeat1 k ∧ h.glob.merged = core + 1 then .idle else match prepare h k with
      | .none => .idle
      | .fault c => if chargeDue h k then .event (.deferredCauseCharge k) else .fault c
      | .held why a => if chargeDue h k then .event (.deferredCauseCharge k) else .change (Act.all [replayFirst k, heldAct k why a])
      | .go r =>
        if chargeDue h k then .event (.deferredCauseCharge k)
        else match mayIssue h k r with
          | (true, a) => .issue r (Act.all [replayFirst k, a])
          | (false, a) => .change a

/-! ### The whole machine in one ck -/

/-- What the machine does next. -/
inductive Todo where
  | run (s : State) (i : Instr)
  | done (s : State)
  | stop

/-- An event runs. -/
def runEvent (s : State) (hw : Hw) (e : Event) : Todo := .run { s with hw := hw, cur := {}, ev := e } e.instr

/-- The seats from the first on that has something to do; `.done` when none has, with what changed. -/
def seatPass (s : State) : List Nat → Todo
  | [] => .done s
  | k :: r =>
    match seatTurn s.hw k with
    | .idle => seatPass s r
    | .change a => seatPass { s with hw := s.hw.run a } r
    | .event e => runEvent s (s.hw.run (modGlob (fun g => { g with seatKey := k }))) e
    | .fault c => .done { s with hw := s.hw.run (Act.all [modSeat k (fun x => if c.code < 0x20 then { x with repJ := 0 } else x), trapEntry k [c], modGlob (fun g => { g with seatKey := k + 1 })]), cur := {} }
    | .issue r a =>
      let s1 := startRep { s with hw := s.hw.run a } k r
      .run s1 (match r.slots with | [] => .emptyBundle | o :: _ => o.instr)

/-- The seats whose turn has not come in this ck. -/
def seatsLeft (h : Hw) : List Nat := (h.seats.map (fun e => e.1)).filter (fun k => decide (h.glob.seatKey ≤ k))

/-- Packages that have power. -/
def livePkgs (h : Hw) : List Nat := (List.range h.glob.npkg).filter (fun p => !(h.pkg p).off)

/-- What the slices and the decompressors have to do in this ck. They come before the seats, so that a DRAIN sees in this ck what performs in it (R190, R218). -/
def sliceEvent (h : Hw) : Option Event :=
  h.clusters.findSome? (fun c => if decDue h c.1 then some (Event.granuleDecode c.1) else
    (List.range 4).findSome? (fun b => if sliceDue h c.1 b then some (Event.sliceRequest c.1 b) else none))

/-- What a unit has to do in this ck after the seats, units in a fixed order: the golden epoch, pseudo-channels, routers, the wheel,
dispatchers, residency engines. -/
def unitEvent (h : Hw) : Option Event :=
  let ps := livePkgs h
  match ps.findSome? (fun p => if (h.pkg p).golden = goldenOf (h.cycle p) then none else some (Event.goldenEpoch p)) with
  | some e => some e
  | none => match sliceEvent h with
  | some e => some e
  | none => match h.glob.mcq.findSome? (fun q => if mcDue h q.1 then some (Event.memoryControllerIssue (q.1 / 64) (q.1 % 64)) else none) with
  | some e => some e
  | none => match h.clusters.findSome? (fun c => if routeDue h c.1 then some (Event.packetRoute c.1) else none) with
  | some e => some e
  | none => match ps.findSome? (fun p => if tickDue h p then some (Event.milestoneWheelTick (4 * p)) else none) with
  | some e => some e
  | none => match h.insts.findSome? (fun i => if startDue h i.1 then some (Event.instanceStart i.1)
      else if i.2.st = 2 ∧ (h.pkg i.2.pkg).reports.length < 256 then some (Event.completionReportAppend i.1) else none) with
  | some e => some e
  | none => match ps.findSome? (fun p => if roundDue h p then some (Event.dispatchRound p) else none) with
  | some e => some e
  | none => ps.findSome? (fun p => match resDue h p with
      | some key => some (Event.arrivalStart p key)
      | none => if poolDue h p then some (Event.poolChangeComplete p) else none)

/-- The results of the seats of a core that fall due (R142). -/
def flushSeats (core t : Nat) : Act := Act.look (fun h => Act.each ([2 * core, 2 * core + 1].filter (fun k => SMap.has h.seats k))
  (fun k => modSeat k (fun s => s.flush t)))

/-- Submissions to the scan network leave their core (R274, R325). -/
def sendScans (core t : Nat) : Act := Act.look (fun h =>
  Act.each (h.accs.filter (fun a => coreOf a.2.seat == core && !a.2.sent && decide (a.2.due ≤ t))) (fun a =>
    match a.2.kind with
    | .scanRes _ _ m => Act.all [modAcc a.1 (fun x => { x with sent := true }), after 4 (.scanSubmission (domDie core) m)]
    | _ => Act.nil))

/-- The flag operations of the ck come after its writes (R64, R142). -/
def endOfCk (core : Nat) : Act := Act.look (fun h =>
  Act.when (!(h.core core).flagOps.isEmpty) (modCore core (fun c => c.doFlags)))

/-- One ck of a core: its clock runs, or stands still for data or after a capture. -/
def tickCore (core : Nat) : Act := Act.look (fun h =>
  let now := h.glob.now
  let t := h.coreT core
  let lack := coreLacks h core
  Act.all [
    if coreStill h core then Act.all [bankTick core false, modCore core (fun c => { c with
      lost := c.lost + 1,
      frzFrom := if lack then (if c.frzFrom = 0 then now + 1 else c.frzFrom) else if now < c.frzTo then c.frzFrom else 0 })]
    else Act.all [
      bankTick core true, landTick core, flushSeats core t, sendScans core t,
      Act.when (decide (((h.core core).frzFrom) ≠ 0) && decide ((h.core core).frzFrom ≤ now)) (modCore core (fun c => { c with frzFrom := 0 }))],
    endOfCk core])

/-- The cores that hold something or run a seat. -/
def busyCores (h : Hw) : List Nat :=
  (h.cores.map (fun c => c.1)) ++ ((h.seats.filter (fun e => decide (e.1 < 2 ^ 18))).map (fun e => coreOf e.1)).foldl
    (fun l c => if SMap.has h.cores c ∨ l.contains c then l else l ++ [c]) []

/-- The entry registers of a placed seat stand after 1 ck (R49). -/
def enterRun : Act := fun h => (h.seats.filter (fun e => e.2.st == SeatSt.placed)).map (fun e => .seat e.1 { e.2 with st := .run })

/-- The patrol scrub (R400): each of the 750,000,000 lines of a stack in 24 h, that is one line in 259,200 ck, in the refresh class. (DESIGN CHOICE, log 83) -/
def scrubAct (pk : Nat) : Act := fun h =>
  if h.glob.now % 259200 ≠ 259199 then [] else
  Act.each ((List.range 12).filter (fun st => stkWorks (h.pkg pk) st)) (fun st =>
    let pa := paOf pk (st * 2 ^ 36 + 64 * (h.glob.now / 259200 % 750000000))
    pushMem pa { cls := 0, acc := 0, part := 0, line := lineOf pa, slice := 0, at_ := h.glob.now }) h

/-- The ck ends. -/
def tick : Act := Act.look (fun h => Act.all [
  enterRun, Act.each (busyCores h) tickCore, Act.each (livePkgs h) (fun p => Act.all [linkTick p, passRings p, scrubAct p]), modGlob (fun g => { g with now := g.now + 1, seatKey := 0, merged := 0 })])

/-- Is nothing powered, and nothing left to come? (DESIGN CHOICE, log 70) -/
def allOff (h : Hw) : Bool := (livePkgs h).isEmpty && h.glob.agenda.isEmpty

/-- What the machine does next (see the head of this file). (DESIGN CHOICE, log 10) -/
def todo (s : State) : Todo :=
  if s.cur.on && !s.cur.slots.isEmpty then .run s s.cur.head.instr
  else match s.hw.glob.agenda with
    | (t, e) :: r =>
      if t ≤ s.hw.glob.now then runEvent s { s.hw with glob := { s.hw.glob with agenda := r } } e else rest s
    | [] => if allOff s.hw then .stop else rest s
where
  /-- The slices, the seats, then the units, then the clocks. -/
  rest (s : State) : Todo :=
    match sliceEvent s.hw with
    | some e => runEvent s s.hw e
    | none => seats s
  /-- The seats, then the units, then the clocks. -/
  seats (s : State) : Todo :=
    if s.hw.glob.seatAt = s.hw.glob.now + 1 then units s
    else match seatPass s (seatsLeft s.hw) with
      | .done s' => if s'.hw.glob.seatKey = s.hw.glob.seatKey then units { s' with hw := s'.hw.run (modGlob (fun g => { g with seatAt := g.now + 1 })) } else .done s'
      | r => r
  /-- The units, then the clocks. -/
  units (s : State) : Todo :=
    match unitEvent s.hw with
    | some e => runEvent s s.hw e
    | none => .done { s with hw := s.hw.run tick }

end Sys2Proof.Machine
end

