-- ==== Sys2Proof/Machine/Dispatch.lean ====
section
/-! DEFINITION. The meaning of every operation and event: one arm per constructor. -/

namespace Sys2Proof.Machine

def exec (i : Instr) (s : State) : Host.Outcome State Fault Refusal :=
  match i with
  | .nop => Sys2Proof.Machine.execNop s
  | .add f => Sys2Proof.Machine.execAdd f s
  | .sub f => Sys2Proof.Machine.execSub f s
  | .and_ f => Sys2Proof.Machine.execAnd f s
  | .or_ f => Sys2Proof.Machine.execOr f s
  | .xor_ f => Sys2Proof.Machine.execXor f s
  | .shl f => Sys2Proof.Machine.execShl f s
  | .shr f => Sys2Proof.Machine.execShr f s
  | .sra f => Sys2Proof.Machine.execSra f s
  | .slt f => Sys2Proof.Machine.execSlt f s
  | .sltu f => Sys2Proof.Machine.execSltu f s
  | .min_ f => Sys2Proof.Machine.execMin f s
  | .max_ f => Sys2Proof.Machine.execMax f s
  | .minu f => Sys2Proof.Machine.execMinu f s
  | .maxu f => Sys2Proof.Machine.execMaxu f s
  | .mul f => Sys2Proof.Machine.execMul f s
  | .mulh f => Sys2Proof.Machine.execMulh f s
  | .mulhu f => Sys2Proof.Machine.execMulhu f s
  | .div f => Sys2Proof.Machine.execDiv f s
  | .divu f => Sys2Proof.Machine.execDivu f s
  | .rem f => Sys2Proof.Machine.execRem f s
  | .remu f => Sys2Proof.Machine.execRemu f s
  | .adds f => Sys2Proof.Machine.execAdds f s
  | .subs f => Sys2Proof.Machine.execSubs f s
  | .clz f => Sys2Proof.Machine.execClz f s
  | .popc f => Sys2Proof.Machine.execPopc f s
  | .seq f => Sys2Proof.Machine.execSeq f s
  | .sne f => Sys2Proof.Machine.execSne f s
  | .addx f => Sys2Proof.Machine.execAddx f s
  | .addi f => Sys2Proof.Machine.execAddi f s
  | .andi f => Sys2Proof.Machine.execAndi f s
  | .ori f => Sys2Proof.Machine.execOri f s
  | .xori f => Sys2Proof.Machine.execXori f s
  | .shli f => Sys2Proof.Machine.execShli f s
  | .shri f => Sys2Proof.Machine.execShri f s
  | .srai f => Sys2Proof.Machine.execSrai f s
  | .slti f => Sys2Proof.Machine.execSlti f s
  | .sltiu f => Sys2Proof.Machine.execSltiu f s
  | .li d imm => Sys2Proof.Machine.execLi d imm s
  | .lih f => Sys2Proof.Machine.execLih f s
  | .beq f => Sys2Proof.Machine.execBeq f s
  | .bne f => Sys2Proof.Machine.execBne f s
  | .blt f => Sys2Proof.Machine.execBlt f s
  | .bge f => Sys2Proof.Machine.execBge f s
  | .bltu f => Sys2Proof.Machine.execBltu f s
  | .bgeu f => Sys2Proof.Machine.execBgeu f s
  | .j off => Sys2Proof.Machine.execJ off s
  | .jal off => Sys2Proof.Machine.execJal off s
  | .jalr f => Sys2Proof.Machine.execJalr f s
  | .loop e count => Sys2Proof.Machine.execLoop e count s
  | .loopr a e => Sys2Proof.Machine.execLoopr a e s
  | .ld f => Sys2Proof.Machine.execLd f s
  | .st f => Sys2Proof.Machine.execSt f s
  | .amoadd f => Sys2Proof.Machine.execAmoadd f s
  | .amoand f => Sys2Proof.Machine.execAmoand f s
  | .amoor f => Sys2Proof.Machine.execAmoor f s
  | .amoxor f => Sys2Proof.Machine.execAmoxor f s
  | .amomin f => Sys2Proof.Machine.execAmomin f s
  | .amomax f => Sys2Proof.Machine.execAmomax f s
  | .amominu f => Sys2Proof.Machine.execAmominu f s
  | .amomaxu f => Sys2Proof.Machine.execAmomaxu f s
  | .amoswap f => Sys2Proof.Machine.execAmoswap f s
  | .amocas f => Sys2Proof.Machine.execAmocas f s
  | .amofadd f => Sys2Proof.Machine.execAmofadd f s
  | .csrr d csr => Sys2Proof.Machine.execCsrr d csr s
  | .csrw f => Sys2Proof.Machine.execCsrw f s
  | .csrs f => Sys2Proof.Machine.execCsrs f s
  | .csrc f => Sys2Proof.Machine.execCsrc f s
  | .shset a n => Sys2Proof.Machine.execShset a n s
  | .shget d n => Sys2Proof.Machine.execShget d n s
  | .qpush f => Sys2Proof.Machine.execQpush f s
  | .qpop f => Sys2Proof.Machine.execQpop f s
  | .qpeek f => Sys2Proof.Machine.execQpeek f s
  | .fadd f => Sys2Proof.Machine.execFadd f s
  | .fset f => Sys2Proof.Machine.execFset f s
  | .ftest d flag => Sys2Proof.Machine.execFtest d flag s
  | .fwait f flag => Sys2Proof.Machine.execFwait f flag s
  | .fclr flag => Sys2Proof.Machine.execFclr flag s
  | .signal a ext => Sys2Proof.Machine.execSignal a ext s
  | .yield => Sys2Proof.Machine.execYield s
  | .sleepuntil a => Sys2Proof.Machine.execSleepuntil a s
  | .msarm a b => Sys2Proof.Machine.execMsarm a b s
  | .drain d scope => Sys2Proof.Machine.execDrain d scope s
  | .trap n => Sys2Proof.Machine.execTrap n s
  | .eret => Sys2Proof.Machine.execEret s
  | .exit => Sys2Proof.Machine.execExit s
  | .brk => Sys2Proof.Machine.execBrk s
  | .tlbinv a b => Sys2Proof.Machine.execTlbinv a b s
  | .ttinv => Sys2Proof.Machine.execTtinv s
  | .wipe d a => Sys2Proof.Machine.execWipe d a s
  | .vnop ext => Sys2Proof.Machine.execVnop ext s
  | .vadd f => Sys2Proof.Machine.execVadd f s
  | .vsub f => Sys2Proof.Machine.execVsub f s
  | .vmul f => Sys2Proof.Machine.execVmul f s
  | .vmulh f => Sys2Proof.Machine.execVmulh f s
  | .vand f => Sys2Proof.Machine.execVand f s
  | .vor f => Sys2Proof.Machine.execVor f s
  | .vxor f => Sys2Proof.Machine.execVxor f s
  | .vshl f => Sys2Proof.Machine.execVshl f s
  | .vshr f => Sys2Proof.Machine.execVshr f s
  | .vsra f => Sys2Proof.Machine.execVsra f s
  | .vmin f => Sys2Proof.Machine.execVmin f s
  | .vmax f => Sys2Proof.Machine.execVmax f s
  | .vabs f => Sys2Proof.Machine.execVabs f s
  | .vmad f => Sys2Proof.Machine.execVmad f s
  | .vfadd f => Sys2Proof.Machine.execVfadd f s
  | .vfsub f => Sys2Proof.Machine.execVfsub f s
  | .vfmul f => Sys2Proof.Machine.execVfmul f s
  | .vfma f => Sys2Proof.Machine.execVfma f s
  | .vfmin f => Sys2Proof.Machine.execVfmin f s
  | .vfmax f => Sys2Proof.Machine.execVfmax f s
  | .vfneg f => Sys2Proof.Machine.execVfneg f s
  | .vfrcp f => Sys2Proof.Machine.execVfrcp f s
  | .vfrsq f => Sys2Proof.Machine.execVfrsq f s
  | .vfexp2 f => Sys2Proof.Machine.execVfexp2 f s
  | .vflog2 f => Sys2Proof.Machine.execVflog2 f s
  | .vfdiv f => Sys2Proof.Machine.execVfdiv f s
  | .vfsqrt f => Sys2Proof.Machine.execVfsqrt f s
  | .vcmp f => Sys2Proof.Machine.execVcmp f s
  | .vfcmp f => Sys2Proof.Machine.execVfcmp f s
  | .kand f => Sys2Proof.Machine.execKand f s
  | .kor f => Sys2Proof.Machine.execKor f s
  | .kxor f => Sys2Proof.Machine.execKxor f s
  | .knot f => Sys2Proof.Machine.execKnot f s
  | .kpopc f => Sys2Proof.Machine.execKpopc f s
  | .vselk f => Sys2Proof.Machine.execVselk f s
  | .vcvt f => Sys2Proof.Machine.execVcvt f s
  | .vpack f => Sys2Proof.Machine.execVpack f s
  | .vunpack f => Sys2Proof.Machine.execVunpack f s
  | .vshuf f => Sys2Proof.Machine.execVshuf f s
  | .vbcast f => Sys2Proof.Machine.execVbcast f s
  | .vslide f => Sys2Proof.Machine.execVslide f s
  | .vradd f => Sys2Proof.Machine.execVradd f s
  | .vrmax f => Sys2Proof.Machine.execVrmax f s
  | .vrmin f => Sys2Proof.Machine.execVrmin f s
  | .vrfadd f => Sys2Proof.Machine.execVrfadd f s
  | .vpushc f => Sys2Proof.Machine.execVpushc f s
  | .vpopc f => Sys2Proof.Machine.execVpopc f s
  | .vrebal f => Sys2Proof.Machine.execVrebal f s
  | .vscnt f => Sys2Proof.Machine.execVscnt f s
  | .vld f => Sys2Proof.Machine.execVld f s
  | .vldTs f => Sys2Proof.Machine.execVldTs f s
  | .vldSc f => Sys2Proof.Machine.execVldSc f s
  | .vst f => Sys2Proof.Machine.execVst f s
  | .vstTs f => Sys2Proof.Machine.execVstTs f s
  | .vstSc f => Sys2Proof.Machine.execVstSc f s
  | .vldg f => Sys2Proof.Machine.execVldg f s
  | .vldgTs f => Sys2Proof.Machine.execVldgTs f s
  | .vsts f => Sys2Proof.Machine.execVsts f s
  | .vstsTs f => Sys2Proof.Machine.execVstsTs f s
  | .vplane f => Sys2Proof.Machine.execVplane f s
  | .vdeplane f => Sys2Proof.Machine.execVdeplane f s
  | .vmov f => Sys2Proof.Machine.execVmov f s
  | .vext f => Sys2Proof.Machine.execVext f s
  | .mnop ext => Sys2Proof.Machine.execMnop ext s
  | .mma f => Sys2Proof.Machine.execMma f s
  | .mmas f => Sys2Proof.Machine.execMmas f s
  | .latch f => Sys2Proof.Machine.execLatch f s
  | .azero f => Sys2Proof.Machine.execAzero f s
  | .amov f => Sys2Proof.Machine.execAmov f s
  | .anorm f => Sys2Proof.Machine.execAnorm f s
  | .agetx f => Sys2Proof.Machine.execAgetx f s
  | .ascl f => Sys2Proof.Machine.execAscl f s
  | .aaddt f => Sys2Proof.Machine.execAaddt f s
  | .epi f => Sys2Proof.Machine.execEpi f s
  | .epix f => Sys2Proof.Machine.execEpix f s
  | .awin f => Sys2Proof.Machine.execAwin f s
  | .acommit f => Sys2Proof.Machine.execAcommit f s
  | .scan f => Sys2Proof.Machine.execScan f s
  | .scanl f => Sys2Proof.Machine.execScanl f s
  | .scant f => Sys2Proof.Machine.execScant f s
  | .scanc f => Sys2Proof.Machine.execScanc f s
  | .qset f => Sys2Proof.Machine.execQset f s
  | .step f => Sys2Proof.Machine.execStep f s
  | .stepy f => Sys2Proof.Machine.execStepy f s
  | .hld f => Sys2Proof.Machine.execHld f s
  | .hst f => Sys2Proof.Machine.execHst f s
  | .hzero f => Sys2Proof.Machine.execHzero f s
  | .cnop => Sys2Proof.Machine.execCnop s
  | .tld f => Sys2Proof.Machine.execTld f s
  | .tldm f => Sys2Proof.Machine.execTldm f s
  | .tldd f => Sys2Proof.Machine.execTldd f s
  | .tldg f => Sys2Proof.Machine.execTldg f s
  | .tst f => Sys2Proof.Machine.execTst f s
  | .tsts f => Sys2Proof.Machine.execTsts f s
  | .tcpy f => Sys2Proof.Machine.execTcpy f s
  | .racc f => Sys2Proof.Machine.execRacc f s
  | .tpf f => Sys2Proof.Machine.execTpf f s
  | .nsend f => Sys2Proof.Machine.execNsend f s
  | .nrecv f => Sys2Proof.Machine.execNrecv f s
  | .lacq a => Sys2Proof.Machine.execLacq a s
  | .lrel a => Sys2Proof.Machine.execLrel a s
  | .lhint a b => Sys2Proof.Machine.execLhint a b s
  | .creq f => Sys2Proof.Machine.execCreq f s
  | .cpoll d a => Sys2Proof.Machine.execCpoll d a s
  | .xplan d a comm => Sys2Proof.Machine.execXplan d a comm s
  | .xstep d a => Sys2Proof.Machine.execXstep d a s
  | .xstatStatus d a b => Sys2Proof.Machine.execXstatStatus d a b s
  | .xstatTake d a b => Sys2Proof.Machine.execXstatTake d a b s
  | .xstatReadA d a b => Sys2Proof.Machine.execXstatReadA d a b s
  | .xstatReadB d a b => Sys2Proof.Machine.execXstatReadB d a b s
  | .xstatComplete d a b => Sys2Proof.Machine.execXstatComplete d a b s
  | .xstatFail d a b => Sys2Proof.Machine.execXstatFail d a b s
  | .xstatPlanStatus d a b => Sys2Proof.Machine.execXstatPlanStatus d a b s
  | .xabort d a => Sys2Proof.Machine.execXabort d a s
  | .cysnd f => Sys2Proof.Machine.execCysnd f s
  | .cyrcv f => Sys2Proof.Machine.execCyrcv f s
  | .kick pkg node hdr patches => Sys2Proof.Machine.execKick pkg node hdr patches s
  | .ownerPreempt pkg node target => Sys2Proof.Machine.execOwnerPreempt pkg node target s
  | .ownerReleaseSeat pkg node seat => Sys2Proof.Machine.execOwnerReleaseSeat pkg node seat s
  | .patrolScrub site uncorrectable => Sys2Proof.Machine.execPatrolScrub site uncorrectable s
  | .arrivalFailure pkg layer reason => Sys2Proof.Machine.execArrivalFailure pkg layer reason s
  | .writeBackFailure pkg layer => Sys2Proof.Machine.execWriteBackFailure pkg layer s
  | .poolParameterWrite pkg node base kns => Sys2Proof.Machine.execPoolParameterWrite pkg node base kns s
  | .resumeCommand seat => Sys2Proof.Machine.execResumeCommand seat s
  | .seatRetireCommand seat => Sys2Proof.Machine.execSeatRetireCommand seat s
  | .instanceAbort inst status => Sys2Proof.Machine.execInstanceAbort inst status s
  | .linkRetryRequest link acc => Sys2Proof.Machine.execLinkRetryRequest link acc s
  | .routerAckTimeout cluster => Sys2Proof.Machine.execRouterAckTimeout cluster s
  | .linkTrainingLoss link => Sys2Proof.Machine.execLinkTrainingLoss link s
  | .partitionResume pkg => Sys2Proof.Machine.execPartitionResume pkg s
  | .stehaythLinkFailure pkg port => Sys2Proof.Machine.execStehaythLinkFailure pkg port s
  | .claim pkg port node valid => Sys2Proof.Machine.execClaim pkg port node valid s
  | .ownershipHandover pkg node succ => Sys2Proof.Machine.execOwnershipHandover pkg node succ s
  | .portLinkLoss pkg port => Sys2Proof.Machine.execPortLinkLoss pkg port s
  | .imageUpload pkg node handle bytes words => Sys2Proof.Machine.execImageUpload pkg node handle bytes words s
  | .completionReportPop pkg => Sys2Proof.Machine.execCompletionReportPop pkg s
  | .windowRegisterWrite pkg node off data => Sys2Proof.Machine.execWindowRegisterWrite pkg node off data s
  | .ptimeSync pkg ns => Sys2Proof.Machine.execPtimeSync pkg ns s
  | .attestationRequest pkg nonce => Sys2Proof.Machine.execAttestationRequest pkg nonce s
  | .provisioningCommand pkg valid => Sys2Proof.Machine.execProvisioningCommand pkg valid s
  | .deploymentCommand pkg node => Sys2Proof.Machine.execDeploymentCommand pkg node s
  | .returnCommand pkg node => Sys2Proof.Machine.execReturnCommand pkg node s
  | .temperatureWarning pkg die => Sys2Proof.Machine.execTemperatureWarning pkg die s
  | .temperatureTrip pkg die => Sys2Proof.Machine.execTemperatureTrip pkg die s
  | .powerStageFault pkg die => Sys2Proof.Machine.execPowerStageFault pkg die s
  | .coolantFlowLow pkg => Sys2Proof.Machine.execCoolantFlowLow pkg s
  | .coolantTemperatureHigh pkg => Sys2Proof.Machine.execCoolantTemperatureHigh pkg s
  | .inputUndervoltage pkg => Sys2Proof.Machine.execInputUndervoltage pkg s
  | .inputOvercurrent pkg => Sys2Proof.Machine.execInputOvercurrent pkg s
  | .modulePowerDown pkg => Sys2Proof.Machine.execModulePowerDown pkg s
  | .portLinkUp pkg port => Sys2Proof.Machine.execPortLinkUp pkg port s
  | .carryInputLoss pkg => Sys2Proof.Machine.execCarryInputLoss pkg s
  | .moduleEventCleared pkg cause => Sys2Proof.Machine.execModuleEventCleared pkg cause s
  | .emptyBundle => Sys2Proof.Machine.execEmptyBundle s
  | .instanceStart => Sys2Proof.Machine.execInstanceStart s
  | .dispatchRound => Sys2Proof.Machine.execDispatchRound s
  | .preemptionRequest => Sys2Proof.Machine.execPreemptionRequest s
  | .seatPlacement => Sys2Proof.Machine.execSeatPlacement s
  | .spillStart => Sys2Proof.Machine.execSpillStart s
  | .spillDone => Sys2Proof.Machine.execSpillDone s
  | .restoreDone => Sys2Proof.Machine.execRestoreDone s
  | .seatRetired => Sys2Proof.Machine.execSeatRetired s
  | .nodeComplete => Sys2Proof.Machine.execNodeComplete s
  | .completionReportAppend => Sys2Proof.Machine.execCompletionReportAppend s
  | .signalCounted => Sys2Proof.Machine.execSignalCounted s
  | .milestoneWheelTick => Sys2Proof.Machine.execMilestoneWheelTick s
  | .sleepWake => Sys2Proof.Machine.execSleepWake s
  | .fwaitSatisfied => Sys2Proof.Machine.execFwaitSatisfied s
  | .fwaitTimeout => Sys2Proof.Machine.execFwaitTimeout s
  | .drainComplete => Sys2Proof.Machine.execDrainComplete s
  | .releaseDrainComplete => Sys2Proof.Machine.execReleaseDrainComplete s
  | .remoteFlagArrival => Sys2Proof.Machine.execRemoteFlagArrival s
  | .lateDataArrival => Sys2Proof.Machine.execLateDataArrival s
  | .pageWalkComplete => Sys2Proof.Machine.execPageWalkComplete s
  | .deferredCauseCharge => Sys2Proof.Machine.execDeferredCauseCharge s
  | .inboundRemoteWrite => Sys2Proof.Machine.execInboundRemoteWrite s
  | .accumulateArrival => Sys2Proof.Machine.execAccumulateArrival s
  | .neighbourMessageArrival => Sys2Proof.Machine.execNeighbourMessageArrival s
  | .carryMessageArrival => Sys2Proof.Machine.execCarryMessageArrival s
  | .granuleDecode => Sys2Proof.Machine.execGranuleDecode s
  | .sliceRequest => Sys2Proof.Machine.execSliceRequest s
  | .atomicExecution => Sys2Proof.Machine.execAtomicExecution s
  | .memoryControllerIssue => Sys2Proof.Machine.execMemoryControllerIssue s
  | .packetRoute => Sys2Proof.Machine.execPacketRoute s
  | .goldenEpoch => Sys2Proof.Machine.execGoldenEpoch s
  | .multicastAck => Sys2Proof.Machine.execMulticastAck s
  | .multicastAckTimeout => Sys2Proof.Machine.execMulticastAckTimeout s
  | .reductionPacketArrival => Sys2Proof.Machine.execReductionPacketArrival s
  | .contributorTimeout => Sys2Proof.Machine.execContributorTimeout s
  | .abortNotice => Sys2Proof.Machine.execAbortNotice s
  | .creditGrant => Sys2Proof.Machine.execCreditGrant s
  | .chunkArrival => Sys2Proof.Machine.execChunkArrival s
  | .chunkComplete => Sys2Proof.Machine.execChunkComplete s
  | .xplanDerivationComplete => Sys2Proof.Machine.execXplanDerivationComplete s
  | .collectiveCreditTimeout => Sys2Proof.Machine.execCollectiveCreditTimeout s
  | .collectivePeerTimeout => Sys2Proof.Machine.execCollectivePeerTimeout s
  | .scanSubmission => Sys2Proof.Machine.execScanSubmission s
  | .blockCarryArrival => Sys2Proof.Machine.execBlockCarryArrival s
  | .scanRoundTimeout => Sys2Proof.Machine.execScanRoundTimeout s
  | .arrivalStart => Sys2Proof.Machine.execArrivalStart s
  | .arrivalComplete => Sys2Proof.Machine.execArrivalComplete s
  | .evictionComplete => Sys2Proof.Machine.execEvictionComplete s
  | .lacqTimeout => Sys2Proof.Machine.execLacqTimeout s
  | .poolChangeComplete => Sys2Proof.Machine.execPoolChangeComplete s
  | .landingOverdue => Sys2Proof.Machine.execLandingOverdue s
  | .freezeWatchdog => Sys2Proof.Machine.execFreezeWatchdog s
  | .drainLimit => Sys2Proof.Machine.execDrainLimit s
  | .holdWatchdog => Sys2Proof.Machine.execHoldWatchdog s
  | .acommitArrivalTimeout => Sys2Proof.Machine.execAcommitArrivalTimeout s
  | .phaseBoundExceeded => Sys2Proof.Machine.execPhaseBoundExceeded s
  | .ownerLapse => Sys2Proof.Machine.execOwnerLapse s
  | .reset => Sys2Proof.Machine.execReset s
  | .wipeComplete => Sys2Proof.Machine.execWipeComplete s
  | .invalidateAcknowledged => Sys2Proof.Machine.execInvalidateAcknowledged s

end Sys2Proof.Machine
end

