-- ==== Sys2Proof/Machine/Step.lean ====
section
/-! DEFINITION. One step of the machine, and placing an instruction where the next step fetches it. -/

namespace Sys2Proof.Machine

/-- One step: one slot of a repetition, one event, or the end of a ck. -/
def step (s : State) : Host.Outcome State Fault Refusal :=
  match todo s with
  | .run s' i => exec i s'
  | .done s' => .next s'
  | .stop => .fault .poweredDown

/-- The seat that runs a placed instruction: the whole of a core's windows, and no node. -/
def placedSeat : Seat := {
  st := .run, pc := 0x10000, lrec := { xn := 32, vn := 64, gn := 256, an := 8, bn := 4, hn := 8, ln := 32, fcnt := 512 } }

/-- The translation of the page that holds the placed bundle: executable, readable and writable, at local address 0x10000. -/
def placedPage : TlbEnt := { img := 0, base := 0x10000, bits := 16, leaf := 0x1005F, ent := 0 }

/-- A state whose next step runs one instruction: seat 0 of core 0 is placed in RUN with a whole core's windows and presents a bundle
of that one slot at 0x10000; nothing else is due on its core, or in this ck before it. (DESIGN CHOICE, log 1) -/
def State.withFetchWord (s : State) (nbits w : Nat) : State :=
  let w0 := w % 2 ^ nbits % 2 ^ 32
  let e := tableExt (w % 2 ^ nbits)
  let sl := match tableSlot w0 e with | some x => x.1 | none => .s
  let hd := encodeHeader { pm := BitVec.ofNat 6 (2 ^ sl.idx), rr := false, rpt := 0, stall := 0, sclr := false }
  let h := s.hw
  let co := h.core 0
  { s with
    pre := none, cur := {},
    hw := { h with
      mem := Memory.write h.mem (writeNat 0x10000 4 hd ++ writeNat 0x10004 4 w0 ++ writeNat 0x10008 4 (e.getD 0)),
      seats := SMap.insert (SMap.erase h.seats 1) 0 placedSeat,
      cores := SMap.insert h.cores 0 { co with frzFrom := 0, landings := [], l1 := [], tlb := placedPage :: co.tlb },
      glob := { h.glob with agenda := h.glob.agenda.filter (fun e => decide (h.glob.now < e.1)), seatKey := 0, seatAt := 0 } } }

end Sys2Proof.Machine
end

