-- ==== Sys2Proof/Safety.lean ====
section
/-! DEFINITION. What counts as a safe run, and the terms that claims about single steps are stated in. -/

namespace Sys2Proof.Machine

/-- The invariant of memory: addresses rise and no zero byte is listed. -/
def State.MemOk (s : State) : Prop := Memory.wf s.hw.mem = true ∧ ∀ h, s.pre = some h → Memory.wf h.mem = true

/-- A step is safe when it does not stop the machine. -/
def State.StepSafe (s : State) : Prop := ∃ t, step s = .next t

/-- The hardware that the slots of the repetition in flight read (R141). -/
def State.before (s : State) : Hw := s.pre.getD s.hw

/-- The seat whose repetition is in flight. -/
def State.me (s : State) : Seat := s.hw.seat s.cur.seat

/-- The core time of that seat. -/
def State.coreTime (s : State) : Nat := s.hw.coreT (coreOf s.cur.seat)

/-- A repetition with one slot operation, in slot sl, is in flight and has raised nothing; CHKMODE is off, and no break is pending. -/
structure State.Clean (s : State) (sl : Slot) : Prop where
  one : s.cur.slots.length ≤ 1
  slot : s.cur.head.slot = sl
  pre : s.before = s.hw
  causes : s.cur.causes = []
  pin : s.cur.stallPin = none
  plain : s.cur.after = 0 ∧ s.cur.target = none ∧ s.cur.push = none
  chk : s.me.chkmode = false
  brk : s.me.brk = false
  mpc : s.cur.mpcSet = false

/-- A register number lies below XN (R188). -/
def State.HasX (s : State) (r : XNum) : Prop := r.toNat < s.me.lrec.xn

/-- A register of a seat, as a 2048-bit image. -/
def Seat.reg (x : Seat) (q : Port × Nat) : BitVec 2048 :=
  match q.1 with
  | .x => (x.xr q.2).setWidth 2048
  | .v => x.vr q.2
  | .o => (x.or q.2).setWidth 2048
  | .y => x.yr q.2
  | .k => (x.kr q.2).setWidth 2048

/-- No result is on its way to a register. -/
def Seat.Idle (x : Seat) (q : Port × Nat) : Prop := ∀ p ∈ x.pend, p.hits q = false

/-- Seat b is seat a, but for its register files, the results on their way, the sticky records and the sequencer's position. -/
def Seat.Rest (a b : Seat) : Prop :=
  b = { a with
    x := b.x, v := b.v, o := b.o, y := b.y, k := b.k, pend := b.pend, sticky := b.sticky, pc := b.pc, loops := b.loops, repOn := b.repOn
    repJ := b.repJ, repN := b.repN, nextIssue := b.nextIssue, stallW := b.stallW, issueNo := b.issueNo, loss := b.loss
    holdFrom := b.holdFrom, holdWhy := b.holdWhy, boundAt := b.boundAt }

/-- What a completed repetition leaves: outside the seats the hardware is g; every other seat is as it was; the seat is a, but for what
`Seat.Rest` names; every register outside w to which nothing was on its way is as it was; every byte of memory is as it was. -/
structure State.Leaves (s t : State) (g : Hw) (a : Seat) (w : List (Port × Nat)) : Prop where
  hw : t.hw = { g with seats := t.hw.seats }
  seats : ∀ k, k ≠ s.cur.seat → t.hw.seat k = s.hw.seat k
  seat : Seat.Rest a (t.hw.seat s.cur.seat)
  regs : ∀ q, q ∉ w → s.me.Idle q → (t.hw.seat s.cur.seat).reg q = s.me.reg q
  bytes : ∀ x, Memory.read t.hw.mem x = Memory.read s.hw.mem x
  done : t.pre = none ∧ t.cur = {}

/-- Core b is core a, but for what holds its paths, items and banks. -/
def Core.Rest (a b : Core) : Prop := b = { a with path := b.path, rd := b.rd, wr := b.wr, mma := b.mma, banks := b.banks }

/-- The core of the seat in flight. -/
def State.myCore (s : State) : Core := s.hw.core (coreOf s.cur.seat)

/-- What a completed repetition leaves whose effects are in its own core and seat: the core is co, but for what `Core.Rest` names; the seat
is a, but for what `Seat.Rest` names; every other core and seat, every register outside w to which nothing was on its way, every byte of
memory and everything else of the hardware is as it was. -/
structure State.LeavesCore (s t : State) (co : Core) (a : Seat) (w : List (Port × Nat)) : Prop where
  hw : t.hw = { s.hw with seats := t.hw.seats, cores := t.hw.cores }
  cores : ∀ n, n ≠ coreOf s.cur.seat → t.hw.core n = s.hw.core n
  core : Core.Rest co (t.hw.core (coreOf s.cur.seat))
  seats : ∀ k, k ≠ s.cur.seat → t.hw.seat k = s.hw.seat k
  seat : Seat.Rest a (t.hw.seat s.cur.seat)
  regs : ∀ q, q ∉ w → s.me.Idle q → (t.hw.seat s.cur.seat).reg q = s.me.reg q
  bytes : ∀ x, Memory.read t.hw.mem x = Memory.read s.hw.mem x
  done : t.pre = none ∧ t.cur = {}

/-- The seat after warnings. -/
def Seat.warned (s : Seat) (b : BitVec 8) : Seat := { s with warn := s.warn ||| b }

/-- The pending write of a vector result. -/
def vPend (c : Ctx) (d : VSpec) (o : Int) (m : W64) (v : BitVec 2048) (lat : Nat) : Pend :=
  { port := if d.toNat < 64 then .v else .o, reg := if d.toNat < 64 then (stepSpec d o).toNat else d.toNat - 64,
    val := v, lmask := m, yu := some (vUnit c), due := c.t + lat, order := c.order }

/-- The pending write of a lane mask. -/
def kPend (c : Ctx) (d : Nat) (v : W64) (lat : Nat) : Pend :=
  { port := .k, reg := d, val := BitVec.ofNat 2048 v.toNat, lmask := allLanes, yu := none, due := c.t + lat, order := c.order }

end Sys2Proof.Machine
end

