-- ==== Sys2Proof/Certificates/Slice0/Obligations.lean ====
section
/-! DEFINITION. The statements about the model. -/

namespace Sys2Proof.Claim
open Sys2Proof.Machine

/-- A register form at its operand width (R192): with W the operation runs on the low 32 bits and its result is sign-extended. -/
def wide (w : Bool) (f : (n : Nat) → BitVec n → BitVec n → BitVec n) (x y : W64) : W64 :=
  if w then (f 32 (x.setWidth 32) (y.setWidth 32)).signExtend 64 else f 64 x y

/-- The register forms whose result is written in the ck of issue, and their results (R190, R192). CLZ and POPC read xa alone. -/
def aluForms (d a b : XNum) (w : Bool) : List (Instr × (W64 → W64 → W64)) := [
  (.add ⟨d, a, b, w⟩, wide w (fun _ x y => x + y)),
  (.sub ⟨d, a, b, w⟩, wide w (fun _ x y => x - y)),
  (.and_ ⟨d, a, b, w⟩, wide w (fun _ x y => x &&& y)),
  (.or_ ⟨d, a, b, w⟩, wide w (fun _ x y => x ||| y)),
  (.xor_ ⟨d, a, b, w⟩, wide w (fun _ x y => x ^^^ y)),
  (.shl ⟨d, a, b, w⟩, wide w (fun n x y => x <<< (y.toNat % n))),
  (.shr ⟨d, a, b, w⟩, wide w (fun n x y => x >>> (y.toNat % n))),
  (.sra ⟨d, a, b, w⟩, wide w (fun n x y => x.sshiftRight (y.toNat % n))),
  (.slt ⟨d, a, b, w⟩, wide w (fun n x y => if x.toInt < y.toInt then BitVec.ofNat n 1 else 0)),
  (.sltu ⟨d, a, b, w⟩, wide w (fun n x y => if x.toNat < y.toNat then BitVec.ofNat n 1 else 0)),
  (.min_ ⟨d, a, b, w⟩, wide w (fun _ x y => if x.toInt < y.toInt then x else y)),
  (.max_ ⟨d, a, b, w⟩, wide w (fun _ x y => if x.toInt < y.toInt then y else x)),
  (.minu ⟨d, a, b, w⟩, wide w (fun _ x y => if x.toNat < y.toNat then x else y)),
  (.maxu ⟨d, a, b, w⟩, wide w (fun _ x y => if x.toNat < y.toNat then y else x)),
  (.adds ⟨d, a, b, w⟩, wide w (fun n x y => BitVec.ofInt n (max (-2 ^ (n - 1)) (min (2 ^ (n - 1) - 1) (x.toInt + y.toInt))))),
  (.subs ⟨d, a, b, w⟩, wide w (fun n x y => BitVec.ofInt n (max (-2 ^ (n - 1)) (min (2 ^ (n - 1) - 1) (x.toInt - y.toInt))))),
  (.seq ⟨d, a, b, w⟩, wide w (fun n x y => if x = y then BitVec.ofNat n 1 else 0)),
  (.sne ⟨d, a, b, w⟩, wide w (fun n x y => if x = y then 0 else BitVec.ofNat n 1)),
  (.addx ⟨d, a, b, w⟩, wide w (fun n x y => x + BitVec.ofNat n (y.toNat % 2 ^ 32))),
  (.clz ⟨d, a, w⟩, wide w (fun n x _ => BitVec.ofNat n ((List.range n).takeWhile (fun i => !x.getMsbD i)).length)),
  (.popc ⟨d, a, w⟩, wide w (fun n x _ => BitVec.ofNat n ((List.range n).filter (fun i => x.getLsbD i)).length))]

/-- The multiplies, whose result is written two ck after issue (R190, R192). -/
def mulForms (d a b : XNum) (w : Bool) : List (Instr × (W64 → W64 → W64)) := [
  (.mul ⟨d, a, b, w⟩, wide w (fun _ x y => x * y)),
  (.mulh ⟨d, a, b, w⟩, wide w (fun n x y => BitVec.ofInt n (x.toInt * y.toInt / 2 ^ n))),
  (.mulhu ⟨d, a, b, w⟩, wide w (fun n x y => BitVec.ofNat n (x.toNat * y.toNat / 2 ^ n)))]

/-- The divides, whose result is written seventeen ck after issue (R190, R193). -/
def divForms (d a b : XNum) (w : Bool) : List (Instr × (W64 → W64 → W64)) := [
  (.div ⟨d, a, b, w⟩, wide w (fun _ x y => x.sdiv y)),
  (.divu ⟨d, a, b, w⟩, wide w (fun _ x y => x / y)),
  (.rem ⟨d, a, b, w⟩, wide w (fun _ x y => x.srem y)),
  (.remu ⟨d, a, b, w⟩, wide w (fun _ x y => x % y))]

/-- The part of a register that a divide takes as its divisor or dividend. -/
def divPart (w : Bool) (x : W64) : W64 := if w then (x.setWidth 32).setWidth 64 else x

/-- The value of an immediate as a 64-bit image (R194). -/
def immVal {n : Nat} : Imm n → W64
  | .short v => v.signExtend 64
  | .long v => v.signExtend 64

/-- The immediate forms, and their results (R194). LI takes no register. -/
def immForms (d a : XNum) (i : Imm 14) : List (Instr × (W64 → W64)) := [
  (.addi ⟨d, a, i⟩, fun x => x + immVal i),
  (.andi ⟨d, a, i⟩, fun x => x &&& immVal i),
  (.ori ⟨d, a, i⟩, fun x => x ||| immVal i),
  (.xori ⟨d, a, i⟩, fun x => x ^^^ immVal i),
  (.shli ⟨d, a, i⟩, fun x => x <<< ((immVal i).toNat % 64)),
  (.shri ⟨d, a, i⟩, fun x => x >>> ((immVal i).toNat % 64)),
  (.srai ⟨d, a, i⟩, fun x => x.sshiftRight ((immVal i).toNat % 64)),
  (.slti ⟨d, a, i⟩, fun x => if x.slt (immVal i) then 1 else 0),
  (.sltiu ⟨d, a, i⟩, fun x => if x.ult (immVal i) then 1 else 0),
  (.lih ⟨d, a, i⟩, fun x => (immVal i).extractLsb' 0 32 ++ x.extractLsb' 0 32),
  (.li d i, fun _ => immVal i)]

/-- The branches, and when they are taken (R195). -/
def branchForms (a b : XNum) (off : Imm 14) : List (Instr × (W64 → W64 → Bool)) := [
  (.beq ⟨a, b, off⟩, fun x y => x == y),
  (.bne ⟨a, b, off⟩, fun x y => x != y),
  (.blt ⟨a, b, off⟩, fun x y => x.slt y),
  (.bge ⟨a, b, off⟩, fun x y => !x.slt y),
  (.bltu ⟨a, b, off⟩, fun x y => x.ult y),
  (.bgeu ⟨a, b, off⟩, fun x y => !x.ult y)]

/-- The target of a branch of the bundle in flight: its address plus four times the offset, modulo 2^56 (R195). -/
def target {n : Nat} (s : State) (off : Imm n) : W64 := ((BitVec.ofNat 56 s.cur.pc) + ((immVal off).setWidth 56) * 4).setWidth 64

/-- The address of the first word after the bundle in flight. -/
def following (s : State) : W64 := BitVec.ofNat 64 ((s.cur.pc + s.cur.len) % 2 ^ 56)

/-- The registers of a seat that CSRW, CSRS and CSRC write bit by bit, and the bits that they hold (R67 to R73). -/
def csrBits : List (Nat × W64) := [
  (0x10, 3), (0x11, 1), (0x14, 0x00FFFFFFFFFFFFF8), (0x18, 0xFFFFFFFFFFFFFFFF), (0x20, 0x00FFFFFFFFFFFFFC), (0x21, 0xFFFF3F00000001FF),
  (0x22, 0x00FFFFFFFFFFFFFC), (0x23, 0xFFFFFFFFFFFFFFFF)]

/-- The counts of window accumulators (R69). -/
def csrCounts : List Nat := [0x40, 0x41, 0x42, 0x43, 0x44, 0x45, 0x46, 0x47, 0x48, 0x49, 0x4A, 0x4B, 0x4C, 0x4D, 0x4E, 0x4F]

/-- The read-modify-write forms of the control registers (R205). -/
def csrForms (d a : XNum) (n : BitVec 14) : List (Instr × (W64 → W64 → W64)) := [
  (.csrw ⟨d, a, n⟩, fun _ x => x), (.csrs ⟨d, a, n⟩, fun o x => o ||| x), (.csrc ⟨d, a, n⟩, fun o x => o &&& ~~~x)]

/-- Seat a with the control registers of seat b. -/
def withCsrs (a b : Seat) : Seat := { a with
  seatpri := b.seatpri, chkmode := b.chkmode, warn := b.warn, lddef := b.lddef, cpdef := b.cpdef, mpc := b.mpc, scangrp := b.scangrp
  tvec := b.tvec, tcause := b.tcause, tpc := b.tpc, tval := b.tval, accev := b.accev, acctr := b.acctr }

/-- A packet carries an event: to its unit, to one of its destinations, or beyond the port that it goes to. -/
def Carries (p : Packet) (e : Event) : Prop := p.deliver = .event e ∨ (∃ d ∈ p.subs, d.2 = .event e) ∨ ∃ d ∈ p.out, d.2 = .event e

/-- An event is on its way to its unit: it stands in the agenda, or a packet that carries it has been given to a router or to the port of a
link. -/
def Sent (h : Hw) (e : Event) : Prop :=
  (∃ T, (T, e) ∈ h.glob.agenda) ∨ (∃ c, ∃ p ∈ (h.cluster c).inj, Carries p e) ∨ ∃ k n, ∃ p ∈ (SMap.get {} (h.pkg k).links n).q, Carries p e

/-- Of the packages nothing but what waits at the ports of their links is changed. -/
def PortsOnly (h g : Hw) : Prop := ∀ n, g.pkg n = { h.pkg n with links := (g.pkg n).links }

/-- Package q can be reached from the seat's, and cluster c is in no partition under reset. -/
def Open (s : State) (q c : Nat) : Prop := reachable s.hw (pkgOfCore (coreOf s.cur.seat)) q = true ∧ isFenced s.hw c = false

/-- Nothing of the seat is outstanding, so a release has nothing to drain. -/
def Quiet (s : State) : Prop := ∀ e ∈ s.hw.accs, e.2.seat ≠ s.cur.seat

/-- The queue of the seat's cluster that a register names. -/
def queue (h : Hw) (s : State) (a : XNum) : Queue :=
  SMap.get {} (h.cluster (domCl (coreOf s.cur.seat))).queues ((s.me.xr a.toNat).toNat % 256)

/-- The registers of a record are there (R207). -/
def HasRecord (s : State) (b : XNum) : Prop := b.toNat + 7 < min s.me.lrec.xn 32

/-- A flag of the seat's range (R63). -/
def HasFlag (s : State) (n : BitVec 9) : Prop := s.me.lrec.fbase ≤ n.toNat ∧ n.toNat < s.me.lrec.fbase + s.me.lrec.fcnt

/-- The value of a flag of the seat's core once the operations queued for this ck are done (R64). -/
def flagAfter (h : Hw) (s : State) (n : BitVec 9) : BitVec 16 := SMap.get 0 (h.core (coreOf s.cur.seat)).doFlags.flags n.toNat

/-- Cached translation e goes under TLBINV of x and va (R221). -/
def invalidated (x : W64) (va : Nat) (e : TlbEnt) : Prop :=
  (x.getLsbD 4 = true ∨ e.img = x.toNat % 16) ∧ (x.getLsbD 5 = true ∨ va / 2 ^ e.bits = e.base / 2 ^ e.bits)

/-- The causes that stop a scalar form before it has any effect: the form, when it raises the cause, the cause's code and TVAL (R188, R193, R196,
R205, R221, R382, R387, R403). -/
def causeForms (s : State) (d a b : XNum) (w : Bool) (i : Imm 14) (n : BitVec 14) : List (Instr × Prop × Nat × W64) :=
  let x := s.me.xr a.toNat
  let sys := isSys (coreOf s.cur.seat) = true;
  (divForms d a b w).map (fun g => (g.1, s.HasX d ∧ s.HasX a ∧ s.HasX b ∧ divPart w (s.me.xr b.toNat) = 0, 0x058, divPart w x)) ++ [
  (.jalr ⟨d, a, i⟩, s.HasX d ∧ s.HasX a ∧ (x + immVal i).toNat % 4 ≠ 0 ∧ x + immVal i ≠ 1, 0x01C, x + immVal i),
  (.csrr d n, s.HasX d ∧ n.toNat < 0x3000 ∧ csrRead s.hw s.cur.seat n.toNat = none, 0x1A0, 0),
  (.csrr d n, s.HasX d ∧ 0x3000 ≤ n.toNat ∧ ¬sys, 0x1A1, 0),
  (.csrw ⟨d, a, n⟩, s.HasX d ∧ s.HasX a ∧ 0x3000 ≤ n.toNat ∧ ¬sys, 0x1A1, 0),
  (.eret, True, 0x1A4, 0),
  (.tlbinv a b, s.HasX a ∧ s.HasX b ∧ ¬sys, 0x1A2, 0),
  (.ttinv, ¬sys, 0x1A2, 0),
  (.wipe d a, s.HasX d ∧ s.HasX a ∧ ¬sys, 0x1A2, 0),
  (.add ⟨d, a, b, w⟩, ¬s.HasX d, 0x024, BitVec.ofNat 64 d.toNat),
  (.ld ⟨d, a, 0, false, .short 0⟩, s.HasX d ∧ ¬s.HasX a ∧ s.myCore.tlb = [], 0x024, BitVec.ofNat 64 a.toNat),
  (.yield, hasWindow s.hw s.cur.seat = true, 0x027, match seatWindow s.hw s.cur.seat with | none => 0 | some v => BitVec.ofNat 64 (v.acc + 2 ^ 8))]

/-- Element e of width w of lane n. -/
def el (w : Nat) (x : BitVec 2048) (n e : Nat) : BitVec w := x.extractLsb' (32 * n + w * e) w

/-- Lane n. -/
def ln (x : BitVec 2048) (n : Nat) : BitVec 32 := el 32 x n 0

/-! ### Flat accesses -/

/-- Every package of the domain can be reached, the core's cached translations, the roots of the page tables and the seat's outstanding accesses
lead into the domain, and no partition is under reset. -/
def Healthy (s : State) : Prop :=
  (∀ q < s.hw.glob.npkg, reachable s.hw (pkgOfCore (coreOf s.cur.seat)) q = true) ∧
  (∀ e ∈ s.myCore.tlb, ∀ va, paUnder e va / 2 ^ 46 < s.hw.glob.npkg) ∧
  (∀ img, let im := SMap.get {} (s.hw.pkg (pkgOfCore (coreOf s.cur.seat))).images img; ∀ n < 2 ^ im.rootn, (im.troot + 8 * n) / 2 ^ 46 < s.hw.glob.npkg) ∧
  (∀ e ∈ s.hw.accs, e.2.seat = s.cur.seat → ∀ p ∈ e.2.parts, p.pa / 2 ^ 46 < s.hw.glob.npkg) ∧ ∀ p, (s.hw.pkg p).fenced = []

/-- The part of an access that its form decides: where, how much, and the bytes to write. -/
def asked (p : Part) : Nat × Nat × Nat × List (Nat × Byte) := (p.va, p.off, p.len, p.wdata)

/-- Access a stands under the next number, issued: its parts translate, wait for a walk or are on their way. -/
def Issued (s t : State) (a : Access) : Prop :=
  ∃ e, t.hw.acc? s.hw.glob.nextId = some e ∧ e = { a with parts := e.parts } ∧ e.parts.map asked = a.parts.map asked

/-- A result on its way that waits for an access. -/
def Awaits (s t : State) (p : Pend) : Prop := { p with acc := some s.hw.glob.nextId } ∈ (t.hw.seat s.cur.seat).pend

/-- What requests on their way change outside the seats and cores: where they stand in the units, what the slices hold, the walks, the agenda and
the numbers of accesses. -/
structure Carried (s t : State) : Prop where
  clusters : ∀ n, t.hw.cluster n = { s.hw.cluster n with
    inj := (t.hw.cluster n).inj, sliceQ := (t.hw.cluster n).sliceQ, slice := (t.hw.cluster n).slice, nbuf := (t.hw.cluster n).nbuf
    nres := (t.hw.cluster n).nres, nfree := (t.hw.cluster n).nfree }
  dies : ∀ n, t.hw.die n = { s.hw.die n with
    walks := (t.hw.die n).walks, walkQ := (t.hw.die n).walkQ, chanFree := (t.hw.die n).chanFree, chanQ := (t.hw.die n).chanQ
    chanOpen := (t.hw.die n).chanOpen }
  glob : t.hw.glob = { s.hw.glob with nextId := t.hw.glob.nextId, agenda := t.hw.glob.agenda }

/-- What the issue of a flat access leaves: the seat's warnings, its core but for the lines and translations that it has cached, every register
outside w and every byte; of the packages what waits at their ports. -/
def FlatLeaves (s t : State) (a : Seat) (w : List (Port × Nat)) : Prop :=
  s.Leaves t { s.hw with
    cores := t.hw.cores, clusters := t.hw.clusters, dies := t.hw.dies, accs := t.hw.accs, glob := t.hw.glob, pkgs := t.hw.pkgs } a w ∧
  Carried s t ∧ PortsOnly s.hw t.hw ∧ (∀ n, n ≠ coreOf s.cur.seat → t.hw.core n = s.hw.core n) ∧
  Core.Rest { s.myCore with l1 := (t.hw.core (coreOf s.cur.seat)).l1, tlb := (t.hw.core (coreOf s.cur.seat)).tlb } (t.hw.core (coreOf s.cur.seat))

/-- The address of S.M: xa plus the offset, modulo 2^56 (R199). -/
def scalarVa (s : State) (f : FSM) : Nat :=
  ((s.me.xr f.a.toNat + (match f.off with | .short o => o.signExtend 64 | .long _ o => o.signExtend 64)).setWidth 56).toNat

/-- The landing offset: the field, or the default when it is 0 (R72). -/
def landing (s : State) (l : Nat) : Nat := if l = 0 then s.me.lddef else l

/-- The atomics and what they do (R203). -/
def atomicForms (f : FSA) : List (Instr × AmoOp) := [
  (.amoadd f, .add), (.amoand f, .and), (.amoor f, .or), (.amoxor f, .xor), (.amomin f, .min), (.amomax f, .max), (.amominu f, .minu),
  (.amomaxu f, .maxu), (.amoswap f, .swap), (.amocas f, .cas), (.amofadd f, .fadd)]

/-- The lanes of a flat vector form and their addresses: the active lanes n of K at base + 4n, or at base + the zero-extended lane n of vI (R239). -/
def vecLanes (s : State) (f : FVM) (idx : Bool) : List (Nat × Nat) :=
  ((List.range 64).filter (fun n => (s.me.kr f.k.toNat).getLsbD n)).map (fun n =>
    (n, ((s.me.xr f.a.toNat + (match f.ext with | none => 0 | some x => x.off.signExtend 64)).setWidth 56 +
      (if idx then (ln (vOp (ctxOf s) f.vi 0) n).setWidth 56 else BitVec.ofNat 56 (4 * n))).toNat))

/-! ### Vectors -/

/-- The low w bits of an integer, saturated first when sat holds (R229). -/
def satTo (w : Nat) (sat : Bool) (x : Int) : BitVec w := BitVec.ofInt w (if sat then max (-2 ^ (w - 1)) (min (2 ^ (w - 1) - 1) x) else x)

/-- The integer forms: write ck after issue, and the result of an element (R228, R229). -/
def intForms (f : FVR) : List (Instr × Nat × ((w : Nat) → Bool → BitVec w → BitVec w → BitVec w → BitVec w)) := [
  (.vadd f, 1, fun w sat a b _ => satTo w sat (a.toInt + b.toInt)),
  (.vsub f, 1, fun w sat a b _ => satTo w sat (a.toInt - b.toInt)),
  (.vmul f, 3, fun w sat a b _ => satTo w sat (a.toInt * b.toInt)),
  (.vmulh f, 3, fun w _ a b _ => BitVec.ofInt w (a.toInt * b.toInt / 2 ^ w)),
  (.vand f, 1, fun _ _ a b _ => a &&& b),
  (.vor f, 1, fun _ _ a b _ => a ||| b),
  (.vxor f, 1, fun _ _ a b _ => a ^^^ b),
  (.vshl f, 1, fun w sat a b _ => satTo w sat (a.toInt * 2 ^ (b.toNat % w))),
  (.vshr f, 1, fun w _ a b _ => a >>> (b.toNat % w)),
  (.vsra f, 1, fun w _ a b _ => a.sshiftRight (b.toNat % w)),
  (.vmin f, 1, fun _ _ a b _ => if a.toInt < b.toInt then a else b),
  (.vmax f, 1, fun _ _ a b _ => if a.toInt < b.toInt then b else a),
  (.vabs f, 1, fun w sat a _ _ => satTo w sat (a.toInt.natAbs : Int)),
  (.vmad f, 3, fun w sat a b d => satTo w sat (a.toInt * b.toInt + d.toInt))]

/-- The float forms: write ck after issue, and the result of an element image in a format (R228, R230). -/
def floatForms (f : FVR) : List (Instr × Nat × (FFmt → RM → Nat → Nat → Nat → Nat)) := [
  (.vfadd f, 3, fun g r a b _ => g.add r a b),
  (.vfsub f, 3, fun g r a b _ => g.sub r a b),
  (.vfmul f, 3, fun g r a b _ => g.mul r a b),
  (.vfma f, 3, fun g r a b d => g.fma r a b d),
  (.vfmin f, 1, fun g _ a b _ => g.minmax false a b),
  (.vfmax f, 1, fun g _ a b _ => g.minmax true a b),
  (.vfneg f, 1, fun g _ a _ _ => g.negate a),
  (.vfrcp f, 9, fun g r a _ _ => g.divV r (.fin false 1 0) (g.decode a)),
  (.vfrsq f, 9, fun g r a _ _ => g.rsqrtV r (g.decode a)),
  (.vfexp2 f, 9, fun g r a _ _ => g.exp2V r (g.decode a)),
  (.vflog2 f, 9, fun g r a _ _ => g.log2V r (g.decode a)),
  (.vfdiv f, 15, fun g r a b _ => g.divV r (g.decode a) (g.decode b)),
  (.vfsqrt f, 15, fun g r a _ _ => g.sqrtV r (g.decode a))]

/-- The integer conditions of VCMP (R231). -/
def intCond : Nat → BitVec 32 → BitVec 32 → Bool
  | 0, a, b => a == b
  | 1, a, b => a != b
  | 2, a, b => a.slt b
  | 3, a, b => a.sle b
  | 4, a, b => b.slt a
  | 5, a, b => b.sle a
  | 6, a, b => a.ult b
  | _, a, b => b.ule a

/-- The forms that write a lane mask one ck after issue, and bit n of what they write (R231, R232). -/
def maskForms (f : FVR) : List (Instr × (VIn → Nat → Bool)) := [
  (.vcmp f, fun v n => v.m.getLsbD n && intCond v.x.cc.toNat (ln v.a n) (ln v.b n)),
  (.vfcmp f, fun v n => v.m.getLsbD n &&
    fltCc v.x.cc.toNat (FVal.cmp (fp32.decode (ln v.a n).toNat) (fp32.decode (ln v.b n).toNat))),
  (.kand f, fun v n => v.ka.getLsbD n && v.kb.getLsbD n),
  (.kor f, fun v n => v.ka.getLsbD n || v.kb.getLsbD n),
  (.kxor f, fun v n => v.ka.getLsbD n != v.kb.getLsbD n),
  (.knot f, fun v n => !v.ka.getLsbD n)]

/-- Elements that VPACK gathers in element e of lane n (R234). -/
def packed (w : Nat) (v : VIn) (n e : Nat) : BitVec w :=
  let q := 32 / w
  if n < 64 / q then el w v.a (q * n + e) 0
  else if n < 2 * (64 / q) then el w v.b (q * (n - 64 / q) + e) 0
  else el w v.d n e

/-- The lane that VUNPACK writes at n (R235). -/
def unpacked (w : Nat) (f : FVR) (v : VIn) (n : Nat) : BitVec 32 :=
  let q := 32 / w
  let e := 64 * (f.b.toNat % q) + n
  if f.b.toNat.testBit (Nat.log2 q) then (el w v.a (e / q) (e % q)).setWidth 32 else (el w v.a (e / q) (e % q)).signExtend 32

/-- The forms that move lanes: write ck after issue, the mask they write under, and lane n of the result (R232 to R236, R243). -/
def laneForms (f : FVR) : List (Instr × Nat × (VIn → W64) × (VIn → Nat → BitVec 32)) := [
  (.vcvt f, 3, VIn.m, fun v n => BitVec.ofNat 32 (convLane f.b.toNat v.rm (ln v.a n).toNat)),
  (.vunpack f, 3, VIn.m, fun v n => unpacked v.w f v n),
  (.vshuf f, 2, VIn.m, fun v n => ln v.a ((ln v.b n).toNat % 64)),
  (.vbcast f, 2, VIn.m, fun v _ => ln v.a ((ln v.b 0).toNat % 64)),
  (.vslide f, 2, VIn.m, fun v n => let j := (n : Int) + (ln v.b 0).toInt
    if 0 ≤ j ∧ j < 64 then ln v.a j.toNat else 0),
  (.vselk f, 1, fun _ => allLanes, fun v n => if v.m.getLsbD n then ln v.a n else ln v.b n),
  (.kpopc f, 2, fun _ => allLanes, fun v _ => BitVec.ofNat 32 ((List.range 64).filter (fun n => v.ka.getLsbD n)).length)]

/-- The lane reductions: what an empty mask gives, and the operation of a node of the tree (R237). -/
def reduceForms (f : FVR) : List (Instr × (VIn → Nat) × (VIn → Nat → Nat → Nat)) := [
  (.vradd f, fun _ => 0, fun v a b => (satTo v.w (v.x.sat) ((BitVec.ofNat v.w a).toInt + (BitVec.ofNat v.w b).toInt)).toNat),
  (.vrmax f, fun v => 2 ^ (v.w - 1), fun v a b => if (BitVec.ofNat v.w a).toInt < (BitVec.ofNat v.w b).toInt then b else a),
  (.vrmin f, fun v => 2 ^ (v.w - 1) - 1, fun v a b => if (BitVec.ofNat v.w b).toInt < (BitVec.ofNat v.w a).toInt then b else a),
  (.vrfadd f, fun _ => 0, fun v a b => v.fmt.add v.rm a b)]

/-- What a form that writes vector register results leaves beside them: its warnings alone. -/
def VectorLeaves (s t : State) (i : Instr) (f : FVR) (no32 : Bool) : Prop :=
  s.LeavesCore t s.myCore (s.me.warned (vrWarn f (vuOf i) false no32)) []

/-! ### Tile store and matrix unit -/

/-- The four bytes at a tile-store address of the seat (R240). -/
def tileAt (co : Core) (s : State) (a : Nat) : BitVec 32 :=
  ((SMap.get 0 co.tile (tsWord (ctxOf s) a)) >>> (8 * (a % 8))).setWidth 32

/-- The core with the tile store, sidecars and marks of another. -/
def withTile (a b : Core) : Core := { a with tile := b.tile, side := b.side, touched := b.touched }

/-- The seat after a matrix operation: MPC moves on (R170), and warnings stand in WARN. -/
def stepped (s : State) (b : BitVec 8) : Seat := { s.me.warned b with mpc := BitVec.ofNat 64 ((s.me.mpc.toNat + 8) % 2 ^ 56) }

/-- The contributions of a form to rows of accumulator d reach it, none of them saturating: what each row holds, and every other row is as it
was; ACCEV and ACCTR count. `base` is the accumulators before them. -/
def Contributed (s t : State) (base : Core) (d : Nat) (l : List (Nat × Contrib)) (b : BitVec 8) : Prop :=
  (∀ p ∈ l, (t.hw.core (coreOf s.cur.seat)).accRow d p.1 = p.2.row) ∧
  (∀ k, (∀ p ∈ l, k ≠ 64 * d + p.1) → SMap.get {} (t.hw.core (coreOf s.cur.seat)).acc k = SMap.get {} base.acc k) ∧
  s.LeavesCore t { s.myCore with acc := (t.hw.core (coreOf s.cur.seat)).acc }
    { stepped s b with accev := (t.hw.seat s.cur.seat).accev, acctr := (t.hw.seat s.cur.seat).acctr } []

/-- The K position of A that each compressed row of B meets under metadata word w: none for the rows of a reserved code (R250). -/
def metPositions (k w : Nat) : List (Option Nat) :=
  (List.range (ceilDiv k 4)).flatMap (fun g => [0, 1].map (fun j => ((keptPair (w / 2 ^ (3 * g) % 8))[j]?).map (fun q => 4 * g + q)))

/-- How far ANORM moves a row (R255). -/
def normShift (r : ARow) (gt : Nat) : Nat :=
  if r.start || r.satr then 0 else (min (max ((r.headroom : Int) - gt) 0) (r.e + 2048)).toNat

end Sys2Proof.Claim

open Sys2Proof Sys2Proof.Machine Sys2Proof.Claim

/-- R192: a register form writes its result in the ck of issue, and nothing else. -/
def Obligations.AluResult : Prop := ∀ (s : State) (d a b : XNum) (w : Bool) (f : Instr × (W64 → W64 → W64)),
  f ∈ aluForms d a b w → s.Clean .s → s.HasX d → s.HasX a → s.HasX b → s.me.Idle (.x, d.toNat) →
  ∃ t, exec f.1 s = .next t ∧
    (t.hw.seat s.cur.seat).xr d.toNat = (if d = 0 then 0 else f.2 (s.me.xr a.toNat) (s.me.xr b.toNat)) ∧
    s.Leaves t s.hw s.me [(.x, d.toNat)]

/-- R190, R192: a multiply's result is on its way, to be written two ck after issue. -/
def Obligations.MultiplyResult : Prop := ∀ (s : State) (d a b : XNum) (w : Bool) (f : Instr × (W64 → W64 → W64)),
  f ∈ mulForms d a b w → s.Clean .s → s.HasX d → s.HasX a → s.HasX b →
  ∃ t, exec f.1 s = .next t ∧ s.Leaves t s.hw s.me [(.x, d.toNat)] ∧
    (d ≠ 0 → ∃ p ∈ (t.hw.seat s.cur.seat).pend, p.port = .x ∧ p.reg = d.toNat ∧ p.due = s.coreTime + 2 ∧ p.acc = none ∧
      oOf p.val = f.2 (s.me.xr a.toNat) (s.me.xr b.toNat))

/-- R190, R193: a divide by a divisor that is not zero; its result is on its way, to be written seventeen ck after issue, and the divider
is busy until then. -/
def Obligations.DivideResult : Prop := ∀ (s : State) (d a b : XNum) (w : Bool) (f : Instr × (W64 → W64 → W64)),
  f ∈ divForms d a b w → s.Clean .s → s.HasX d → s.HasX a → s.HasX b → divPart w (s.me.xr b.toNat) ≠ 0 →
  ∃ t, exec f.1 s = .next t ∧ s.Leaves t s.hw { s.me with divUntil := s.coreTime + 18 } [(.x, d.toNat)] ∧
    (d ≠ 0 → ∃ p ∈ (t.hw.seat s.cur.seat).pend, p.port = .x ∧ p.reg = d.toNat ∧ p.due = s.coreTime + 17 ∧ p.acc = none ∧
      oOf p.val = f.2 (s.me.xr a.toNat) (s.me.xr b.toNat))

/-- R194: an immediate form writes its result in the ck of issue, and nothing else. -/
def Obligations.ImmediateResult : Prop := ∀ (s : State) (d a : XNum) (i : Imm 14) (f : Instr × (W64 → W64)),
  f ∈ immForms d a i → s.Clean .s → s.HasX d → s.HasX a → s.me.Idle (.x, d.toNat) →
  ∃ t, exec f.1 s = .next t ∧
    (t.hw.seat s.cur.seat).xr d.toNat = (if d = 0 then 0 else f.2 (s.me.xr a.toNat)) ∧
    s.Leaves t s.hw s.me [(.x, d.toNat)]

/-- R195: a branch goes to its target when its condition holds, else to the next bundle; no register changes. J is always taken, and so is JAL,
which writes the return address, of the first word after its bundle, to x1. -/
def Obligations.BranchGoes : Prop :=
  (∀ (s : State) (a b : XNum) (off : Imm 14) (f : Instr × (W64 → W64 → Bool)),
    f ∈ branchForms a b off → s.Clean .s → s.HasX a → s.HasX b → s.cur.last = true → s.me.loops = [] →
    ∃ t, exec f.1 s = .next t ∧ s.Leaves t s.hw s.me [] ∧
      (t.hw.seat s.cur.seat).pc = (if f.2 (s.me.xr a.toNat) (s.me.xr b.toNat) then target s off else following s)) ∧
  ∀ (s : State) (off : Imm 24), s.Clean .s → s.cur.last = true →
    (∃ t, exec (.j off) s = .next t ∧ s.Leaves t s.hw s.me [] ∧ (t.hw.seat s.cur.seat).pc = target s off) ∧
    (s.HasX 1 → s.me.Idle (.x, 1) → ∃ t, exec (.jal off) s = .next t ∧ s.Leaves t s.hw s.me [(.x, 1)] ∧
      (t.hw.seat s.cur.seat).pc = target s off ∧ (t.hw.seat s.cur.seat).xr 1 = following s)

/-- R196: JALR goes to xa plus its immediate when that is a multiple of four, and writes the return address to xd, after reading xa. -/
def Obligations.JumpGoes : Prop := ∀ (s : State) (d a : XNum) (i : Imm 14), s.Clean .s → s.cur.last = true →
  s.HasX d → s.HasX a → s.me.Idle (.x, d.toNat) → (s.me.xr a.toNat + immVal i).toNat % 4 = 0 →
  ∃ t, exec (.jalr ⟨d, a, i⟩) s = .next t ∧ s.Leaves t s.hw s.me [(.x, d.toNat)] ∧
    (t.hw.seat s.cur.seat).pc = ((s.me.xr a.toNat + immVal i).setWidth 56).setWidth 64 ∧
    (t.hw.seat s.cur.seat).xr d.toNat = if d = 0 then 0 else following s

/-- R168, R198: LOOP and LOOPR with a count that is not zero open a level, and the body follows. -/
def Obligations.LoopOpens : Prop := ∀ (s : State) (a : XNum) (e : BitVec 16) (count : BitVec 32) (f : Instr),
  (f = .loop e count ∨ (f = .loopr a e ∧ s.HasX a ∧ count = (s.me.xr a.toNat).setWidth 32)) →
  s.Clean .s → s.cur.last = true → count ≠ 0 → s.me.loops.length < 4 → (∀ l ∈ s.me.loops, l.stop ≠ s.cur.pc) →
  ∃ t, exec f s = .next t ∧ s.Leaves t s.hw s.me [] ∧ (t.hw.seat s.cur.seat).pc = following s ∧
    (t.hw.seat s.cur.seat).loops =
      { start := (s.cur.pc + s.cur.len) % 2 ^ 56, stop := (s.cur.pc + 4 * e.toNat) % 2 ^ 56, count := count.toNat } :: s.me.loops

/-- R169: at the last bundle of a loop body the innermost level goes back while its count is above one, and ends when it is one; NOP has
no other effect (R191). -/
def Obligations.LoopEnds : Prop := ∀ (s : State) (l : LoopLvl) (r : List LoopLvl), s.Clean .s → s.cur.last = true →
  s.me.loops = l :: r → l.stop = s.cur.pc → (∀ q ∈ r, q.stop ≠ s.cur.pc) →
  ∃ t, exec .nop s = .next t ∧ s.Leaves t s.hw s.me [] ∧
    (1 < l.count → (t.hw.seat s.cur.seat).pc = BitVec.ofNat 64 l.start ∧ (t.hw.seat s.cur.seat).loops = { l with count := l.count - 1 } :: r) ∧
    (l.count ≤ 1 → (t.hw.seat s.cur.seat).pc = following s ∧ (t.hw.seat s.cur.seat).loops = r)

/-- R67, R205: CSRR writes the register's value to xd and changes nothing else. -/
def Obligations.ControlRead : Prop := ∀ (s : State) (d : XNum) (n : BitVec 14) (v : W64),
  s.Clean .s → s.HasX d → s.me.Idle (.x, d.toNat) → n.toNat < 0x3000 → csrRead s.hw s.cur.seat n.toNat = some v →
  ∃ t, exec (.csrr d n) s = .next t ∧ (t.hw.seat s.cur.seat).xr d.toNat = (if d = 0 then 0 else v) ∧ s.Leaves t s.hw s.me [(.x, d.toNat)]

/-- R67 to R73, R205: CSRW, CSRS and CSRC write the bits that a control register holds, return its old value in xd, and leave every other
control register; a write to WARN clears the bits that are ones in xa, whichever form it is. -/
def Obligations.ControlWrite : Prop := ∀ (s : State) (d a : XNum) (n : BitVec 14) (old : W64) (g : Instr × (W64 → W64 → W64)),
  g ∈ csrForms d a n → s.Clean .s → s.HasX d → s.HasX a → s.me.Idle (.x, d.toNat) → n.toNat < 0x3000 →
  csrRead s.hw s.cur.seat n.toNat = some old →
  ∃ t x, exec g.1 s = .next t ∧ x = t.hw.seat s.cur.seat ∧ x.xr d.toNat = (if d = 0 then 0 else old) ∧
    s.Leaves t s.hw (withCsrs s.me x) [(.x, d.toNat)] ∧
    (∀ m, m ≠ n.toNat → csrRead t.hw s.cur.seat m = csrRead s.hw s.cur.seat m) ∧
    (∀ b ∈ csrBits, b.1 = n.toNat → csrRead t.hw s.cur.seat n.toNat = some (g.2 old (s.me.xr a.toNat) &&& b.2)) ∧
    (n.toNat ∈ csrCounts → csrRead t.hw s.cur.seat n.toNat =
      some (if n.toNat % 8 < s.me.lrec.an then g.2 old (s.me.xr a.toNat) &&& 0xFFFFFFFF else 0)) ∧
    (n.toNat = 0x12 → x.warn = s.me.warn &&& ~~~((s.me.xr a.toNat).setWidth 8)) ∧
    (n.toNat = 0x13 → x.lddef = max 1 ((g.2 old (s.me.xr a.toNat)).toNat % 256) ∧
      x.cpdef = max 1 ((g.2 old (s.me.xr a.toNat)).toNat / 256 % 4096)) ∧
    (n.toNat ∈ [0x00, 0x01, 0x02, 0x19] → s.Leaves t s.hw s.me [(.x, d.toNat)])

/-- R206: SHSET writes a shape register, SHGET reads one. -/
def Obligations.ShapeRegisters : Prop := ∀ (s : State) (x : XNum) (n : BitVec 4), s.Clean .s → s.HasX x →
  (∃ t, exec (.shset x n) s = .next t ∧ (t.hw.seat s.cur.seat).dr n.toNat = s.me.xr x.toNat ∧
    (∀ m, m ≠ n.toNat → (t.hw.seat s.cur.seat).dr m = s.me.dr m) ∧
    s.Leaves t s.hw { s.me with d := (t.hw.seat s.cur.seat).d } []) ∧
  (s.me.Idle (.x, x.toNat) → ∃ t, exec (.shget x n) s = .next t ∧
    (t.hw.seat s.cur.seat).xr x.toNat = (if x = 0 then 0 else s.me.dr n.toNat) ∧ s.Leaves t s.hw s.me [(.x, x.toNat)])

/-- R207, R208: the queue forms on a queue bound to the seat's instance. QPUSH of a quiet seat puts the record behind the others, ready;
QPOP takes the head record when it is ready, QPEEK leaves it: its doublewords are on their way, written eleven ck later. A full or empty
queue, or a head that is not ready, answers 0 and nothing changes. -/
def Obligations.QueueForms : Prop := ∀ (s : State) (f : FSQ), s.Clean .s → s.HasX f.d → s.HasX f.a → HasRecord s f.b →
  s.me.Idle (.x, f.d.toNat) → (queue s.hw s f.a).inst = s.me.inst → s.me.inst ≠ 0 →
  let q := queue s.hw s f.a
  (q.cap ≤ q.places.length → ∃ t, exec (.qpush f) s = .next t ∧ (t.hw.seat s.cur.seat).xr f.d.toNat = 0 ∧
    s.Leaves t s.hw s.me [(.x, f.d.toNat)]) ∧
  (q.places.length < q.cap → Quiet s → ∃ t, exec (.qpush f) s = .next t ∧ (t.hw.seat s.cur.seat).xr f.d.toNat = (if f.d = 0 then 0 else 1) ∧
    (q.places.all (fun p => p.id != q.next) → queue t.hw s f.a =
      ⟨q.inst, q.cap, q.places ++ [⟨q.next, true, (List.range 8).map (fun i => s.me.xr (f.b.toNat + i))⟩], q.next + 1⟩) ∧
    s.Leaves t { s.hw with clusters := t.hw.clusters } s.me [(.x, f.d.toNat)]) ∧
  (∀ g, g = Instr.qpop f ∨ g = .qpeek f → (q.places = [] ∨ ∃ p r, q.places = p :: r ∧ p.ready = false) →
    ∃ t, exec g s = .next t ∧ (t.hw.seat s.cur.seat).xr f.d.toNat = 0 ∧ s.Leaves t s.hw s.me [(.x, f.d.toNat)]) ∧
  (∀ g p r, g = Instr.qpop f ∨ g = .qpeek f → q.places = p :: r → p.ready = true → p.data.length = 8 →
    ∃ t, exec g s = .next t ∧ (t.hw.seat s.cur.seat).xr f.d.toNat = (if f.d = 0 then 0 else 1) ∧
      (∀ i < 8, f.b.toNat + i ≠ 0 → xPend (f.b.toNat + i) (p.data.getD i 0) (s.coreTime + 11) (ctxOf s).order ∈ (t.hw.seat s.cur.seat).pend) ∧
      queue t.hw s f.a = (if g = .qpop f then { q with places := r } else q) ∧
      s.Leaves t { s.hw with clusters := t.hw.clusters } s.me [(.x, f.d.toNat)])

/-- R209, R212, R213: the flag forms on a flag of the seat's range. FTEST and a successful FWAIT read the value before the changes of the ck;
FCLR and a local FADD of a seat whose core has no other flag operation in the ck change it; an FWAIT whose test fails waits. -/
def Obligations.LocalFlags : Prop := ∀ (s : State) (d a b : XNum) (n : BitVec 9), s.Clean .s → s.HasX d → s.HasX a → s.HasX b →
  s.me.Idle (.x, d.toNat) → HasFlag s n → let v := SMap.get 0 s.myCore.flags n.toNat;
  (∃ t, exec (.ftest d n) s = .next t ∧ (t.hw.seat s.cur.seat).xr d.toNat = (if d = 0 then 0 else v.setWidth 64) ∧
    s.Leaves t s.hw s.me [(.x, d.toNat)]) ∧
  (s.myCore.flagOps = [] → ∃ t, exec (.fclr n) s = .next t ∧ flagAfter t.hw s n = 0 ∧
    (∀ m, m ≠ n → flagAfter t.hw s m = flagAfter s.hw s m) ∧
    s.Leaves t { s.hw with cores := t.hw.cores } s.me []) ∧
  (s.myCore.flagOps = [] → (s.me.xr a.toNat).getLsbD 63 = true → ∃ t, exec (.fadd ⟨a, b, n, none⟩) s = .next t ∧
    flagAfter t.hw s n = v + (s.me.xr b.toNat).setWidth 16 ∧
    (∀ m, m ≠ n → flagAfter t.hw s m = flagAfter s.hw s m) ∧
    s.Leaves t { s.hw with cores := t.hw.cores } s.me []) ∧
  ((s.me.xr b.toNat).toNat % 2 ^ 16 ≤ v.toNat → ∃ t, exec (.fwait ⟨d, a, b⟩ n) s = .next t ∧
    (t.hw.seat s.cur.seat).xr d.toNat = (if d = 0 then 0 else 0x10000 + v.setWidth 64) ∧ s.Leaves t s.hw s.me [(.x, d.toNat)]) ∧
  (v.toNat < (s.me.xr b.toNat).toNat % 2 ^ 16 → ∃ t, exec (.fwait ⟨d, a, b⟩ n) s = .next t ∧
    (t.hw.seat s.cur.seat).wait = .fwait n.toNat ((s.me.xr b.toNat).toNat % 2 ^ 16) s.coreTime ((s.me.xr a.toNat).toNat % 2 ^ 32)
      d.toNat a.toNat b.toNat ∧
    s.Leaves t s.hw { s.me with wait := (t.hw.seat s.cur.seat).wait } [])

/-- R209, R210: a FADD or FSET that is no release, to flags of named cores, sends one flag operation to each target core; one to the issuing core
arrives in the next ck. -/
def Obligations.RemoteFlags : Prop := ∀ (s : State) (a b : XNum) (n : BitVec 9), s.Clean .s → s.HasX a → s.HasX b →
  (s.me.xr a.toNat).getLsbD 63 = false → let x := (s.me.xr a.toNat).toNat; let me := coreOf s.cur.seat; let id := s.hw.glob.nextId
  let v := (s.me.xr b.toNat).setWidth 16;
  (coreInDomain s.hw (x % 2 ^ 17) = true → Open s (pkgOfCore (x % 2 ^ 17)) (domCl (x % 2 ^ 17)) →
    ∃ t, exec (.fadd ⟨a, b, n, none⟩) s = .next t ∧
      Sent t.hw (.remoteFlagArrival { src := me, core := x % 2 ^ 17, flag := n.toNat, act := .add v, acc := id }) ∧
      (x % 2 ^ 17 = me →
        (s.hw.glob.now + 1, .remoteFlagArrival { src := me, core := me, flag := n.toNat, act := .add v, acc := id }) ∈ t.hw.glob.agenda) ∧
      (∃ e, t.hw.acc? id = some e ∧ e.seat = s.cur.seat ∧ e.kind = .flag ∧ e.left = 1) ∧ PortsOnly s.hw t.hw ∧
      s.Leaves t { s.hw with accs := t.hw.accs, glob := t.hw.glob, clusters := t.hw.clusters, pkgs := t.hw.pkgs } s.me []) ∧
  (let p := x / 2 ^ 16 % 64
    let cl := 144 * p + x / 2 ^ 8 % 256
    p < s.hw.glob.npkg → x / 2 ^ 8 % 256 < 144 → Open s p cl →
    ∃ t, exec (.fset ⟨a, b, n, none⟩) s = .next t ∧
      (∀ i < 8, x.testBit i = true → ∃ id, Sent t.hw (.remoteFlagArrival {
          src := me, core := 8 * cl + i, flag := n.toNat, act := .set v, acc := id }) ∧
        ∃ e, t.hw.acc? id = some e ∧ e.seat = s.cur.seat ∧ e.kind = .flag ∧ e.left = 1) ∧
      t.hw.glob.nextId = id + ((List.range 8).filter (fun i => x.testBit i)).length ∧ PortsOnly s.hw t.hw ∧
      s.Leaves t { s.hw with accs := t.hw.accs, glob := t.hw.glob, clusters := t.hw.clusters, pkgs := t.hw.pkgs } s.me [])

/-- R214 to R218: SIGNAL sends its event to the lead dispatcher; MSARM puts an entry on the wheel of the lead die; DRAIN answers 0 when nothing
of the seat is outstanding, and waits when something is; SLEEPUNTIL parks the seat until its target, which may have passed; YIELD outside handler
state begins to save a seat that awaits no result. -/
def Obligations.SyncForms : Prop := ∀ (s : State) (d a b : XNum) (sc : BitVec 2), s.Clean .s → s.HasX d → s.HasX a → s.HasX b →
  s.me.Idle (.x, d.toNat) → let node := (s.me.xr a.toNat).toNat % 2 ^ 16; let i := s.hw.inst s.me.inst;
  (node < imgNodes s.hw i.pkg i.img → (SMap.get {} i.nodes node).count ≠ 0 → Open s i.pkg (144 * i.pkg + attachCl 0) →
    ∃ t, exec (.signal a none) s = .next t ∧ Sent t.hw (.signalCounted s.me.inst node 0) ∧ PortsOnly s.hw t.hw ∧
      s.Leaves t { s.hw with glob := t.hw.glob, clusters := t.hw.clusters, pkgs := t.hw.pkgs } s.me []) ∧
  (node < imgNodes s.hw i.pkg i.img → (s.hw.die (4 * i.pkg)).wheel.length < 4096 →
    ∃ t, exec (.msarm a b) s = .next t ∧
      (t.hw.die (4 * i.pkg)).wheel = (s.hw.die (4 * i.pkg)).wheel ++ [⟨s.me.inst, node,
        (if (s.me.xr b.toNat).getLsbD 63 then (s.hw.die (4 * i.pkg)).wheelAt else 0) + (s.me.xr b.toNat).toNat % 2 ^ 63,
        !(s.me.xr b.toNat).getLsbD 63⟩] ∧
      s.Leaves t { s.hw with dies := t.hw.dies } s.me []) ∧
  (Quiet s → ∃ t, exec (.drain d sc) s = .next t ∧ (t.hw.seat s.cur.seat).xr d.toNat = 0 ∧ s.Leaves t s.hw s.me [(.x, d.toNat)]) ∧
  (drained s.hw s.cur.seat sc.toNat s.hw.glob.nextId = false → ∃ t, exec (.drain d sc) s = .next t ∧
    (t.hw.seat s.cur.seat).wait = .drain d.toNat sc.toNat s.hw.glob.now s.hw.glob.nextId ∧
    s.Leaves t s.hw { s.me with wait := (t.hw.seat s.cur.seat).wait } []) ∧
  (∃ t, exec (.sleepuntil a) s = .next t ∧
    s.Leaves t s.hw (if s.hw.cycle (pkgOfCore (coreOf s.cur.seat)) < (s.me.xr a.toNat).toNat
      then { s.me with st := .parked, wait := .sleep (s.me.xr a.toNat).toNat } else s.me) []) ∧
  (s.me.handler = false → hasWindow s.hw s.cur.seat = false → s.me.pend = [] → s.me.pendCause = [] → ∃ t, exec .yield s = .next t ∧
    (t.hw.seat s.cur.seat).nextIssue = s.coreTime + max 3 (1 + s.cur.stall) ∧
    s.Leaves t { s.hw with cores := t.hw.cores } { s.me with
      st := .saving, saveKind := 5, preempt := false, preReq := false
      relTime := s.hw.cycle (pkgOfCore (coreOf s.cur.seat)) } [])

/-- R219, R220, R383, R384: EXIT retires the seat; TRAP n and BRK raise their causes behind their bundle; ERET in handler state goes back to the
bundle at TPC, with what the trap had kept. -/
def Obligations.EndingForms : Prop := ∀ (s : State), s.Clean .s → s.cur.last = true → let gap := max 3 (1 + s.cur.stall);
  (∃ t, exec .exit s = .next t ∧
    s.Leaves t { s.hw with pkgs := t.hw.pkgs, cores := t.hw.cores, accs := t.hw.accs } { s.me with
      st := .retiring, wait := .none, preempt := false, pendCause := [], frozen := {}, captured := [], capCause := [], toReplay := false
      shadow := {}, handler := false, savedWait := .none, stalledPin := none, pinDone := [] } []) ∧
  (∀ n : BitVec 5, ∃ t, exec (.trap n) s = .next t ∧ s.Leaves t s.hw { s.me with
      pendCause := s.me.pendCause ++ [{ code := 0x1E0 + n.toNat, tval := 0, slots := 1, due := s.coreTime + 1 + s.cur.stall }] } []) ∧
  (∃ t, exec .brk s = .next t ∧ s.Leaves t s.hw { s.me with
      pendCause := s.me.pendCause ++ [{ code := 0x1A5, tval := 0, slots := 1, due := s.coreTime + 1 + s.cur.stall }] } []) ∧
  (s.me.handler = true → Quiet s → ∃ t x, exec .eret s = .next t ∧ x = t.hw.seat s.cur.seat ∧
    x.handler = false ∧ x.pc = s.me.tpc ∧ x.nextIssue = s.coreTime + gap ∧ x.mpc = s.me.shadow.mpc ∧ x.sticky = s.me.shadow.sticky ∧
    x.repOn = s.me.shadow.repOn ∧ x.repJ = s.me.tcause.toNat / 2 ^ 48 ∧ x.repN = s.me.shadow.repN ∧ x.captured = [] ∧
    (∀ p ∈ s.me.captured, ({ p with due := p.due + (s.coreTime + gap) } : Pend) ∈ x.pend) ∧
    s.Leaves t { s.hw with cores := t.hw.cores } { s.me with
      handler := false, mpc := s.me.shadow.mpc, shadow := {}, captured := [], capCause := [], toReplay := false
      pendCause := s.me.pendCause ++ s.me.capCause.map (fun c => { c with due := c.due + (s.coreTime + gap) }), savedWait := .none, boundLeft := 0
      wait := x.wait, rels := x.rels, st := x.st } [])

/-- R221, R326: the supervisor forms on a system core. TLBINV drops the named translations of every core of the package, TTINV every table entry;
WIPE of a die whose seats are free begins. The core then waits for the acknowledgement. -/
def Obligations.SupervisorForms : Prop := ∀ (s : State) (d a b : XNum), s.Clean .s → s.HasX d → s.HasX a → s.HasX b →
  isSys (coreOf s.cur.seat) = true → let p := pkgOfCore (coreOf s.cur.seat);
  (∃ t, exec (.tlbinv a b) s = .next t ∧
    (∀ n, pkgOfCore n = p → ∀ e, e ∈ (t.hw.core n).tlb ↔
      e ∈ (s.hw.core n).tlb ∧ ¬ invalidated (s.me.xr a.toNat) ((s.me.xr b.toNat).toNat % 2 ^ 56) e) ∧
    (∀ n, pkgOfCore n ≠ p → t.hw.core n = s.hw.core n) ∧
    (s.hw.glob.now + 256, .invalidateAcknowledged (coreOf s.cur.seat)) ∈ t.hw.glob.agenda ∧
    s.Leaves t { s.hw with cores := t.hw.cores, accs := t.hw.accs, glob := t.hw.glob } { s.me with wait := .sup 0 false } []) ∧
  (∃ t, exec .ttinv s = .next t ∧
    (∀ n, pkgOfCore n = p → (t.hw.core n).tens = [] ∧ (t.hw.core n).tabs = [] ∧ (t.hw.core n).tlb = (s.hw.core n).tlb) ∧
    (∀ n, pkgOfCore n ≠ p → t.hw.core n = s.hw.core n) ∧
    (s.hw.glob.now + 256, .invalidateAcknowledged (coreOf s.cur.seat)) ∈ t.hw.glob.agenda ∧
    s.Leaves t { s.hw with cores := t.hw.cores, glob := t.hw.glob } { s.me with wait := .sup 0 false } []) ∧
  (dieFree s.hw (domDie (coreOf s.cur.seat)) = true → ∃ t, exec (.wipe d a) s = .next t ∧
    (s.hw.glob.now + (if (s.me.xr a.toNat).getLsbD 0 then 45000000 else 2100), .wipeComplete (domDie (coreOf s.cur.seat))) ∈ t.hw.glob.agenda ∧
    (t.hw.die (domDie (coreOf s.cur.seat))).supWait = (if (s.me.xr a.toNat).getLsbD 0 then 1 else 0) ∧
    s.Leaves t { s.hw with dies := t.hw.dies, glob := t.hw.glob } { s.me with wait := .sup d.toNat true } [])

/-- R71, R379 to R382: a cause of class T in a seat with a trap vector, outside handler state, takes the exception with no other effect of the
form: TPC, TCAUSE and TVAL are written, the sticky records, the repetition and MPC are kept, every engine is sticky-idle, and the handler's
first bundle is the one at TVEC. -/
def Obligations.TrapTaken : Prop := ∀ (s : State) (d a b : XNum) (w : Bool) (i : Imm 14) (n : BitVec 14) (g : Instr × Prop × Nat × W64),
  g ∈ causeForms s d a b w i n → g.2.1 → s.Clean .s → s.me.tvec ≠ 0 → s.me.handler = false →
  ∃ t x, exec g.1 s = .next t ∧ x = t.hw.seat s.cur.seat ∧
    x.handler = true ∧ x.pc = s.me.tvec ∧ x.tpc = s.me.pc ∧ x.tval = g.2.2.2 ∧
    x.tcause = BitVec.ofNat 64 ((if s.me.repOn then s.me.repJ else 0) % 2 ^ 16 * 2 ^ 48 + 2 ^ 40 + g.2.2.1) ∧
    x.shadow = { sticky := s.me.sticky, repOn := s.me.repOn, repJ := s.me.repJ, repN := s.me.repN, mpc := s.me.mpc } ∧
    (∀ r ∈ x.sticky, r.idle = true) ∧ x.tvec = s.me.tvec ∧ x.mpc = s.me.mpc ∧ x.warn = s.me.warn ∧ x.d = s.me.d ∧
    (∀ q, s.me.Idle q → x.reg q = s.me.reg q) ∧ (∀ k, k ≠ s.cur.seat → t.hw.seat k = s.hw.seat k) ∧
    (∀ y, Memory.read t.hw.mem y = Memory.read s.hw.mem y) ∧ t.pre = none ∧ t.cur = {}

/-- R199, R200, R201: LD and ST issue one access, cut where it crosses a line; LD's result waits for it and is written at c + LAND at the
earliest; ST takes the low bytes of xd. No register and no byte of memory changes yet. -/
def Obligations.ScalarMemory : Prop := ∀ (s : State) (f : FSM), s.Clean .s → s.HasX f.d → s.HasX f.a → Healthy s →
  (flatCauses s.myCore s.me.img 2 false .s (lineParts 2 (scalarVa s f) (2 ^ (f.sz.toNat % 4)) 0) = [] →
    ∃ t, exec (.ld f) s = .next t ∧
      Issued s t { seat := s.cur.seat, kind := .load (ctxOf s).order (2 ^ (f.sz.toNat % 4)) (decide (f.sz.toNat < 4)), img := s.me.img, cls := 2, bypass := f.bypass, parts := lineParts 2 (scalarVa s f) (2 ^ (f.sz.toNat % 4)) 0 } ∧
      Awaits s t { xPend f.d.toNat 0 (s.coreTime + landing s (offLand f.off)) (ctxOf s).order with load := 1 } ∧
      FlatLeaves s t s.me []) ∧
  (flatCauses s.myCore s.me.img 3 true .s (lineParts 2 (scalarVa s f) (2 ^ (f.sz.toNat % 4)) 0) = [] →
    ∃ t, exec (.st f) s = .next t ∧
      Issued s t { seat := s.cur.seat, kind := .store, img := s.me.img, cls := 3, parts := storeParts (scalarVa s f) (2 ^ (f.sz.toNat % 4)) (s.me.xr f.d.toNat).toNat } ∧
      FlatLeaves s t (s.me.warned (warnIf (decide (4 ≤ f.sz.toNat) || f.bypass || offLand f.off != 0) wMisc)) [])

/-- R203, R204: an atomic at a naturally aligned address issues one access; its old value waits for it. -/
def Obligations.Atomics : Prop := ∀ (s : State) (f : FSA) (g : Instr × AmoOp), g ∈ atomicForms f →
  s.Clean .s → s.HasX f.d → s.HasX f.a → s.HasX f.b → Healthy s →
  let w := f.w || g.2 == .fadd; let n := if w then 4 else 8; let va := (s.me.xr f.a.toNat).toNat % 2 ^ 56
  va % n = 0 → flatCauses s.myCore s.me.img 4 true .s (lineParts 1 va n 0) = [] →
  ∃ t, exec g.1 s = .next t ∧
    Issued s t { seat := s.cur.seat, kind := .amo g.2 (ctxOf s).order w (s.me.xr f.b.toNat) (s.me.xr f.d.toNat), img := s.me.img, cls := 4, parts := lineParts 1 va n 0 } ∧
    Awaits s t { xPend f.d.toNat 0 (s.coreTime + landing s (f.land.getD 0).toNat) (ctxOf s).order with load := 1 } ∧
    FlatLeaves s t (s.me.warned (warnIf (g.2 == .fadd && !f.w) wWidth)) []

/-- R239: a flat vector load or store with an active lane, every address a multiple of four, issues one access with a part for each line it
touches; a load's lanes wait for it; a store's bytes are the lanes' words, a higher lane over a lower one. -/
def Obligations.VectorMemory : Prop := ∀ (s : State) (sl : Slot) (f : FVM) (idx : Bool), (sl = .v0 ∨ sl = .v1) → s.Clean sl → Healthy s →
  vmCauses (ctxOf s) f idx = [] → let l := vecLanes s f idx; let p := vecParts (linesOf l) l 0; let off := match f.ext with | none => 0 | some x => x.off.toInt
  l ≠ [] → (∀ e ∈ l, e.2 % 4 = 0) → (s.me.xr f.a.toNat + BitVec.ofInt 64 off).toNat % 4 = 0 →
  (flatCauses s.myCore s.me.img (if idx then 7 else 5) false sl p.1 = [] →
    ∃ t, exec (if idx then .vldg f else .vld f) s = .next t ∧
      Issued s t { seat := s.cur.seat, kind := .vload (ctxOf s).order p.2, img := s.me.img, cls := if idx then 7 else 5, bypass := f.bypass, parts := p.1 } ∧
      Awaits s t { vPend (ctxOf s) f.v 0 (s.me.kr f.k.toNat) 0 (landing s (match f.ext with | none => 0 | some x => x.land.toNat)) with port := .v, reg := f.v.toNat, load := 2 } ∧
      FlatLeaves s t s.me []) ∧
  (flatCauses s.myCore s.me.img (if idx then 7 else 6) true sl p.1 = [] →
    ∃ t, exec (if idx then .vsts f else .vst f) s = .next t ∧
      Issued s t { seat := s.cur.seat, kind := .vstore, img := s.me.img, cls := if idx then 7 else 6, parts := p.1.map (fun q => { q with wdata := vecBytes (vOp (ctxOf s) f.v 0) q l }) } ∧
      FlatLeaves s t (s.me.warned (warnIf (f.bypass || (match f.ext with | none => 0 | some x => x.land.toNat) != 0) wMisc)) [])

/-- R222, R228, R229: an integer vector form's elements are on their way to its register under its lane mask, and to its unit's last-result
register. -/
def Obligations.VectorInteger : Prop := ∀ (s : State) (sl : Slot) (f : FVR)
  (g : Instr × Nat × ((w : Nat) → Bool → BitVec w → BitVec w → BitVec w → BitVec w)),
  g ∈ intForms f → (sl = .v0 ∨ sl = .v1) → s.Clean sl → let v := vIn (ctxOf s) g.1 f;
  v.causes = [] →
  ∃ t r, exec g.1 s = .next t ∧ vPend (ctxOf s) f.d (ctxOf s).o1 v.m r g.2.1 ∈ (t.hw.seat s.cur.seat).pend ∧
    (∀ n < 64, ∀ e < 32 / v.w, el v.w r n e = g.2.2 v.w v.x.sat (el v.w v.a n e) (el v.w v.b n e) (el v.w v.d n e)) ∧
    VectorLeaves s t g.1 f false

/-- R222, R228, R230: a float vector form's elements, in the format that its width and BF name, are on their way. -/
def Obligations.VectorFloat : Prop := ∀ (s : State) (sl : Slot) (f : FVR) (g : Instr × Nat × (FFmt → RM → Nat → Nat → Nat → Nat)),
  g ∈ floatForms f → (sl = .v0 ∨ sl = .v1) → s.Clean sl → let v := vIn (ctxOf s) g.1 f;
  v.causes = [] →
  ∃ t r, exec g.1 s = .next t ∧ vPend (ctxOf s) f.d (ctxOf s).o1 v.m r g.2.1 ∈ (t.hw.seat s.cur.seat).pend ∧
    (∀ n < 64, ∀ e < 32 / v.w, (el v.w r n e).toNat =
      g.2.2 (if v.w = 16 then (if v.x.sat then bf16 else fp16) else fp32) v.rm (el v.w v.a n e).toNat (el v.w v.b n e).toNat
        (el v.w v.d n e).toNat % 2 ^ v.w) ∧
    VectorLeaves s t g.1 f false

/-- R231, R232: a compare or mask form's mask is on its way to k register D[2:0]; k0 takes none. -/
def Obligations.VectorMask : Prop := ∀ (s : State) (sl : Slot) (f : FVR) (g : Instr × (VIn → Nat → Bool)),
  g ∈ maskForms f → (sl = .v0 ∨ sl = .v1) → s.Clean sl → let v := vIn (ctxOf s) g.1 f;
  v.causes = [] →
  ∃ t r, exec g.1 s = .next t ∧ (f.d.toNat % 8 ≠ 0 → kPend (ctxOf s) (f.d.toNat % 8) r 1 ∈ (t.hw.seat s.cur.seat).pend) ∧
    (∀ n < 64, r.getLsbD n = g.2 v n) ∧ VectorLeaves s t g.1 f false

/-- R232 to R236, R243: the forms that convert and move lanes, and VPACK and VMOV; VNOP writes nothing. -/
def Obligations.VectorLanes : Prop := ∀ (s : State) (sl : Slot) (f : FVR), (sl = .v0 ∨ sl = .v1) → s.Clean sl →
  (∀ g ∈ laneForms f, (vIn (ctxOf s) g.1 f).causes = [] →
    ∃ t r, exec g.1 s = .next t ∧
      vPend (ctxOf s) f.d (ctxOf s).o1 (g.2.2.1 (vIn (ctxOf s) g.1 f)) r g.2.1 ∈ (t.hw.seat s.cur.seat).pend ∧
      (∀ n < 64, ln r n = g.2.2.2 (vIn (ctxOf s) g.1 f) n) ∧ VectorLeaves s t g.1 f (g.1 == .vunpack f)) ∧
  ((vIn (ctxOf s) (.vpack f) f).causes = [] →
    ∃ t r, exec (.vpack f) s = .next t ∧
      vPend (ctxOf s) f.d (ctxOf s).o1 (vIn (ctxOf s) (.vpack f) f).m r 3 ∈ (t.hw.seat s.cur.seat).pend ∧
      (∀ n < 64, ∀ e < 32 / (vIn (ctxOf s) (.vpack f) f).w,
        el (vIn (ctxOf s) (.vpack f) f).w r n e = packed (vIn (ctxOf s) (.vpack f) f).w (vIn (ctxOf s) (.vpack f) f) n e) ∧
      VectorLeaves s t (.vpack f) f true) ∧
  (specCauses (ctxOf s) f.d (ctxOf s).o1 = [] → (FVR.x f).im = false → specCauses (ctxOf s) f.a (ctxOf s).o2 = [] →
    ∃ t b, exec (.vmov f) s = .next t ∧
      vPend (ctxOf s) f.d (ctxOf s).o1 (s.me.kr f.k.toNat) (vOp (ctxOf s) f.a (ctxOf s).o2) 1 ∈ (t.hw.seat s.cur.seat).pend ∧
      s.LeavesCore t s.myCore (s.me.warned b) []) ∧
  (specCauses (ctxOf s) f.d (ctxOf s).o1 = [] → (FVR.x f).im = true →
    ∃ t r b, exec (.vmov f) s = .next t ∧
      vPend (ctxOf s) f.d (ctxOf s).o1 (s.me.kr f.k.toNat) r 1 ∈ (t.hw.seat s.cur.seat).pend ∧
      (∀ n < 64, ln r n = (FVR.x f).imm.signExtend 32) ∧ s.LeavesCore t s.myCore (s.me.warned b) []) ∧
  (∀ e : Option VExt, ∃ t b, exec (.vnop e) s = .next t ∧ s.LeavesCore t s.myCore (s.me.warned b) [])

/-- R103, R237: a lane reduction's result, taken along the tree over the active elements in element order, is on its way to every element
of every lane. -/
def Obligations.VectorReduce : Prop := ∀ (s : State) (sl : Slot) (f : FVR) (g : Instr × (VIn → Nat) × (VIn → Nat → Nat → Nat)),
  g ∈ reduceForms f → (sl = .v0 ∨ sl = .v1) → s.Clean sl → let v := vIn (ctxOf s) g.1 f;
  v.causes = [] →
  ∃ t r, exec g.1 s = .next t ∧ vPend (ctxOf s) f.d (ctxOf s).o1 allLanes r 7 ∈ (t.hw.seat s.cur.seat).pend ∧
    (∀ n < 64, ∀ e < 32 / v.w, (el v.w r n e).toNat = ((treeFold (g.2.2 v) 9 (elemList v.w v.m v.a)).getD (g.2.1 v)) % 2 ^ v.w) ∧
    VectorLeaves s t g.1 f false

/-- R243: VEXT's lane is on its way, sign-extended, to a scalar register. -/
def Obligations.VectorExtract : Prop := ∀ (s : State) (sl : Slot) (f : FVR), (sl = .v0 ∨ sl = .v1) → s.Clean sl →
  let v := vIn (ctxOf s) (.vext f) f;
  v.causes = [] → 96 ≤ f.d.toNat →
  ∃ t, exec (.vext f) s = .next t ∧ VectorLeaves s t (.vext f) f false ∧
    (f.d.toNat ≠ 96 → xPend (f.d.toNat - 96) ((ln v.a ((ln v.b 0).toNat % 64)).signExtend 64) (s.coreTime + 2) (ctxOf s).order ∈
      (t.hw.seat s.cur.seat).pend)

/-- R238: the conditional streams. VPUSHC appends the active lanes, while the stream holds at most 512; VPOPC takes up to 64 records, to
lanes 0 on, and their fill predicate to mask K; VREBAL fills the first stream to a multiple of 64 from the second; VSCNT counts. -/
def Obligations.VectorStreams : Prop := ∀ (s : State) (sl : Slot) (f : FVR), (sl = .v0 ∨ sl = .v1) → s.Clean sl →
  (let v := vIn (ctxOf s) (.vpushc f) f
    let q := f.b.toNat % 4
    let new := ((List.range 64).filter (fun n => v.m.getLsbD n)).map (fun n => ln v.a n)
    v.causes = [] → (s.me.stream q).length + new.length ≤ 512 →
    ∃ t b, exec (.vpushc f) s = .next t ∧ s.LeavesCore t s.myCore ((s.me.warned b).setStream q (s.me.stream q ++ new)) []) ∧
  (let v := vIn (ctxOf s) (.vpopc f) f
    let q := f.b.toNat % 4
    let n := min 64 (s.me.stream q).length
    v.causes = [] → f.d.toNat < 64 →
    ∃ t b p, exec (.vpopc f) s = .next t ∧ s.LeavesCore t s.myCore ((s.me.warned b).setStream q ((s.me.stream q).drop n)) [] ∧
      p ∈ (t.hw.seat s.cur.seat).pend ∧ p.port = .v ∧ p.reg = (stepSpec f.d (ctxOf s).o1).toNat ∧ p.due = s.coreTime + 3 ∧
      (∀ i < 64, p.lmask.getLsbD i = decide (i < n)) ∧ (∀ i < n, ln p.val i = (s.me.stream q).getD i 0) ∧
      (f.k.toNat ≠ 0 → kPend (ctxOf s) f.k.toNat p.lmask 3 ∈ (t.hw.seat s.cur.seat).pend)) ∧
  (let a := f.b.toNat % 4
    let b := f.b.toNat / 4 % 4
    let n := min ((64 - (s.me.stream a).length % 64) % 64) (s.me.stream b).length
    ∃ t w, exec (.vrebal f) s = .next t ∧ s.LeavesCore t s.myCore
      (if a = b then s.me.warned w
        else ((s.me.warned w).setStream a (s.me.stream a ++ (s.me.stream b).take n)).setStream b ((s.me.stream b).drop n)) []) ∧
  (let v := vIn (ctxOf s) (.vscnt f) f;
    v.causes = [] →
    ∃ t r, exec (.vscnt f) s = .next t ∧ vPend (ctxOf s) f.d (ctxOf s).o1 allLanes r 1 ∈ (t.hw.seat s.cur.seat).pend ∧
      (∀ n < 64, ln r n = BitVec.ofNat 32 (s.me.stream (f.b.toNat % 4)).length) ∧ VectorLeaves s t (.vscnt f) f false)

/-- R240, R241: a vector load from the tile store or a sidecar reads the window's granules as they stand; its lanes are on their way. A store
writes the active lanes' words, a higher lane over a lower one at the same address, and nothing else. -/
def Obligations.VectorTile : Prop := ∀ (s : State) (sl : Slot) (f : FVM) (idx : Bool), (sl = .v0 ∨ sl = .v1) → s.Clean sl →
  let l := laneAddrs (ctxOf s) f idx (tsBase (ctxOf s) f) (if idx then 20 else 0)
  let co := fun (t : State) => t.hw.core (coreOf s.cur.seat)
  let wb := warnIf (vmLand f != 0) wMisc
  let g := phys (ctxOf s) .gran (tsBase (ctxOf s) f / 4096);
  (vmCauses (ctxOf s) f idx = [] → tsCauses (ctxOf s) (tsBase (ctxOf s) f) l = [] →
    (∃ t r, exec (if idx then .vldgTs f else .vldTs f) s = .next t ∧
      vPend (ctxOf s) f.v 0 (s.me.kr f.k.toNat) r (if idx then 5 else 3) ∈ (t.hw.seat s.cur.seat).pend ∧
      (∀ e ∈ l, ln r e.1 = tileAt s.myCore s e.2) ∧ s.LeavesCore t s.myCore (s.me.warned wb) []) ∧
    (∃ t, exec (if idx then .vstsTs f else .vstTs f) s = .next t ∧
      (∀ e ∈ l, (∀ d ∈ l, d.2 = e.2 → d.1 ≤ e.1) → tileAt (co t) s e.2 = ln (vOp (ctxOf s) f.v 0) e.1) ∧
      (∀ a, a % 4 = 0 → a < 4096 * s.me.lrec.gn → (∀ e ∈ l, e.2 ≠ a) → tileAt (co t) s a = tileAt s.myCore s a) ∧
      (∀ w, (∀ e ∈ l, tsWord (ctxOf s) e.2 ≠ w) → SMap.get 0 (co t).tile w = SMap.get 0 s.myCore.tile w) ∧
      (co t).side = s.myCore.side ∧ s.LeavesCore t (withTile s.myCore (co t)) (s.me.warned wb) [])) ∧
  (vmCauses (ctxOf s) f false = [] → scCauses (ctxOf s) (tsBase (ctxOf s) f) = [] →
    (∃ t r, exec (.vldSc f) s = .next t ∧ vPend (ctxOf s) f.v 0 allLanes r 3 ∈ (t.hw.seat s.cur.seat).pend ∧
      r = (SMap.get 0 s.myCore.side g).setWidth 2048 ∧ s.LeavesCore t s.myCore (s.me.warned wb) []) ∧
    (∃ t, exec (.vstSc f) s = .next t ∧ SMap.get 0 (co t).side g = (vOp (ctxOf s) f.v 0).setWidth 64 &&& 0x1FFF ∧
      (∀ h, h ≠ g → SMap.get 0 (co t).side h = SMap.get 0 s.myCore.side h) ∧ (co t).tile = s.myCore.tile ∧
      s.LeavesCore t (withTile s.myCore (co t)) (s.me.warned wb) []))

/-- R79, R81, R242: VPLANE writes one row of a tile image, plane by plane, from the active lanes; VDEPLANE reads one. -/
def Obligations.VectorPlanes : Prop := ∀ (s : State) (sl : Slot) (f : FVM), (sl = .v0 ∨ sl = .v1) → s.Clean sl →
  let fmt := f.vi.toNat % 16
  let np := fmtPlanes fmt
  let b := tsBase (ctxOf s) f
  let co := fun (t : State) => t.hw.core (coreOf s.cur.seat)
  let word := fun (c : Core) (p : Nat) => SMap.get 0 c.tile (tsWord (ctxOf s) (b + 512 * p));
  vmCauses (ctxOf s) f false = [] → planeCauses (ctxOf s) b (b - 8 * (b / 8 % 64)) (512 * np) = [] →
  (∃ t, exec (.vplane f) s = .next t ∧
    (∀ p < np, ∀ n < 64, (word (co t) p).getLsbD n =
      if (s.me.kr f.k.toNat).getLsbD n then (laneImage fmt np (ln (vOp (ctxOf s) f.v 0) n).toNat).testBit (np - 1 - p)
      else (word s.myCore p).getLsbD n) ∧
    (∀ w, (∀ p < np, w ≠ tsWord (ctxOf s) (b + 512 * p)) → SMap.get 0 (co t).tile w = SMap.get 0 s.myCore.tile w) ∧
    (co t).side = s.myCore.side ∧ s.LeavesCore t (withTile s.myCore (co t)) s.me []) ∧
  (∃ t r w, exec (.vdeplane f) s = .next t ∧
    vPend (ctxOf s) f.v 0 (s.me.kr f.k.toNat) r (2 + ceilDiv np 8) ∈ (t.hw.seat s.cur.seat).pend ∧
    (∀ n < 64, (ln r n).toNat = laneOfImage fmt np
      ((List.range np).foldl (fun x p => 2 * x + ((word s.myCore p).getLsbD n).toNat) 0) % 2 ^ 32) ∧
    s.LeavesCore t s.myCore (s.me.warned w) [])

/-- R249, R250: MMA and MMAS add their products to the rows of the shape's window, after clearing the accumulator under Z. -/
def Obligations.MatrixProduct : Prop := ∀ (s : State) (f : FMMA), s.Clean .m →
  let c := ctxOf s
  let l := SMap.get {} s.myCore.latch (latPhys c f.lb)
  let n := keptPlanes l.fmt (pbOf f)
  let sh := shpArg c f.shp
  let base := if f.z then s.myCore.accZero (accPhys c f.acc) else s.myCore;
  (useMma c f).causes = [] →
  (let b := latchRows l n sh.k sh.n
    let rows := productRows c f base b (maxBound l.fmt b.flatten) l.fmt (fun a => a);
    (∀ p ∈ rows, p.2.sat = none) → ∃ t w, exec (.mma f) s = .next t ∧ Contributed s t base (accPhys c f.acc) rows w) ∧
  (∀ w, metaWord c = .ok w →
    let pos := metPositions sh.k w
    let b := (latchRows l n (2 * ceilDiv sh.k 4) sh.n).zipIdx.map (fun r =>
      if (pos.getD r.2 none).all (fun q => decide (sh.k ≤ q)) then r.1.map (fun e => { e with code := 0, zero := true, p := 0 }) else r.1)
    let rows := productRows c f base b (maxBound l.fmt (latchRows l n (2 * ceilDiv sh.k 4) sh.n).flatten) l.fmt
      (fun a => pos.map (fun q => match q with | none => {} | some k => a.getD k {}));
    (∀ p ∈ rows, p.2.sat = none) → ∃ t, exec (.mmas f) s = .next t ∧
      (∀ p ∈ rows, (t.hw.core (coreOf s.cur.seat)).accRow (accPhys c f.acc) p.1 = p.2.row) ∧
      (∀ k, (∀ p ∈ rows, k ≠ 64 * accPhys c f.acc + p.1) →
        SMap.get {} (t.hw.core (coreOf s.cur.seat)).acc k = SMap.get {} base.acc k) ∧
      (t.hw.core (coreOf s.cur.seat)).tile = s.myCore.tile ∧ (∀ q, s.me.Idle q → (t.hw.seat s.cur.seat).reg q = s.me.reg q) ∧
      (∀ k, k ≠ s.cur.seat → t.hw.seat k = s.hw.seat k) ∧ (∀ x, Memory.read t.hw.mem x = Memory.read s.hw.mem x))

/-- R86 to R92, R249: an MMA of integer formats under Z leaves the exact dot products, with exponent zero. -/
def Obligations.IntegerProductExact : Prop := ∀ (s : State) (f : FMMA), s.Clean .m →
  let c := ctxOf s
  let l := SMap.get {} s.myCore.latch (latPhys c f.lb)
  let sh := shpArg c f.shp
  let af := aFmt f;
  (useMma c f).causes = [] → f.z = true → f.n = false → f.ext = none → af < 5 → l.fmt < 5 → (∀ k, SMap.get 0 l.el k < 2 ^ fmtPlanes l.fmt) →
  ∃ t, exec (.mma f) s = .next t ∧ ∀ i < sh.m, ∀ j < sh.n,
    let r := (t.hw.core (coreOf s.cur.seat)).accRow (accPhys c f.acc) i;
    r.e = 0 ∧ (r.at_ j).code = 0 ∧
    (r.at_ j).m = ((List.range sh.k).map (fun k =>
      intOfImage af ((tileRow s.myCore (imgWord (tilePhys c f.ta) sh) af sh i sh.k).getD k 0) * intOfImage l.fmt (SMap.get 0 l.el (64 * k + j)))).sum

/-- R252: LATCH takes the window of a tile image into a latch, whose other positions become zero. -/
def Obligations.LatchFills : Prop := ∀ (s : State) (f : FLatch), s.Clean .m → let c := ctxOf s; let sh := shpArg c f.shp;
  (useLatch c f).causes = [] → ∃ t l w, exec (.latch f) s = .next t ∧
    SMap.get {} (t.hw.core (coreOf s.cur.seat)).latch (latPhys c f.lb) = l ∧ l.fmt = f.bf.toNat ∧
    (∀ k < sh.k, ∀ j < sh.n,
      let x := (tileRow s.myCore (imgWord (tilePhys c f.tb) sh) f.bf.toNat sh k sh.n).getD j 0;
      SMap.get 0 l.el (64 * k + j) = if f.bf = 0 ∧ x = 2 then 0 else x) ∧
    (∀ q, (∀ k < sh.k, ∀ j < sh.n, q ≠ 64 * k + j) → SMap.get 0 l.el q = 0) ∧
    (∀ b, b ≠ latPhys c f.lb → SMap.get {} (t.hw.core (coreOf s.cur.seat)).latch b = SMap.get {} s.myCore.latch b) ∧
    s.LeavesCore t { s.myCore with latch := (t.hw.core (coreOf s.cur.seat)).latch } (stepped s w) []

/-- R90, R244, R254 to R256: MNOP changes nothing; AZERO clears an accumulator; AMOV copies one; ANORM moves each row's mantissas up and its
exponent down by as much; AGETX sends exponents and headrooms to two vector registers. -/
def Obligations.AccumulatorForms : Prop := ∀ (s : State) (f : FMA), s.Clean .m → let c := ctxOf s; let d := accPhys c f.acc
  let co := fun (t : State) => t.hw.core (coreOf s.cur.seat);
  (∀ e : Option MAExt, ∃ t, exec (.mnop e) s = .next t ∧ s.LeavesCore t s.myCore s.me []) ∧
  (accCauses c f.acc = [] → ∃ t, exec (.azero f) s = .next t ∧ (∀ r < 64, (co t).accRow d r = {}) ∧
    (∀ k, k / 64 ≠ d → SMap.get {} (co t).acc k = SMap.get {} s.myCore.acc k) ∧
    s.LeavesCore t { s.myCore with acc := (co t).acc } (stepped s 0) []) ∧
  (accCauses c f.acc = [] → accCauses c f.acs = [] → s.myCore.accBad (accPhys c f.acs) 64 = false →
    ∃ t, exec (.amov f) s = .next t ∧ (∀ r < 64, (co t).accRow d r = s.myCore.accRow (accPhys c f.acs) r) ∧
    (∀ k, k / 64 ≠ d → SMap.get {} (co t).acc k = SMap.get {} s.myCore.acc k) ∧
    s.LeavesCore t { s.myCore with acc := (co t).acc } (stepped s 0) []) ∧
  (accCauses c f.acc = [] → ∃ t, exec (.anorm f) s = .next t ∧
    (∀ r < 64, let x := s.myCore.accRow d r; let y := (co t).accRow d r; let k := normShift x (maGt f);
      y.e = x.e - k ∧ y.start = x.start ∧ y.satr = x.satr ∧ ∀ n < 64, (y.at_ n).m = (x.at_ n).m * 2 ^ k ∧ (y.at_ n).code = (x.at_ n).code) ∧
    (∀ k, k / 64 ≠ d → SMap.get {} (co t).acc k = SMap.get {} s.myCore.acc k) ∧
    s.LeavesCore t { s.myCore with acc := (co t).acc } (stepped s 0) []) ∧
  ((useAgetx c f).causes = [] → s.myCore.accBad d 64 = false → ∃ t p q, exec (.agetx f) s = .next t ∧
    p ∈ (t.hw.seat s.cur.seat).pend ∧ q ∈ (t.hw.seat s.cur.seat).pend ∧
    p.port = .v ∧ p.reg = (maVa f).toNat ∧ p.due = s.coreTime + 3 ∧ p.yu = none ∧
    q.port = .v ∧ q.reg = (maVb f).toNat ∧ q.due = s.coreTime + 3 ∧ q.yu = none ∧
    (∀ r < 64, let x := s.myCore.accRow d r;
      ln p.val r = BitVec.ofInt 32 x.e ∧ ln q.val r = BitVec.ofNat 32 (x.headroom + x.satr.toNat * 2 ^ 8 + x.start.toNat * 2 ^ 9)) ∧
    s.LeavesCore t s.myCore (stepped s 0) [])

/-- R257, R258, R261, R263: ASCL adds a scaled accumulator to another, AADDT a tile image; AWIN opens an accumulate window on an accumulator that
has none; ACOMMIT commits what has arrived and closes it. -/
def Obligations.AccumulatorAdds : Prop := ∀ (s : State) (f : FMA), s.Clean .m → let c := ctxOf s; let d := accPhys c f.acc
  let sh := shpArg c f.shp
  let co := fun (t : State) => t.hw.core (coreOf s.cur.seat);
  ((useAscl c f).causes = [] → s.myCore.accBad (accPhys c f.acs) sh.m = false →
    let cs := (List.range sh.n).map (fun n => mElem 9 24 (ln (vOp c (maVb f) 0) n).toNat)
    let l := ((List.range sh.m).filter (fun i => !(s.myCore.accRow (accPhys c f.acs) i).start)).map (fun i =>
      let src := s.myCore.accRow (accPhys c f.acs) i
      let r := mElem 9 24 (ln (vOp c (maVa f) 0) i).toNat;
      (i, contribute (s.myCore.accRow d i)
        (fun n => if n < sh.n then [((accElem src.e (src.at_ n)).mul r).mul (cs.getD n {})].filter (fun t => !t.idle) else [])
        (src.e + src.tm + maxBound 9 [r] + 1 + maxBound 9 cs + 1) false));
    (∀ p ∈ l, p.2.sat = none) → ∃ t, exec (.ascl f) s = .next t ∧ Contributed s t s.myCore d l 0) ∧
  ((useAaddt c f).causes = [] →
    let l := (List.range sh.m).map (fun i =>
      let els := (tileRow s.myCore (imgWord (tilePhys c f.t) sh) f.f.toNat sh i sh.n).map (mElem f.f.toNat (fullCount f.f.toNat));
      (i, contribute (s.myCore.accRow d i) (fun n => if n < sh.n then [els.getD n {}].filter (fun t => !t.idle) else [])
        (maxBound f.f.toNat els + 1) (fmtInt f.f.toNat)));
    (∀ p ∈ l, p.2.sat = none) → ∃ t w, exec (.aaddt f) s = .next t ∧ Contributed s t s.myCore d l w) ∧
  ((useAwin c f).causes = [] → ∃ t, exec (.awin f) s = .next t ∧ s.LeavesCore t { s.myCore with windows := (co t).windows } (stepped s 0) [] ∧
    (co t).windows = s.myCore.windows ++ [⟨isSeat1 s.cur.seat, f.acc.toNat, f.f.toNat + 1, phys c .gran f.t.toNat, [], 0, s.hw.glob.now + 1⟩]) ∧
  (∀ w, openWindow c f.acc = some w → (useAcommit c f).causes = [] →
    (w.sorted.map (fun a => w.rows s.myCore a.2.2)).any (fun l => l.any (fun r => r.bad)) = false →
    ∃ t, exec (.acommit f) s = .next t ∧
      (co t).windows = s.myCore.windows.filter (fun x => !(x.seat == w.seat && x.acc == w.acc)) ∧
      (co t).acc = (w.sorted.foldl (fun (x : Core) a => { x with
        acc := SMap.setAll {} x.acc ((arrivalContribs x d (w.rows s.myCore a.2.2)).map (fun p => (64 * d + p.1, p.2.row))) }) s.myCore).acc ∧
      (co t).tile = s.myCore.tile ∧ (∀ k, k ≠ s.cur.seat → t.hw.seat k = s.hw.seat k))

/-- R95, R259, R260: EPI writes the window's elements, converted, to a tile image, and the number of them that saturated to a sidecar; EPIX
writes the whole accumulator's image. -/
def Obligations.Epilogue : Prop := ∀ (s : State) (f : FEpi), s.Clean .m → let c := ctxOf s; let a := accPhys c f.acc
  let co := fun (t : State) => t.hw.core (coreOf s.cur.seat)
  let g := tilePhys c f.td
  let sh := shpArg c f.shp
  let np := fmtPlanes f.df.toNat
  let el := fun (i j : Nat) => let r := s.myCore.accRow a i
    if r.start then (0, false) else epiElem f.df.toNat (rndOf f.rnd.toNat) r.satr r.e (r.at_ j);
  ((useEpi c f).causes = [] → (∀ i < sh.m, (s.myCore.accRow a i).bad = false) → ∃ t w, exec (.epi f) s = .next t ∧
    (∀ i < sh.m, ∀ j < sh.n, (tileRow (co t) (imgWord g sh) f.df.toNat sh i sh.n).getD j 0 = (el i j).1 % 2 ^ np) ∧
    SMap.get 0 (co t).side (g + fmtGrans f.df.toNat - 1) =
      BitVec.ofNat 64 (((List.range sh.m).map (fun i => ((List.range sh.n).filter (fun j => (el i j).2)).length)).sum) ∧
    (∀ x, x < imgWord g sh ∨ imgWord g sh + 64 * np ≤ x → SMap.get 0 (co t).tile x = SMap.get 0 s.myCore.tile x) ∧
    (∀ p < np, ∀ r < 64, ∀ q < 64, (∀ i < sh.m, ∀ j < sh.n, r ≠ sh.row i ∨ q ≠ sh.col j) →
      (SMap.get 0 (co t).tile (imgWord g sh + 64 * p + r)).getLsbD q = (SMap.get 0 s.myCore.tile (imgWord g sh + 64 * p + r)).getLsbD q) ∧
    s.LeavesCore t (withTile s.myCore (co t)) (stepped s w) []) ∧
  ((useEpix c f).causes = [] → s.myCore.accBad a 64 = false → ∃ t, exec (.epix f) s = .next t ∧
    (∀ r < 64, ∀ w < 64, SMap.get 0 (co t).tile (512 * g + 64 * r + w) = BitVec.ofNat 64 (rowImage (s.myCore.accRow a r) / 2 ^ (64 * w))) ∧
    (∀ x, x < 512 * g ∨ 512 * g + 4096 ≤ x → SMap.get 0 (co t).tile x = SMap.get 0 s.myCore.tile x) ∧
    s.LeavesCore t (withTile s.myCore (co t)) (stepped s 0) [])

/-! ### Scan path -/

namespace Sys2Proof.Claim

/-- Outside the window of a shape the row-layout images at granules gs are as they were, and so is every word of the tile store that lies in
none of them. -/
def ImagesKept (a b : Core) (gs : List Nat) (sh : Shp) : Prop :=
  (∀ w, (∀ g ∈ gs, w < 512 * g ∨ 512 * g + 2048 ≤ w) → SMap.get 0 b.tile w = SMap.get 0 a.tile w) ∧
  ∀ g ∈ gs, ∀ r < 64, ∀ q < 64, (∀ i < sh.m, ∀ j < sh.n, r ≠ sh.row i ∨ q ≠ sh.col j) → rowLane b g r q = rowLane a g r q

/-- The pair image at granule g holds element x at (r, q). -/
def PairIs (co : Core) (g r q : Nat) (x : SEl) : Prop := rowLane co g r q = x.a % 2 ^ 32 ∧ rowLane co (g + 4) r q = x.b % 2 ^ 32

/-- Every lane of the state tiles but those at the listed (tile, row, lane) is as it was. -/
def StatesKept (a b : Core) (l : List (Nat × Nat × Nat)) : Prop := ∀ k, (∀ e ∈ l, k ≠ htKey e.1 e.2.1 e.2.2) → SMap.get 0 b.ht k = SMap.get 0 a.ht k

/-- Tree position of window row i (R107, R273). -/
def treePos (f : FScan) (i : Nat) : Nat := if f.rev then 63 - i else i

/-- The scan of one column of the window: the tree over its elements, absent ones elsewhere (R107, R273). -/
def columnScan (s : State) (f : FScan) (j : Nat) : List SEl :=
  let c := ctxOf s
  let sh := shpArg c f.shp
  treeScan (progOf c f) ((List.range 64).map (fun k =>
    if treePos f k < sh.m then pairEl s.myCore (tilePhys c f.tp) (sh.row (treePos f k)) (sh.col j) else SEl.none_))

/-- The carry slot's lane under column j. -/
def carryOf (s : State) (f : FScan) (j : Nat) : SEl :=
  let c := ctxOf s
  slotEl s.myCore (htPhys c f.h.toNat) (slotRow f) ((shpArg c f.shp).col j)

/-- What SCANL and SCAN leave in the tile store and the state tiles: each prefix with the carry on its left, and the total with it in the
carry slot. -/
def Scanned (s t : State) (f : FScan) : Prop :=
  let c := ctxOf s
  let sh := shpArg c f.shp
  let p := progOf c f
  let g := tilePhys c f.tp
  let h := htPhys c f.h.toNat
  let co := t.hw.core (coreOf s.cur.seat)
  let r := slotRow f;
  (∀ i < sh.m, ∀ j < sh.n, PairIs co g (sh.row i) (sh.col j) (combine p (carryOf s f j) ((columnScan s f j).getD (treePos f i) .none_))) ∧
  (∀ j < sh.n, let x := combine p (carryOf s f j) ((columnScan s f j).getD 63 .none_)
    htLane co h r (sh.col j) = x.a % 2 ^ 32 ∧ htLane co h (r + 1) (sh.col j) = x.b % 2 ^ 32) ∧
  ImagesKept s.myCore co [g, g + 4] sh ∧
  StatesKept s.myCore co ((List.range sh.n).flatMap (fun j => [(h, r, sh.col j), (h, r + 1, sh.col j)]))

/-- No combine of the operation replaces its result by the canonical NaN, which would note 0x5F (R266, R414). -/
def NoneReplaced (s : State) (f : FScan) : Prop := (scanLanes (ctxOf s) f).any (fun e => e.rep) = false

/-- The core with the tile store, marks and state tiles of another. -/
def withStates (a b : Core) : Core := { a with tile := b.tile, touched := b.touched, ht := b.ht }

/-- The landing offset of a tile-store form: the field, or the default when it is 0 (R72). -/
def copyLanding (s : State) (l : Nat) : Nat := if l = 0 then s.me.cpdef else l

/-- The message of a submission of lanes under SCANGRP (R274). -/
def scanMsg (s : State) (f : FScan) (lanes : List (Nat × SEl)) : ScanMsg :=
  let g := s.me.scangrp.toNat
  {
    seat := s.cur.seat, tag := g / 2 ^ 48, lpkg := (s.hw.inst s.me.inst).pkg, round := SMap.get 0 s.me.scanRound (g / 2 ^ 48)
    ord := g / 2 ^ 24 % 2 ^ 24, size := g % 2 ^ 24, prog := progOf (ctxOf s) f, acc := s.hw.glob.nextId
    lanes := lanes.map (fun e => (e.1, BitVec.ofNat 32 e.2.a, BitVec.ofNat 32 e.2.b)) }

/-- The submission of lanes: the access that stands for it, which leaves 72 ck after issue (R325), and the landing that keeps the state tile busy
(R274). -/
def Submitted (s t : State) (f : FScan) (d : Nat) (lanes : List (Nat × SEl)) : Prop :=
  let c := ctxOf s
  let m := scanMsg s f lanes;
  t.hw.acc? m.acc = some {
    seat := s.cur.seat, scPkg := pkgOfCore (coreOf s.cur.seat), due := s.coreTime + 72
    kind := .scanRes (htPhys c f.h.toNat) (slotRow f) m } ∧
  (∀ n, n ≠ m.acc → t.hw.acc? n = s.hw.acc? n) ∧
  (t.hw.seat s.cur.seat).scanRound = SMap.set 0 s.me.scanRound m.tag (m.round + 1) ∧
  (t.hw.core (coreOf s.cur.seat)).landings = s.myCore.landings ++
    [⟨m.acc, isSeat1 s.cur.seat, s.coreTime + d + copyLanding s (scLand f), 1, 0, false, false, 0⟩]

/-- What is left beside a submission: the seat's MPC and round number, its core, the accesses and their numbers. -/
def SubmitLeaves (s t : State) (co : Core) : Prop :=
  s.Leaves t { s.hw with cores := t.hw.cores, accs := t.hw.accs, glob := { s.hw.glob with nextId := s.hw.glob.nextId + 1 } }
    { stepped s 0 with scanRound := (t.hw.seat s.cur.seat).scanRound } [] ∧
  (∀ n, n ≠ coreOf s.cur.seat → t.hw.core n = s.hw.core n) ∧ Core.Rest co (t.hw.core (coreOf s.cur.seat))

/-- STEP and STEPY: the new element at row i and column j of the window (R278). -/
def stepped2 (s : State) (f : FScan) (i j : Nat) : SEl :=
  let c := ctxOf s
  let sh := shpArg c f.shp
  combine (progOf c f)
    { a := htLane s.myCore (htPhys c f.h.toNat) (sh.row i) (sh.col j), b := htLane s.myCore (htPhys c (f.h.toNat + 1)) (sh.row i) (sh.col j) }
    (pairEl s.myCore (tilePhys c f.tp) (sh.row i) (sh.col j))

/-- The writes of STEP and STEPY to their two state tiles. -/
def StatesStepped (s t : State) (f : FScan) : Prop :=
  let c := ctxOf s
  let sh := shpArg c f.shp
  let a := htPhys c f.h.toNat
  let b := htPhys c (f.h.toNat + 1)
  let co := t.hw.core (coreOf s.cur.seat);
  (∀ i < sh.m, ∀ j < sh.n, htLane co a (sh.row i) (sh.col j) = (stepped2 s f i j).a % 2 ^ 32 ∧
    htLane co b (sh.row i) (sh.col j) = (stepped2 s f i j).b % 2 ^ 32) ∧
  StatesKept s.myCore co ((List.range sh.m).flatMap (fun i => (List.range sh.n).flatMap (fun j =>
    [(a, sh.row i, sh.col j), (b, sh.row i, sh.col j)])))

end Sys2Proof.Claim

/-- R107, R273, R274: SCANL scans the window's columns with the carry slot; SCAN does the same and submits the slot's new lanes; SCANT submits
the whole slot as it stands. -/
def Obligations.ScanForms : Prop := ∀ (s : State) (f : FScan), s.Clean .m → let c := ctxOf s;
  ((useScan c f false true).causes = [] → ∃ t, exec (.scanl f) s = .next t ∧ Scanned s t f ∧ (NoneReplaced s f →
    s.LeavesCore t (withStates s.myCore (t.hw.core (coreOf s.cur.seat))) (stepped s 0) [])) ∧
  ((useScan c f true true).causes = [] → NoneReplaced s f → ∃ t, exec (.scan f) s = .next t ∧ Scanned s t f ∧
    Submitted s t f 72 ((List.range (shpArg c f.shp).n).map (fun j =>
      ((shpArg c f.shp).col j, combine (progOf c f) (carryOf s f j) ((columnScan s f j).getD 63 .none_)))) ∧
    SubmitLeaves s t { withStates s.myCore (t.hw.core (coreOf s.cur.seat)) with landings := (t.hw.core (coreOf s.cur.seat)).landings }) ∧
  ((useScant c f).causes = [] → ∃ t, exec (.scant f) s = .next t ∧
    Submitted s t f 0 ((List.range 64).map (fun n => (n, slotEl s.myCore (htPhys c f.h.toNat) (slotRow f) n))) ∧
    SubmitLeaves s t { s.myCore with landings := (t.hw.core (coreOf s.cur.seat)).landings })

/-- R272, R275, R278, R279: SCANC puts the carry on the left of every element of the window; QSET loads a program; STEP and STEPY combine the
state with the window's elements, STEPY into the image too; HLD and HST move a state tile, HZERO fills one. -/
def Obligations.StateForms : Prop := ∀ (s : State) (f : FScan), s.Clean .m → let c := ctxOf s
  let sh := shpArg c f.shp
  let g := tilePhys c f.tp
  let h := htPhys c f.h.toNat
  let co := fun (t : State) => t.hw.core (coreOf s.cur.seat)
  let left := fun (i j : Nat) => combine (progOf c f) (carryOf s f j) (pairEl s.myCore g (sh.row i) (sh.col j));
  ((useScan c f false false).causes = [] → ∃ t, exec (.scanc f) s = .next t ∧
    (∀ i < sh.m, ∀ j < sh.n, PairIs (co t) g (sh.row i) (sh.col j) (left i j)) ∧ ImagesKept s.myCore (co t) [g, g + 4] sh ∧
    (co t).ht = s.myCore.ht ∧
    ((∀ i < sh.m, ∀ j < sh.n, (left i j).rep = false) → s.LeavesCore t (withStates s.myCore (co t)) (stepped s 0) [])) ∧
  ((useQset c f).causes = [] → ∃ t, exec (.qset f) s = .next t ∧
    (t.hw.seat s.cur.seat).qr f.q.toNat = SMap.get 0 s.myCore.tile (512 * g + 2 * scW16 f + 1) ++ SMap.get 0 s.myCore.tile (512 * g + 2 * scW16 f) ∧
    (∀ n, n ≠ f.q.toNat → (t.hw.seat s.cur.seat).qr n = s.me.qr n) ∧
    s.LeavesCore t s.myCore { stepped s 0 with q := (t.hw.seat s.cur.seat).q } []) ∧
  ((useStep c f false).causes = [] → ∃ t, exec (.step f) s = .next t ∧ StatesStepped s t f ∧ (co t).tile = s.myCore.tile ∧
    ((∀ i < sh.m, ∀ j < sh.n, (stepped2 s f i j).rep = false) → s.LeavesCore t (withStates s.myCore (co t)) (stepped s 0) [])) ∧
  ((useStep c f true).causes = [] → ∃ t, exec (.stepy f) s = .next t ∧ StatesStepped s t f ∧
    (∀ i < sh.m, ∀ j < sh.n, PairIs (co t) g (sh.row i) (sh.col j) (stepped2 s f i j)) ∧ ImagesKept s.myCore (co t) [g, g + 4] sh ∧
    ((∀ i < sh.m, ∀ j < sh.n, (stepped2 s f i j).rep = false) → s.LeavesCore t (withStates s.myCore (co t)) (stepped s 0) [])) ∧
  ((useHmove c f true).causes = [] → ∃ t, exec (.hld f) s = .next t ∧
    (∀ r < 64, ∀ n < 64, htLane (co t) h r n = rowLane s.myCore g r n) ∧
    (∀ k, k / 4096 ≠ h → SMap.get 0 (co t).ht k = SMap.get 0 s.myCore.ht k) ∧
    s.LeavesCore t { s.myCore with ht := (co t).ht } (stepped s 0) []) ∧
  ((useHmove c f false).causes = [] → ∃ t, exec (.hst f) s = .next t ∧
    (∀ r < 64, ∀ n < 64, rowLane (co t) g r n = htLane s.myCore h r n) ∧
    (∀ w, w < 512 * g ∨ 512 * g + 2048 ≤ w → SMap.get 0 (co t).tile w = SMap.get 0 s.myCore.tile w) ∧
    s.LeavesCore t { s.myCore with tile := (co t).tile, touched := (co t).touched } (stepped s 0) []) ∧
  ((useHzero c f).causes = [] → ∃ t, exec (.hzero f) s = .next t ∧
    (∀ r < 64, ∀ n < 64, htLane (co t) h r n = if f.q = 0 then 0 else 2 ^ 32 - 1) ∧
    (∀ k, k / 4096 ≠ h → SMap.get 0 (co t).ht k = SMap.get 0 s.myCore.ht k) ∧
    s.LeavesCore t { s.myCore with ht := (co t).ht } (stepped s 0) [])

/-! ### Copy slots -/

namespace Sys2Proof.Claim

/-- A table entry as a store's dirty burst leaves it: with its dirty bit, when the burst marks it (R125). -/
def marked (mk : List Nat) (e : TabEnt) : TabEnt := if mk.contains e.key then { e with words := e.words.map (· ||| 2) } else e

/-- The package of the seat after a form that counts one access in a layer (R135) and marks the layer's frames (R125); no other layer changes,
and nothing else but what waits at its ports; no other package changes. -/
def LayersAfter (s t : State) (key : Option Nat) (n : Nat) (dirty : List (Nat × Nat)) : Prop :=
  let p := pkgOfCore (coreOf s.cur.seat)
  let a := s.hw.pkg p
  let b := t.hw.pkg p;
  (∀ q, q ≠ p → t.hw.pkg q = s.hw.pkg q) ∧ b = { a with layers := b.layers, links := b.links } ∧
  ∀ k, SMap.get {} b.layers k = (let e := SMap.get {} a.layers k
    if some k = key then { e with inflight := e.inflight + n, dirty := e.dirty ++ dirty.filter (fun x => !e.dirty.contains x) } else e)

/-- What a copy form leaves beside its effect: warnings; the core's other state, with the landing that the form books and its table entries in
another order, the marked ones dirty; every register, every other seat and core; every byte but the dirty bits of the marked entries. The
requests stand in the units on their way. -/
structure CopyLeaves (s t : State) (a : Seat) (b : BitVec 8) (l : List Landing) (mk : List Nat) : Prop where
  hw : t.hw = { s.hw with
    seats := t.hw.seats, cores := t.hw.cores, clusters := t.hw.clusters, dies := t.hw.dies, pkgs := t.hw.pkgs, accs := t.hw.accs
    glob := t.hw.glob, mem := t.hw.mem }
  cores : ∀ n, n ≠ coreOf s.cur.seat → t.hw.core n = s.hw.core n
  core : Core.Rest { s.myCore with
    landings := s.myCore.landings ++ l, tens := (t.hw.core (coreOf s.cur.seat)).tens, tabs := (t.hw.core (coreOf s.cur.seat)).tabs }
    (t.hw.core (coreOf s.cur.seat))
  tens : ∀ e, e ∈ (t.hw.core (coreOf s.cur.seat)).tens ↔ e ∈ s.myCore.tens
  tabs : ∀ e, e ∈ (t.hw.core (coreOf s.cur.seat)).tabs ↔ ∃ x ∈ s.myCore.tabs, e = marked mk x
  seats : ∀ k, k ≠ s.cur.seat → t.hw.seat k = s.hw.seat k
  seat : Seat.Rest (a.warned b) (t.hw.seat s.cur.seat)
  regs : ∀ q, s.me.Idle q → (t.hw.seat s.cur.seat).reg q = s.me.reg q
  bytes : ∀ x, Memory.read t.hw.mem x = if mk.contains x then Memory.read s.hw.mem x ||| 2 else Memory.read s.hw.mem x
  carried : Carried s t
  done : t.pre = none ∧ t.cur = {}

/-- An access stands under the next number, counted in its layer until its parts have performed. -/
def Started (s t : State) (a : Access) : Prop :=
  ∃ e, t.hw.acc? s.hw.glob.nextId = some e ∧ e = { a with parts := e.parts, counted := e.counted } ∧ e.parts.map asked = a.parts.map asked

/-- The booked landing of a form of b bytes (R281, R282). -/
def booked (s : State) (land b : Nat) : Landing :=
  { acc := s.hw.glob.nextId, seat := isSeat1 s.cur.seat, due := s.coreTime + copyLanding s land, len := ceilDiv b 256, tags := ceilDiv b 2048 }

/-- The uses of a form pass every check, and its table entries are there (R280, R291, R428). -/
def Ready (u : CUse) : Prop := u.causes = [] ∧ u.res.causes = [] ∧ u.res.need = [] ∧ u.res.bad = []

/-- The parts lead into the domain. -/
def InDomain (s : State) (l : List Part) : Prop := ∀ p ∈ l, p.pa / 2 ^ 46 < s.hw.glob.npkg

/-- The access of a tile load: bypassing the L1, counted in the scopes of its own cluster (R138, R139). -/
def loads (s : State) (kind : AccKind) (parts : List Part) (left : Nat) (t : Tens) : Access :=
  let core := coreOf s.cur.seat
  {
    seat := s.cur.seat, kind := kind, bypass := true, parts := parts, left := left, layer := if t.own then some t.key else none
    scCluster := some (domCl core), scStack := some (12 * pkgOfCore core + stackOfCl (clOfCore core)), scPkg := pkgOfCore core }

/-- The granules of a decode as the caches know their entries (R126, R430). -/
def granules (s : State) (ents : List Nat) : List (Option (Except Nat Nat) × Nat) :=
  (ents.map (granAt s.myCore s.hw)).zipIdx

/-- The header requests of a decode: those of its granules whose entries are there (R126, R290). -/
def headers (s : State) (ents : List Nat) : List Part :=
  (granules s ents).filterMap (fun b => match b.1 with | some (.ok pa) => some (hdrPart b.2 pa) | _ => none)

/-- A decode's access: each granule's entry or header is awaited, or it has failed for want of a block (R290, R430). -/
def decodes (s : State) (f : FCT) (ents : List Nat) (t : Tens) (mc : Option McWord) : Access :=
  { loads s (.tdec (tilePhys (ctxOf s) f.t) ents t.ctb mc) (headers s ents) ((mc.map (fun m => m.cores.length)).getD 0) t with
    rep := 8 * t.granules
    gst := (granules s ents).map (fun b => match b.1 with | some (.error _) => 4 | _ => 0)
    gfail := (granules s ents).filterMap (fun b => match b.1 with | some (.error c) => some (granFail b.2 c) | _ => none) }

/-- The state with the core's table entries as they were: what a decode leaves beside the entries that it fetches. -/
def tabsBack (s t : State) : State := { t with hw := { t.hw with
  cores := SMap.insert t.hw.cores (coreOf s.cur.seat) { t.hw.core (coreOf s.cur.seat) with tabs := s.myCore.tabs } } }

/-- A decode whose checks pass (R290 to R293): its access, its landing, and the entries that the caches lack, which come later. -/
def Decoded (s t : State) (f : FCT) (tl : Tens) (ents : List Nat) (mc : Option McWord) : Prop :=
  let a := decodes s f ents tl mc;
  Started s t a ∧ CopyLeaves s (tabsBack s t) s.me 0 [booked s (ctLand f) (4096 * ents.length)] [] ∧
  LayersAfter s t tl.ownKey (if a.gst.all (fun g => decide (2 ≤ g)) then 0 else 1) [] ∧
  ((∀ b ∈ granules s ents, b.1.isSome = true) → CopyLeaves s t s.me 0 [booked s (ctLand f) (4096 * ents.length)] []) ∧
  ((∀ e ∈ s.myCore.tabs, e.here = true) → ∀ q, (none, q) ∈ granules s ents → ∃ e ∈ (t.hw.core (coreOf s.cur.seat)).tabs, e.key = ents.getD q 0)

/-- What an access counts in its layer: 1 until its parts have performed, 0 when it has none. -/
def counts (l : List Part) : Nat := if l.isEmpty then 0 else 1

end Sys2Proof.Claim

/-- R121 to R126, R280 to R294: a tile load whose checks pass books its landing and sends its requests: TLD and TLDM every line of the tile,
TLDD (and TLDM with DEC) its granules' headers, and the entries of those granules that the caches lack, TLDG the row words that its list names. CNOP changes nothing. Nothing lands yet. TPF asks
for the tile's lines of this package, or its granules' blocks; where it would fault it does nothing. -/
def Obligations.TileLoads : Prop := ∀ (s : State) (sl : Slot) (f : FCT), (sl = .c0 ∨ sl = .c1) → s.Clean sl → Healthy s → let c := ctxOf s
  let g := tilePhys c f.t
  let land := ctLand f;
  (∃ t, exec .cnop s = .next t ∧ CopyLeaves s t s.me 0 [] [] ∧ t.hw.pkgs = s.hw.pkgs) ∧
  (let r := useTile c f false
    let tl := r.2.1
    let parts := tileParts r.2.2 tl.fb 0 tl.msf;
    Ready r.1 → InDomain s parts →
    (∃ t, exec (.tld f) s = .next t ∧ Started s t (loads s (.tload g (f.md.toNat % 8) tl.fb [] none) parts 0 tl) ∧
      CopyLeaves s t s.me 0 [booked s land tl.fb] [] ∧ LayersAfter s t tl.ownKey 1 []) ∧
    (f.md.toNat % 16 < 8 → pairCauses c f.xc = [] → let m := mcWord c f;
      ∃ t, exec (.tldm f) s = .next t ∧ Started s t (loads s (.tload g (f.md.toNat % 8) tl.fb [] (some m)) parts m.cores.length tl) ∧
        CopyLeaves s t s.me 0 [booked s land tl.fb] [] ∧ LayersAfter s t tl.ownKey 1 [])) ∧
  (let r := useDec c f
    let tl := r.2.1
    let ents := r.2.2;
    Ready r.1 → InDomain s (headers s ents) →
    (∃ t, exec (.tldd f) s = .next t ∧ Decoded s t f tl ents none) ∧
    (8 ≤ f.md.toNat % 16 → pairCauses c f.xc = [] → ∃ t, exec (.tldm f) s = .next t ∧ Decoded s t f tl ents (some (mcWord c f)))) ∧
  (let r := useRows c f false
    let tl := r.2.1
    let parts := rowParts c tl r.2.2.1 r.2.2.2 none
    let zeros := (List.range (fmtPlanes tl.fmt)).flatMap (fun p =>
      (r.2.2.1.zipIdx.filter (fun e => decide (2 ^ 31 ≤ e.1))).map (fun e => 64 * p + e.2));
    Ready r.1 → InDomain s parts →
    ∃ t, exec (.tldg f) s = .next t ∧ Started s t (loads s (.tload g 0 tl.fb zeros none) parts 0 tl) ∧
      CopyLeaves s t s.me (ctWarn f true false true true) [booked s land tl.fb] [] ∧ LayersAfter s t tl.ownKey (counts parts) []) ∧
  (let tr := tensRes c f.xh
    let tl := tr.2
    let r := coordOf c f.xc
    let res := tileRes c tl (tl.tileNo r.1 r.2)
    let good := tr.1.causes = [] ∧ tr.1.bad = [] ∧ coordCauses c tl r.1 r.2 = [] ∧ tensChecks c f.xh tl tl.cmp false = []
    let blocks := (tl.tileGranules (tl.tileNo r.1 r.2)).filterMap (fun g => (granBlock s.myCore s.hw (tl.ttb + 8 * g)).toOption)
    let lines := (if tl.cmp = true then blocks.flatMap (fun pa => tileParts pa (64 * blockLines s.hw pa) 0 false)
      else if res.1.causes = [] ∧ res.1.bad = [] ∧ tl.msf = false then tileParts res.2 tl.fb 0 false else []).filter
        (fun p => p.pa / 2 ^ 46 == pkgOfCore (coreOf s.cur.seat))
    let keeps := fun (t : State) => exec (.tpf f) s = .next t ∧ CopyLeaves s t s.me (ctWarn f false true true false) [] [] ∧ t.hw.pkgs = s.hw.pkgs;
    Ready (useTpf c f) → (¬good ∨ lines = [] → ∃ t, keeps t ∧ t.hw.accs = s.hw.accs) ∧ (good → lines ≠ [] → ∃ t, keeps t ∧ Started s t {
      seat := s.cur.seat, kind := .prefetch, bypass := true, parts := lines, scPkg := pkgOfCore (coreOf s.cur.seat) }))

/-- R125, R289, R295: a tile store whose checks pass marks the frames of its declared region dirty, in memory and in the core's cached entries,
and of an owned tensor at its layer, and sends the tile's lines, or the row words that its list names, with the bytes that the tile store holds
at issue; no other byte changes yet. -/
def Obligations.TileStores : Prop := ∀ (s : State) (sl : Slot) (f : FCT), (sl = .c0 ∨ sl = .c1) → s.Clean sl → Healthy s → let c := ctxOf s
  let core := coreOf s.cur.seat
  let entsOf := fun (tl : Tens) (tiles : List Nat) => (uniq (tiles.map (· / tl.perFrame))).map (fun n => tl.ttb + 8 * n)
  let readable := fun (l : List Nat) => ∀ e ∈ l, e < 2 ^ 52 ∧ ¬ s.hw.glob.poison.contains (lineOf e)
  let dirty := fun (l : List Nat) => l.map (fun a => (field (read64 s.hw a).toNat 51 16, a))
  let acc := fun (tl : Tens) (parts : List Part) => ({
    seat := s.cur.seat, kind := .tstore, cls := 3, parts := parts, scPkg := pkgOfCore core
    layer := if tl.own then some tl.key else none } : Access);
  (let r := useTst c f
    let tl := r.2.1
    let ents := entsOf tl (tl.tileNo (coordOf c f.xc).1 (coordOf c f.xc).2 :: regionTiles c f tl)
    let parts := (tileParts r.2.2 tl.fb 0 tl.msf).map (fun p => { p with
      wdata := (List.range 64).map (fun i => (i, (SMap.get 0 s.myCore.tile (512 * tilePhys c f.t + 64 * (f.md.toNat % 8) + p.off / 8 + i / 8)).extractLsb' (8 * (i % 8)) 8)) });
    Ready r.1 → readable ents → InDomain s parts →
    ∃ t, exec (.tst f) s = .next t ∧ Started s t (acc tl parts) ∧ CopyLeaves s t s.me (ctWarn f true true true false) [] ents ∧
      LayersAfter s t tl.ownKey 1 (dirty ents)) ∧
  (let r := useRows c f true
    let tl := r.2.1
    let ents := entsOf tl (listTiles tl r.2.2.2 r.2.2.1)
    let parts := rowParts c tl r.2.2.1 r.2.2.2 (some (fun p i => SMap.get 0 s.myCore.tile (512 * tilePhys c f.t + 64 * p + i)));
    Ready r.1 → readable ents → InDomain s parts →
    ∃ t, exec (.tsts f) s = .next t ∧ (parts ≠ [] → Started s t (acc tl parts)) ∧ (parts = [] → t.hw.acc? s.hw.glob.nextId = none) ∧
      CopyLeaves s t s.me (ctWarn f true false true false) [] ents ∧ LayersAfter s t tl.ownKey (counts parts) (dirty ents))

namespace Sys2Proof.Claim

/-- An access with nothing but a delivery to come, whose scope is that of a cluster. -/
def delivery (s : State) (kind : AccKind) (cl : Nat) : Access := {
  seat := s.cur.seat, kind := kind, left := 1, scCluster := some cl, scStack := some (12 * (cl / 144) + stackOfCl (cl % 144))
  scPkg := cl / 144 }

/-- A field of a word. -/
def bits (w hi lo : Nat) : Nat := w / 2 ^ lo % 2 ^ (hi + 1 - lo)

/-- A granule name moved by an offset; 1024 names none. -/
def moved (g : Nat) (o : Int) : Nat := if (g : Int) + o < 0 then 1024 else ((g : Int) + o).toNat

/-- The flag operation that a word carries (R287). -/
def carriedFlag (w : Nat) : Option (Nat × FlagAct) :=
  if w.testBit 26 then some (bits w 35 27, if w.testBit 36 then .set 1 else .add 1) else none

/-- The word of xXH. -/
def nameWord (s : State) (x : XNum) : Nat := (s.me.xr x.toNat).toNat

end Sys2Proof.Claim

/-- R287, R297, R298: TCPY sends granules and their sidecars, as they stand at issue, to a core that is there; RACC sends an accumulator whose
residues match, with its place in the seat's sequence to that window. The flag operation goes with the data. -/
def Obligations.CoreCopies : Prop := ∀ (s : State) (sl : Slot) (f : FCT), (sl = .c0 ∨ sl = .c1) → s.Clean sl → let c := ctxOf s
  let core := coreOf s.cur.seat
  let w := nameWord s f.xh
  let dst := w % 2 ^ 17
  let g := tilePhys c f.t
  let id := s.hw.glob.nextId;
  coreExists s.hw dst = true → Open s (pkgOfCore dst) (domCl dst) →
  (let n := f.md.toNat % 8 + 1;
    Ready (useTcpy c f) → ∃ t, exec (.tcpy f) s = .next t ∧ t.hw.acc? id = some (delivery s .copy (domCl dst)) ∧
      Sent t.hw (.inboundRemoteWrite {
        src := core, acc := id, core := dst, seat := w.testBit 17, granule := moved (bits w 25 18) c.o1, grans := n, bytes := 4096 * n
        words := (List.range (512 * n)).map (fun i => (8 * i, SMap.get 0 s.myCore.tile (512 * g + i)))
        side := (List.range n).map (fun i => (i, SMap.get 0 s.myCore.side (g + i))), fillSide := false
        flag := carriedFlag w }) ∧
      CopyLeaves s t s.me (ctWarn f true false false false) [] [] ∧ PortsOnly s.hw t.hw) ∧
  (let a := phys c .acc (f.t.toNat % 8)
    let key := 8 * (w % 2 ^ 18) + bits w 20 18
    let seq := SMap.get 0 s.me.raccSeq key;
    Ready (useRacc c f) → s.myCore.accBad a 64 = false →
    ∃ t, exec (.racc f) s = .next t ∧ t.hw.acc? id = some (delivery s .racc (domCl dst)) ∧
      Sent t.hw (.accumulateArrival {
        src := core, seq := seq, acc := id, core := dst, seat := w.testBit 17, win := bits w 20 18, words := accImage s.myCore a
        flag := carriedFlag w }) ∧
      CopyLeaves s t { s.me with raccSeq := SMap.set 0 s.me.raccSeq key (seq + 1) } (ctWarn f false false false false) [] [] ∧
      PortsOnly s.hw t.hw)

/-- R299, R300, R307, R308: NSEND takes room in its neighbour's buffer and the link, which serves messages in issue order at two ck a row; NRECV
books its landing and takes the oldest message that its tag admits, if there is one; CYSND sends two rows of a state tile along the carry ring;
CYRCV books its landing and takes the oldest carry of its tag. -/
def Obligations.NeighbourForms : Prop := ∀ (s : State) (sl : Slot), (sl = .c0 ∨ sl = .c1) → s.Clean sl → let c := ctxOf s
  let me := domCl (coreOf s.cur.seat)
  let id := s.hw.glob.nextId;
  (∀ (f : FCN) (n : Nat), let sh := shpArg c f.shp
    let d := f.dir.toNat
    let a := nameWord s f.a
    let dcore := 1152 * (n / 144) + 8 * (n % 144) + a % 8
    let start := max s.hw.glob.now (SMap.get 0 (s.hw.cluster me).nfree d);
    nbrWorks s.hw me d = some n → Ready (useNsend c f) →
    ∃ t, exec (.nsend f) s = .next t ∧ t.hw.acc? id = some (delivery s .nsend n) ∧
      (start + (if isBridge (me % 144) (n % 144) then 14 else 6) + 2 * sh.m, .neighbourMessageArrival {
        src := coreOf s.cur.seat, acc := id, core := dcore, seat := decide (a / 8 % 2 = 1), dir := d ^^^ 1, tag := s.me.tag
        rows := (List.range sh.m).map (fun i => ofLanes (fun l => rowLane s.myCore (tilePhys c f.t) (sh.row i) l)) }) ∈ t.hw.glob.agenda ∧
      SMap.get 0 (t.hw.cluster me).nfree d = start + 2 * sh.m ∧
      (t.hw.cluster n).nres = (s.hw.cluster n).nres ++ [(4 * (seatKey dcore (decide (a / 8 % 2 = 1))) + (d ^^^ 1), id, 256 * sh.m)] ∧
      CopyLeaves s t s.me (warnIf (cnLand f.ext != 0) wMisc) [] [] ∧ t.hw.pkgs = s.hw.pkgs) ∧
  (∀ f : FCN, let sh := shpArg c f.shp
    let tag := if f.any then none else some s.me.tag
    let m := nbrPick (s.hw.cluster me).nbuf s.cur.seat f.dir.toNat tag
    let a : Access := { delivery s (.nrecv (tilePhys c f.t) f.dir.toNat tag ((List.range sh.m).map sh.row)) me with left := 0 };
    Ready (useNrecv c f) → ∃ t, exec (.nrecv f) s = .next t ∧
      t.hw.acc? id = some (match m with | none => a | some m => { a with data := rowWords m.rows, arrived := true }) ∧
      (t.hw.cluster me).nbuf = (match m with | none => (s.hw.cluster me).nbuf | some m => (s.hw.cluster me).nbuf.erase m) ∧
      CopyLeaves s t s.me 0 [booked s (cnLand f.ext) (256 * sh.m)] [] ∧ t.hw.pkgs = s.hw.pkgs) ∧
  (∀ f : FCY, let w := nameWord s f.a
    let die := domDie (coreOf s.cur.seat)
    let ext := die % 4 == 3 && w.testBit 26
    let nd := carryNext s.hw die ext
    let dcore := 1152 * (nd / 4) + 8 * clOfLocal (nd % 4) (w % 64) + bits w 8 6
    let key := bits w 25 10
    let seq := SMap.get 0 s.me.carrySeq key
    let start := max s.hw.glob.now (s.hw.die die).chanFree
    let row := fun r => ofLanes (fun l => htLane s.myCore (htPhys c f.h.toNat) r l);
    Ready (useCysnd c f) → carryDown s.hw die ext = false →
    ∃ t, exec (.cysnd f) s = .next t ∧ t.hw.acc? id = some (delivery s .cysnd (domCl dcore)) ∧
      (start + (if ext then 683 else 32), .carryMessageArrival {
        src := s.cur.seat, core := dcore, seat := w.testBit 9, tag := key, seq := seq, acc := id, rowA := row (cyRow c f)
        rowB := row (cyRow c f + 1) }) ∈ t.hw.glob.agenda ∧
      (t.hw.die die).chanFree = start + 4 ∧
      CopyLeaves s t { s.me with carrySeq := SMap.set 0 s.me.carrySeq key ((seq + 1) % 16) }
        (warnIf (cnLand f.ext != 0 || (w.testBit 26 && die % 4 != 3)) wMisc) [] [] ∧ t.hw.pkgs = s.hw.pkgs) ∧
  (∀ f : FCY, let tag := nameWord s f.a % 2 ^ 16
    let core := coreOf s.cur.seat
    let m := cyPick s.myCore.carry (isSeat1 s.cur.seat) tag
    let a : Access := {
      seat := s.cur.seat, kind := .cyrcv (htPhys c f.h.toNat) (cyRow c f) tag, scCluster := some me, scPkg := pkgOfCore core };
    Ready (useCyrcv c f) → ∃ t, exec (.cyrcv f) s = .next t ∧
      t.hw.acc? id = some (match m with | none => a | some m => { a with data := rowWords [m.rowA, m.rowB], arrived := true }) ∧
      (t.hw.core core).carry = (match m with | none => s.myCore.carry | some m => s.myCore.carry.erase m) ∧
      (t.hw.core core).landings = s.myCore.landings ++ [⟨id, isSeat1 s.cur.seat, s.coreTime + copyLanding s (cnLand f.ext), 1, 1, false, false, 0⟩] ∧
      (t.hw.core core).tile = s.myCore.tile ∧ (t.hw.core core).ht = s.myCore.ht ∧ (t.hw.core core).acc = s.myCore.acc ∧
      (∀ n, n ≠ core → t.hw.core n = s.hw.core n) ∧
      Carried s t ∧ s.Leaves t { s.hw with cores := t.hw.cores, dies := t.hw.dies, accs := t.hw.accs, glob := t.hw.glob } s.me [])

namespace Sys2Proof.Claim

/-- The entry of layer l of model m in the package of the seat. -/
def layerOf (h : Hw) (s : State) (m l : Nat) : Layer := SMap.get {} (h.pkg (pkgOfCore (coreOf s.cur.seat))).layers (1024 * m + l)

/-- The hardware s with the layers of the package of the seat as in t; every layer but the named one is as g says of its entry. -/
def LayersOnly (s t : State) (m l : Nat) (g : Nat → Layer → Layer) (models : SMap Model) : Prop :=
  let p := pkgOfCore (coreOf s.cur.seat)
  let a := s.hw.pkg p
  let b := t.hw.pkg p;
  (∀ q, q ≠ p → t.hw.pkg q = s.hw.pkg q) ∧ b = { a with layers := b.layers, models := models } ∧
  ∀ k, k ≠ 1024 * m + l → SMap.find b.layers k = (SMap.find a.layers k).map (g k)

/-- The pins of seat k on a layer. -/
def pinsOf (e : Layer) (k : Nat) : Nat := ((e.pins.find? (fun q => q.1 == k)).map (fun q => q.2)).getD 0

/-- The mailbox of the seat's cluster. -/
def mailbox (h : Hw) (s : State) : List MEntry := (h.cluster (domCl (coreOf s.cur.seat))).mbox

/-- The seat's cluster is as it was but for its mailbox, as are all others. -/
def MailboxOnly (s t : State) : Prop :=
  let cl := domCl (coreOf s.cur.seat);
  (∀ n, n ≠ cl → t.hw.cluster n = s.hw.cluster n) ∧
  t.hw.cluster cl = { s.hw.cluster cl with mbox := (t.hw.cluster cl).mbox, ticket := (t.hw.cluster cl).ticket }

/-- A form that answers v in xd and changes nothing else. -/
def Answers (s : State) (i : Instr) (d : XNum) (v : W64) : Prop :=
  ∃ t, exec i s = .next t ∧ (t.hw.seat s.cur.seat).xr d.toNat = (if d = 0 then 0 else v) ∧ s.Leaves t s.hw s.me [(.x, d.toNat)]

end Sys2Proof.Claim

/-- R134, R136, R301, R440: LACQ of a layer in residence takes a pin and names the following absent layers of the prefetch window; of a layer
that is not, it stalls its bundle, whose only effect is the pin and the demand. LREL gives a pin back; with the last one the layer's release time
is set. LHINT sets the window and names the layer. -/
def Obligations.ResidencyForms : Prop := ∀ (s : State) (sl : Slot) (a b : XNum), (sl = .c0 ∨ sl = .c1) → s.Clean sl → s.HasX a → s.HasX b →
  let c := ctxOf s
  let m := (layerArg c a).1
  let l := (layerArg c a).2
  let k := s.cur.seat
  let e := layerOf s.hw s m l
  let ms := (s.hw.pkg (pkgOfCore (coreOf k))).models
  let now := s.hw.cycle (pkgOfCore (coreOf k))
  let ahead := fun (n : Nat) (x : Layer) => if n / 1024 = m ∧ l < n % 1024 ∧ n % 1024 ≤ l + (SMap.get {} ms m).win ∧ x.st = .absent ∧ x.failed = false
    then { x with cand := true } else x;
  layerDefined c m l = true →
  (e.st = .resident → hasPin c m l = false → quotaCauses c m l = [] → ∃ t, exec (.lacq a) s = .next t ∧
    layerOf t.hw s m l = { e with pins := (k, pinsOf e k + 1) :: e.pins.filter (fun q => q.1 != k) } ∧ LayersOnly s t m l ahead ms ∧
    s.Leaves t { s.hw with pkgs := t.hw.pkgs } { s.me with lastLayer := some (m, l) } []) ∧
  (e.st ≠ .resident → s.me.stalledPin = none → hasPin c m l = false → quotaCauses c m l = [] → ∃ t, exec (.lacq a) s = .next t ∧
    layerOf t.hw s m l = { e with
      pins := (k, pinsOf e k + 1) :: e.pins.filter (fun q => q.1 != k), demandAt := some (e.demandAt.getD now) } ∧
    LayersOnly s t m l (fun _ x => x) ms ∧
    t.hw.seat k = { s.me with wait := .lacq m l s.hw.glob.now, stalledPin := some (m, l), lastLayer := some (m, l) } ∧
    s.Leaves t { s.hw with pkgs := t.hw.pkgs }
      { s.me with wait := .lacq m l s.hw.glob.now, stalledPin := some (m, l), lastLayer := some (m, l) } []) ∧
  (∀ n, s.me.stalledPin ≠ some (m, l) → 0 < n → e.pins.filter (fun q => q.1 == k) = [(k, n)] →
    ∃ t, exec (.lrel a) s = .next t ∧ let x := layerOf t.hw s m l;
    pinsOf x k = n - 1 ∧ (∀ j, j ≠ k → pinsOf x j = pinsOf { e with pins := e.pins.filter (fun q => q.2 != 0) } j) ∧
    x = { e with pins := x.pins, rel := if x.pins = [] then now else e.rel } ∧
    (∀ g y, (g, y) ≠ (m, l) → y < 1024 → l < 1024 → (∀ q ∈ (layerOf s.hw s g y).pins, q.2 ≠ 0) → layerOf t.hw s g y = layerOf s.hw s g y) ∧
    s.Leaves t { s.hw with pkgs := t.hw.pkgs } { s.me with lastLayer := some (m, l) } []) ∧
  (∃ t, exec (.lhint a b) s = .next t ∧
    layerOf t.hw s m l = (if e.st = .absent ∧ e.failed = false then { e with cand := true } else e) ∧
    LayersOnly s t m l (fun _ x => x) (SMap.insert ms m { SMap.get {} ms m with win := (s.me.xr b.toNat).toNat % 16 }) ∧
    s.Leaves t { s.hw with pkgs := t.hw.pkgs } { s.me with lastLayer := some (m, l) } [])

/-- R302, R303: CREQ of a quiet seat posts an entry with the next ticket, and answers 1 and the ticket; with 16 entries in use it answers 0; with
accesses outstanding it reserves the entry and waits for its release. CPOLL answers the state and the result of the seat's entry of a ticket, and
removes an entry that has ended; 0 when the seat has no such entry. -/
def Obligations.MailboxForms : Prop := ∀ (s : State) (sl : Slot) (f : FCX), (sl = .c0 ∨ sl = .c1) → s.Clean sl → s.HasX f.d → s.HasX f.a → s.HasX f.b →
  s.me.Idle (.x, f.d.toNat) → let core := coreOf s.cur.seat
  let cl := domCl core
  let tk := (s.hw.cluster cl).ticket
  let n := 2 ^ 16 + (ctxOf s).order
  let entry := fun (st ticket : Nat) => ({
    ticket := ticket, core := core, seat := isSeat1 s.cur.seat, inst := s.me.inst, fn := f.fn.toNat, a := s.me.xr f.a.toNat, b := s.me.xr f.b.toNat
    st := st } : MEntry)
  let mine := fun (x : MEntry) => x.ticket == (s.me.xr f.a.toNat).toNat % 2 ^ 16 && x.core == core && x.seat == isSeat1 s.cur.seat &&
    x.inst == s.me.inst && x.st != 0;
  (16 ≤ (mailbox s.hw s).length → Answers s (.creq f) f.d 0) ∧
  ((mailbox s.hw s).length < 16 → Quiet s → (∀ x ∈ mailbox s.hw s, x.ticket ≠ n) → ∃ t, exec (.creq f) s = .next t ∧
    (t.hw.seat s.cur.seat).xr f.d.toNat = (if f.d = 0 then 0 else BitVec.ofNat 64 (1 + tk * 2 ^ 16)) ∧
    mailbox t.hw s = mailbox s.hw s ++ [entry 1 tk] ∧ (t.hw.cluster cl).ticket = (tk + 1) % 2 ^ 16 ∧ MailboxOnly s t ∧
    s.Leaves t { s.hw with clusters := t.hw.clusters } s.me [(.x, f.d.toNat)]) ∧
  ((mailbox s.hw s).length < 16 → drained s.hw s.cur.seat 0 s.hw.glob.nextId = false → ∃ t, exec (.creq f) s = .next t ∧
    mailbox t.hw s = mailbox s.hw s ++ [entry 0 n] ∧ (t.hw.cluster cl).ticket = tk ∧ MailboxOnly s t ∧
    s.Leaves t { s.hw with clusters := t.hw.clusters } { s.me with
      wait := .release s.hw.glob.now
      rels := s.me.rels ++ [{ scope := 0, start := s.hw.glob.now, before := s.hw.glob.nextId, op := .creq cl n f.d.toNat }] } []) ∧
  ((∀ x ∈ mailbox s.hw s, mine x = false) → Answers s (.cpoll f.d f.a) f.d 0) ∧
  (∀ x, (mailbox s.hw s).find? mine = some x → ∃ t, exec (.cpoll f.d f.a) s = .next t ∧
    (t.hw.seat s.cur.seat).xr f.d.toNat = (if f.d = 0 then 0 else BitVec.ofNat 64 (x.st + x.result.toNat * 2 ^ 32)) ∧
    mailbox t.hw s = (if 3 ≤ x.st then (mailbox s.hw s).erase x else mailbox s.hw s) ∧ MailboxOnly s t ∧
    s.Leaves t { s.hw with clusters := t.hw.clusters } s.me [(.x, f.d.toNat)])

/-- R304: the XSTAT actions on a junction core. Status, operands and plan status are answered; a take marks the first posted entry TAKEN and answers
what it asks for; a complete of a quiet seat and a fail end a TAKEN entry with a result. A ticket that no entry holds answers 0. -/
def Obligations.JunctionForms : Prop := ∀ (s : State) (sl : Slot) (d a b : XNum), (sl = .c0 ∨ sl = .c1) → s.Clean sl → s.HasX d → s.HasX a → s.HasX b →
  s.me.Idle (.x, d.toNat) → isJct s.hw (coreOf s.cur.seat) = true →
  let x := s.hw.cluster (domCl (coreOf s.cur.seat))
  let tk := (s.me.xr a.toNat).toNat % 2 ^ 16
  let posted := fun (e : MEntry) => e.ticket == tk && e.st != 0
  let ended := fun (st : Nat) => x.mbox.map (fun e => if e.ticket = tk ∧ e.st = 2 then { e with st := st, result := (s.me.xr b.toNat).setWidth 32 } else e)
  let box := fun (i : Instr) (v : W64) (m : List MEntry) => ∃ t, exec i s = .next t ∧
    (t.hw.seat s.cur.seat).xr d.toNat = (if d = 0 then 0 else v) ∧ mailbox t.hw s = m ∧ MailboxOnly s t ∧
    s.Leaves t { s.hw with clusters := t.hw.clusters } s.me [(.x, d.toNat)];
  Answers s (.xstatStatus d a b) d (BitVec.ofNat 64 (x.plans.length + x.mbox.length * 2 ^ 16)) ∧
  (x.mbox.find? (fun e => e.st == 1) = none → Answers s (.xstatTake d a b) d 0) ∧
  (∀ e, x.mbox.find? (fun e => e.st == 1) = some e → box (.xstatTake d a b)
    (BitVec.ofNat 64 (2 ^ 63 + e.fn * 2 ^ 20 + e.seat.toNat * 2 ^ 19 + e.core % 8 * 2 ^ 16 + e.ticket))
    (x.mbox.map (fun y => if y.ticket = e.ticket ∧ y.st = 1 then { y with st := 2 } else y))) ∧
  (Answers s (.xstatReadA d a b) d (match x.mbox.find? posted with | none => 0 | some e => e.a)) ∧
  (Answers s (.xstatReadB d a b) d (match x.mbox.find? posted with | none => 0 | some e => e.b)) ∧
  (x.mbox.any (fun e => e.ticket == tk && e.st == 2) = false → Answers s (.xstatComplete d a b) d 0 ∧ Answers s (.xstatFail d a b) d 0) ∧
  (x.mbox.any (fun e => e.ticket == tk && e.st == 2) = true → box (.xstatFail d a b) 1 (ended 4) ∧
    (Quiet s → box (.xstatComplete d a b) 1 (ended 3))) ∧
  Answers s (.xstatPlanStatus d a b) d (match SMap.find x.plans ((s.me.xr a.toNat).toNat % 256) with
    | none => 0
    | some p => BitVec.ofNat 64 (p.done + p.phases.length % 2 ^ 16 * 2 ^ 16 +
      (if p.running then p.chunksDone % 2 ^ 16 * 2 ^ 32 + 2 ^ 63 else 0)))

/-- R305, R306, R344, R348, R456: on a junction core XPLAN waits for its derivation, which ends 2,048 ck later; XSTEP starts the next phase of a plan
that may start one, and answers its number; XABORT frees a plan that sends no chunk, with notices to the other members unless all of its phases
have completed, and answers the chunks that it has sent. Members that can reach each other, none of them under reset, hear of both. -/
def Obligations.PlanForms : Prop := ∀ (s : State) (sl : Slot) (d a : XNum) (comm : BitVec 4), (sl = .c0 ∨ sl = .c1) → s.Clean sl → s.HasX d → s.HasX a →
  s.me.Idle (.x, d.toNat) → isJct s.hw (coreOf s.cur.seat) = true →
  let cl := domCl (coreOf s.cur.seat)
  let x := s.hw.cluster cl
  let i := (s.me.xr a.toNat).toNat % 256
  let reach := fun (p : Plan) => ∀ m ∈ (SMap.get {} x.comms p.comm).members,
    Open s (m / 144) m ∧ reachable s.hw (m / 144) (cl / 144) = true ∧ isFenced s.hw cl = false
  let here := fun (t : State) => (∀ n, n ≠ cl → t.hw.cluster n = { s.hw.cluster n with inj := (t.hw.cluster n).inj }) ∧ PortsOnly s.hw t.hw ∧
    (∀ j, j ≠ i → SMap.find (t.hw.cluster cl).plans j = SMap.find x.plans j) ∧ (t.hw.cluster cl).mbox = x.mbox ∧ (t.hw.cluster cl).comms = x.comms ∧
    (t.hw.cluster cl).queues = x.queues ∧ t.hw.glob = { s.hw.glob with agenda := t.hw.glob.agenda } ∧
    s.Leaves t { s.hw with clusters := t.hw.clusters, glob := t.hw.glob, pkgs := t.hw.pkgs } s.me [(.x, d.toNat)];
  (∃ t, exec (.xplan d a comm) s = .next t ∧ (s.hw.glob.now + 2048, .xplanDerivationComplete s.cur.seat) ∈ t.hw.glob.agenda ∧
    t.hw.glob = { s.hw.glob with agenda := t.hw.glob.agenda } ∧
    s.Leaves t { s.hw with glob := t.hw.glob } { s.me with wait := .xplan d.toNat (s.me.xr a.toNat).toNat comm.toNat } []) ∧
  (SMap.find x.plans i = none → Answers s (.xstep d a) d 0 ∧ Answers s (.xabort d a) d 0) ∧
  (∀ p, SMap.find x.plans i = some p →
    (canStep s.hw cl p = false → Answers s (.xstep d a) d 0) ∧
    (let c := SMap.get {} x.comms p.comm
      let me := rankOf c cl
      let out := cutChunks p.block (outgoing p.block p.phase me)
      let want := shardElems p.block p.phase.tlay me;
      canStep s.hw cl p = true → reach p → x.tx.any (fun e => e.2.plan == i) = false → ∃ t q, exec (.xstep d a) s = .next t ∧
        (t.hw.seat s.cur.seat).xr d.toNat = (if d = 0 then 0 else BitVec.ofNat 64 (0x10000 + p.done)) ∧
        SMap.find (t.hw.cluster cl).plans i = some q ∧ q.out = out ∧ q.want = want ∧ q.startCk = s.hw.glob.now ∧ q.block = p.block ∧
        (if out = [] ∧ want = [] then q.done = p.done + 1 ∧ q.running = false
          else q.done = p.done ∧ q.running = true ∧ q.snap = phaseSnap s.hw (cl / 144) c p me) ∧ here t) ∧
    (x.tx.any (fun e => e.2.plan == i) = false ∨ p.phases.length ≤ p.done → reach p → ∃ t, exec (.xabort d a) s = .next t ∧
      (t.hw.seat s.cur.seat).xr d.toNat = (if d = 0 then 0 else BitVec.ofNat 64 p.total) ∧
      SMap.find (t.hw.cluster cl).plans i = none ∧
      (p.done < p.phases.length → ∀ m ∈ (SMap.get {} x.comms p.comm).members, m ≠ cl →
        Sent t.hw (.abortNotice m p.comm p.seq (rankOf (SMap.get {} x.comms p.comm) cl) (SMap.get {} x.comms p.comm).gtag)) ∧ here t) ∧
    (x.tx.any (fun e => e.2.plan == i) = true → p.done < p.phases.length → ∃ t, exec (.xabort d a) s = .next t ∧
      (t.hw.seat s.cur.seat).xr d.toNat = (if d = 0 then 0 else BitVec.ofNat 64 p.total) ∧
      SMap.find (t.hw.cluster cl).plans i = some { p with aborting := true } ∧ here t))

/-! ### Events -/

namespace Sys2Proof.Claim

/-- The state after an event: its hardware, and nothing else but the event itself is changed. -/
def Became (s t : State) (g : Hw) : Prop := t = { s with hw := g, ev := .ext .nop }

/-- An event that changes one seat alone. -/
def SeatBecame (s t : State) (k : Nat) (x : Seat) : Prop :=
  t.hw.seat k = x ∧ (∀ j, j ≠ k → t.hw.seat j = s.hw.seat j) ∧ Became s t { s.hw with seats := t.hw.seats }

/-- A scalar result on its way, in order behind those of the same ck; x0 takes none. -/
def given (x : Seat) (xd : Nat) (v : W64) (due order : Nat) : Seat := if xd = 0 then x else { x with pend := pendAdd x.pend (xPend xd v due order) }

/-- The seat goes on at core time t: its next bundle issues at the ck after it, and after the bundle's stall, at the earliest. -/
def goesOn (x : Seat) (t : Nat) : Seat := { x with wait := .none, nextIssue := max x.nextIssue (t + 1 + x.stallW) }

/-- The second state with what waits at the ports of the links as in the first: what a refusal that goes back to another package changes there. -/
def portsBack (s t : State) : State := { t with hw := { t.hw with
  pkgs := t.hw.pkgs.map (fun e => (e.1, { e.2 with links := (s.hw.pkg e.1).links })) } }

/-- A message is queued at a core whose other state is `co`: its words, in runs of one 256-byte block, to be written from this ck on. -/
def Arrives (s t : State) (core : Nat) (b : Inbound) (co : Core) (src acc : Nat) (words : List (Nat × W64)) : Prop :=
  t.hw.core core = { co with inbound := [b] } ∧ (∀ n, n ≠ core → t.hw.core n = s.hw.core n) ∧ b.src = src ∧ b.order = acc ∧
  b.blocks.flatten = words ∧ (∀ l ∈ b.blocks, l ≠ [] ∧ ∀ x ∈ l, ∀ y ∈ l, x.1 / 32 = y.1 / 32) ∧ b.next = s.hw.glob.now ∧ b.written = 0

/-- The bytes below the dirty lines of a die's slices: what HBM holds there while only the slices hold the stores (R116). -/
def heldBack (h : Hw) (die : Nat) : List (Nat × Byte) :=
  ((h.clusters.map (fun c => c.1)).filter (fun c => 4 * (c / 144) + dieOfCl (c % 144) == die)).flatMap (fun c =>
    ((h.cluster c).slice.flatMap (fun l => l.2)).flatMap (fun l =>
      if l.dirty then l.was.zipIdx.map (fun b => ((64 * l.line + b.2) % 2 ^ 52, b.1)) else []))

/-- A die's error ring, the die's ring registers and its package's replies are all that a record may change. -/
structure Recorded (s t : State) (d : Nat) : Prop where
  bytes : ∀ x, (∀ i < 2 ^ 16, (ringPa d 0 + i) % 2 ^ 52 ≠ x) → Memory.read t.hw.mem x = Memory.read s.hw.mem x
  dies : ∀ n, n ≠ d → t.hw.die n = s.hw.die n
  die : t.hw.die d = { s.hw.die d with
    prod := (t.hw.die d).prod, recs := (t.hw.die d).recs, recNew := (t.hw.die d).recNew, rseq := (t.hw.die d).rseq
    lostRec := (t.hw.die d).lostRec, lastRec := (t.hw.die d).lastRec }
  pkgs : ∀ n, t.hw.pkg n = { s.hw.pkg n with replies := (t.hw.pkg n).replies }

/-- Seat k is frozen for the supervisor with a cause; its registers and its bundle are as they were. -/
def Froze (s t : State) (k code : Nat) : Prop :=
  let x := s.hw.seat k
  let y := t.hw.seat k;
  y.frozen.on = true ∧ y.frozen.cause.code = code ∧ y.pc = x.pc ∧ y.mpc = x.mpc ∧ y.wait = .none ∧ y.tcause.toNat % 512 = code ∧ y.tpc = x.pc ∧
  ∀ q, x.Idle q → y.reg q = x.reg q

/-- Seat k has entered its handler with a cause. -/
def Handles (s t : State) (k code : Nat) : Prop :=
  let x := s.hw.seat k
  let y := t.hw.seat k;
  y.handler = true ∧ y.pc = x.tvec ∧ y.tpc = x.pc ∧ y.tcause.toNat % 512 = code ∧
  y.shadow = { sticky := x.sticky, repOn := x.repOn, repJ := x.repJ, repN := x.repN, mpc := x.mpc } ∧ ∀ q, x.Idle q → y.reg q = x.reg q

/-- The error ring of a die is in order, and the seat's handler is not running. -/
def Chargeable (s : State) (k : Nat) : Prop :=
  (s.hw.die (domDie (coreOf k))).prod < 1023 ∧ (s.hw.seat k).handler = false ∧ (s.hw.seat k).frozen.on = false

end Sys2Proof.Claim

/-- R148, R169, R213, R216, R218, R221, R411, R419, R422: what ends a seat's wait. FWAIT writes 2^16 plus the flag, or zero at its limit; DRAIN writes
its status; a release that has drained goes on to its operation; SLEEP, TLBINV, TTINV and WIPE end, and with the slices that WIPE zeroes goes what
they alone hold; a resumed seat issues three ck later, a retired
one is RETIRING; a bundle without a slot moves the sequencer on; a hold, an ACOMMIT and a phase that reach their limits are charged. -/
def Obligations.SeatEvents : Prop := ∀ (s : State) (k : Nat), let x := s.hw.seat k
  let tm := s.hw.coreT (coreOf k);
  (∀ f n c m xd ra rb, x.wait = .fwait f n c m xd ra rb →
    (s.ev = .fwaitSatisfied k → ∃ t, exec .fwaitSatisfied s = .next t ∧ SeatBecame s t k
      (goesOn (given x xd (BitVec.ofNat 64 (2 ^ 16 + (SMap.get 0 (s.hw.core (coreOf k)).flags f).toNat)) tm x.lastOrder) tm)) ∧
    (s.ev = .fwaitTimeout k → ∃ t, exec .fwaitTimeout s = .next t ∧ SeatBecame s t k (goesOn (given x xd 0 tm x.lastOrder) tm))) ∧
  (∀ xd sc c before, x.wait = .drain xd sc c before →
    (s.ev = .drainComplete k → ∃ t, exec .drainComplete s = .next t ∧
      t.hw.seat k = goesOn (given x xd (drainStatus s.hw k sc before false) tm x.lastOrder) tm ∧ (∀ j, j ≠ k → t.hw.seat j = s.hw.seat j) ∧
      Became s t { s.hw with seats := t.hw.seats, accs := t.hw.accs } ∧
      (∀ n, (∀ e ∈ covered s.hw k sc before, e.1 ≠ n) → t.hw.acc? n = s.hw.acc? n)) ∧
    (s.ev = .drainLimit k → (s.hw.die (domDie (coreOf k))).prod < 1023 → ∃ t, exec .drainLimit s = .next t ∧
      t.hw.seat k = goesOn (given x xd (drainStatus s.hw k sc before true) tm x.lastOrder) tm ∧ (∀ j, j ≠ k → t.hw.seat j = s.hw.seat j) ∧
      Became s t { s.hw with seats := t.hw.seats, accs := t.hw.accs, mem := t.hw.mem, dies := t.hw.dies, pkgs := t.hw.pkgs } ∧
      Recorded s t (domDie (coreOf k)))) ∧
  (∀ r, s.ev = .releaseDrainComplete k → relReady s.hw k = some r → ∃ t, exec .releaseDrainComplete s = .next t ∧
    (t.hw.seat k).rels = x.rels.erase r ∧ (r.op.waits = true → (t.hw.seat k).wait = .none ∧ tm < (t.hw.seat k).nextIssue) ∧
    (∀ j, j ≠ k → t.hw.seat j = s.hw.seat j) ∧
    (drained s.hw k r.scope r.before = true → drainStatus s.hw k r.scope r.before false = 0 →
      (∀ cl n xd, r.op = .creq cl n xd → t.hw.mem = s.hw.mem ∧
        ∀ e, (s.hw.cluster cl).mbox.find? (fun e => e.waitsFor k n) = some e → let tk := (s.hw.cluster cl).ticket
        (t.hw.cluster cl).mbox = (s.hw.cluster cl).mbox.erase e ++ [{ e with ticket := tk, st := 1 }] ∧
        (t.hw.cluster cl).ticket = (tk + 1) % 2 ^ 16) ∧
      (∀ cl q n, r.op = .queuePush cl q n → t.hw.mem = s.hw.mem ∧ (SMap.get {} (t.hw.cluster cl).queues q).places =
        (SMap.get {} (s.hw.cluster cl).queues q).places.map (fun p => if p.id = n then { p with ready := true } else p)))) ∧
  (∀ m : FlagMsg, s.ev = .remoteFlagArrival m → m.byTag = none → (s.hw.core m.core).flagOps = [] → ∃ t, exec .remoteFlagArrival s = .next t ∧
    SMap.get 0 (t.hw.core m.core).doFlags.flags m.flag =
      (match m.act with | .add v => SMap.get 0 (s.hw.core m.core).flags m.flag + v | .set v => v) ∧
    (∀ f, f ≠ m.flag → SMap.get 0 (t.hw.core m.core).doFlags.flags f = SMap.get 0 (s.hw.core m.core).flags f) ∧
    (∀ n, n ≠ m.acc → t.hw.acc? n = s.hw.acc? n) ∧ (∀ n, n ≠ m.core → t.hw.core n = s.hw.core n) ∧
    Became s t { s.hw with cores := t.hw.cores, accs := t.hw.accs }) ∧
  (∀ T, s.ev = .sleepWake k → x.wait = .sleep T → ∃ t, exec .sleepWake s = .next t ∧
    SeatBecame s t k { x with st := if x.st = .parked then .run else x.st, wait := .none, nextIssue := max x.nextIssue tm }) ∧
  (∀ c d b, supSeat s.hw c = some k → coreOf k = c → x.wait = .sup d b →
    (s.ev = .invalidateAcknowledged c → ∃ t, exec .invalidateAcknowledged s = .next t ∧ SeatBecame s t k (goesOn x tm)) ∧
    (∀ die, c = sysBase + die → s.ev = .wipeComplete die → ∃ t, exec .wipeComplete s = .next t ∧
      t.hw.seat k = goesOn (given x d 0 tm x.lastOrder) tm ∧ (∀ j, j ≠ k → t.hw.seat j = s.hw.seat j) ∧
      (∀ n, SMap.has s.hw.cores n = true → domDie n = die →
        (t.hw.core n).tile = [] ∧ (t.hw.core n).side = [] ∧ (t.hw.core n).acc = [] ∧ (t.hw.core n).latch = [] ∧ (t.hw.core n).ht = []) ∧
      (∀ n, domDie n ≠ die → t.hw.core n = s.hw.core n) ∧
      (∀ n, SMap.has s.hw.clusters n = true → 4 * (n / 144) + dieOfCl (n % 144) = die → (t.hw.cluster n).slice = []) ∧
      ((s.hw.die die).supWait = 1 → ∀ i < 3, ∀ y < 2 ^ 36, Memory.read t.hw.mem (paOf (die / 4) ((3 * (die % 4) + i) * 2 ^ 36) + y) = 0) ∧
      ((s.hw.die die).supWait ≠ 1 →
        (∀ y, (∀ b ∈ heldBack s.hw die, b.1 ≠ y) → Memory.read t.hw.mem y = Memory.read s.hw.mem y) ∧
        ∀ b ∈ heldBack s.hw die, (∀ c ∈ heldBack s.hw die, c.1 = b.1 → c = b) → Memory.read t.hw.mem b.1 = b.2))) ∧
  (s.cur.slots = [] → s.Clean .s → s.cur.on = true → ∃ t, exec .emptyBundle s = .next t ∧ s.Leaves t s.hw s.me []) ∧
  (canResume x = false → (∃ t, exec (.resumeCommand k) s = .next t ∧ Became s t s.hw) ∧ ∃ t, exec (.seatRetireCommand k) s = .next t ∧ Became s t s.hw) ∧
  (canResume x = true → (x.st = .run → x.handler = false → x.frozen.toOwner = false → seatAccs s.hw k = [] → ∃ t, exec (.resumeCommand k) s = .next t ∧
      (t.hw.seat k).frozen.on = false ∧ (t.hw.seat k).nextIssue = tm + 3 ∧ (t.hw.seat k).pc = x.pc ∧ (t.hw.seat k).captured = [] ∧
      (∀ q, (t.hw.seat k).reg q = x.reg q) ∧ ∀ j, j ≠ k → t.hw.seat j = s.hw.seat j) ∧
    ∃ t, exec (.seatRetireCommand k) s = .next t ∧ (t.hw.seat k).st = .retiring ∧ (t.hw.seat k).frozen.on = false ∧
      (∀ q, (t.hw.seat k).reg q = x.reg q) ∧ ∀ j, j ≠ k → t.hw.seat j = s.hw.seat j) ∧
  (Chargeable s k →
    (s.ev = .holdWatchdog k → x.holdWhy < 9 → ∃ t, exec .holdWatchdog s = .next t ∧ Froze s t k (0x74 + x.holdWhy)) ∧
    (s.ev = .acommitArrivalTimeout k → 16 ≤ x.holdWhy → ∃ t, exec .acommitArrivalTimeout s = .next t ∧ Froze s t k 0x7D ∧
      (t.hw.seat k).tval = BitVec.ofNat 64 (arrivalsIn s.hw k (x.holdWhy - 16)) ∧ (t.hw.core (coreOf k)).windows = (s.hw.core (coreOf k)).windows) ∧
    (s.ev = .phaseBoundExceeded k → x.tvec ≠ 0 → ∃ t, exec .phaseBoundExceeded s = .next t ∧ Handles s t k (0x1C0 + phaseNo x.phase) ∧
      (t.hw.seat k).tval = BitVec.ofNat 64 (x.lrec.ibnd + 1)))

/-- R120, R128, R142, R312, R315 to R319, R330, R430: what the units of a package do with a request on its way. A slice serves a hit, whose bytes are
read or written then, and sends a miss to memory; a controller issues an entry, whose line comes 110 ck later; a router hands a packet on, or
out; the epoch names the golden cluster; a walk gives a part its address; an atomic changes its location in one step; a granule is decoded; data
reaches its core. No other byte of memory changes. -/
def Obligations.UnitEvents : Prop := ∀ (s : State),
  (∀ (id i : Nat) (a : Access), s.hw.acc? id = some a → i < a.parts.length → a.parts.length ≤ walkPartNo → let p := a.parts.getD i {}
  let core := coreOf a.seat
  let mem := fun (t : State) (y : Nat) => Memory.read t.hw.mem y
  let part := fun (t : State) => ((t.hw.acc? id).map (fun b => b.parts.getD i {}));
  (∀ cl bank r, s.ev = .sliceRequest cl bank → slicePick s.hw cl bank = some r → r.acc = id → r.part = i → a.seat ≠ resSeat →
    (sliceHas s.hw cl r.line = false → ∃ t, exec .sliceRequest s = .next t ∧ part t = some { p with st := 3 } ∧
      (∃ q, { cls := if a.pkg = cl / 144 then 2 else 3, acc := id, part := i, line := r.line, slice := cl, at_ := s.hw.glob.now } ∈
        SMap.get [] t.hw.glob.mcq q ++ SMap.get [] t.hw.glob.mcWait q) ∧ t.hw.mem = s.hw.mem) ∧
    (sliceHas s.hw cl r.line = true → a.kind = .tstore ∨ a.kind = .vstore ∨ a.kind = .store → ∃ t, exec .sliceRequest s = .next t ∧
      (∀ w ∈ p.wdata, (∀ v ∈ p.wdata, (p.pa + v.1) % 2 ^ 52 = (p.pa + w.1) % 2 ^ 52 → v = w) → mem t ((p.pa + w.1) % 2 ^ 52) = w.2) ∧
      (∀ y, (∀ w ∈ p.wdata, (p.pa + w.1) % 2 ^ 52 ≠ y) → mem t y = mem s y)) ∧
    (∀ o n sg, sliceHas s.hw cl r.line = true → a.kind = .load o n sg → p.fill = false → (s.hw.pkg (pkgOfCore core)).fenced = [] →
      reachable s.hw (partHome s.hw p / 144) (pkgOfCore core) = true → ∃ t, exec .sliceRequest s = .next t ∧ t.hw.mem = s.hw.mem ∧
      part t = some { p with st := 4, rdata := readBytes s.hw p.pa p.len, poison := s.hw.glob.poison.contains (lineOf p.pa) })) ∧
  (∀ st pc r, s.ev = .memoryControllerIssue st pc → mcPick s.hw (64 * st + pc) = some r → r.acc = id → r.part = i → id ≠ 0 →
    SMap.get [] s.hw.glob.mcWait (64 * st + pc) = [] →
    ∃ t, exec .memoryControllerIssue s = .next t ∧ (s.hw.glob.now + 110, .lateDataArrival id i) ∈ t.hw.glob.agenda ∧
      SMap.get [] t.hw.glob.mcq (64 * st + pc) = (SMap.get [] s.hw.glob.mcq (64 * st + pc)).erase r ∧ Became s t { s.hw with glob := t.hw.glob }) ∧
  (s.ev = .lateDataArrival id i → a.seat ≠ resSeat →
    (p.st = 1 → ∃ t, exec .lateDataArrival s = .next t ∧ part t = some { p with st := 3 } ∧ t.hw.mem = s.hw.mem) ∧
    (∀ o n sg, p.st = 4 → a.kind = .load o n sg → a.parts.length = 1 → a.fail = 0 → a.left = 0 → p.poison = false → SMap.has s.hw.seats a.seat = true →
      ∃ t, exec .lateDataArrival s = .next t ∧ t.hw.acc? id = none ∧ t.hw.mem = s.hw.mem ∧
        (t.hw.seat a.seat).pend = (s.hw.seat a.seat).pend.map (fun q => if q.acc = some id then { q with
          acc := none
          val := BitVec.ofNat 2048 (extendLoad n sg (leVal (if p.fill then (p.rdata.drop (p.va % 64)).take p.len else p.rdata.take p.len))).toNat } else q))) ∧
  (∀ e r, s.ev = .pageWalkComplete id i → a.parts = [p] → p.st = 0 → p.redo = false → a.kind.writes = false → a.cls ≠ 6 → (∀ c es, a.kind ≠ .table c es) →
    walk s.hw (pkgOfCore core) a.img p.va = .leaf e → leafAllows e.leaf a.cls false = true → memOk s.hw (paUnder e p.va) = true → r = paUnder e p.va →
    ∃ t q, exec .pageWalkComplete s = .next t ∧ e ∈ (t.hw.core core).tlb ∧ part t = some q ∧ q.pa = r ∧ q.ms = ebit e.leaf 5 ∧ q.st ≠ 0) ∧
  (∀ op o w b e, s.ev = .atomicExecution id i → a.kind = .amo op o w b e → (s.hw.pkg (p.pa / 2 ^ 46)).fenced = [] → (s.hw.pkg (pkgOfCore core)).fenced = [] →
    s.hw.glob.poison.contains (lineOf p.pa) = false → p.len = (if w then 4 else 8) → p.pa + 8 ≤ 2 ^ 52 →
    reachable s.hw (partHome s.hw p / 144) (pkgOfCore core) = true →
    let old := readNat s.hw p.pa p.len
    let m := 2 ^ (8 * p.len);
    ∃ t, exec .atomicExecution s = .next t ∧ readNat t.hw p.pa p.len = amoNew op (8 * p.len) old (b.toNat % m) (e.toNat % m) ∧
      (∀ y, y < p.pa ∨ p.pa + p.len ≤ y → mem t y = mem s y) ∧
      part t = some { p with st := 4, fill := false, rdata := leBytes p.len old }) ∧
  (∀ cl g r ctb ents mc j, s.ev = .granuleDecode cl → (s.hw.cluster cl).decBusy ≠ 0 → (s.hw.cluster cl).dec = j :: r → j.acc = id →
    a.kind = .tdec g ents ctb mc → mc = none → j.gran < a.gst.length →
    (∀ l, decodeBlock s.hw a j.gran ctb = .ok (l, false) → ∃ t b, exec .granuleDecode s = .next t ∧ t.hw.acc? id = some b ∧ b.gst.getD j.gran 0 = 3 ∧
      b.data = a.data ++ (bytesToWords l).map (fun e => (512 * j.gran + e.1, e.2)) ∧ t.hw.mem = s.hw.mem) ∧
    (∀ c, decodeBlock s.hw a j.gran ctb = .error c → ∃ t b, exec .granuleDecode s = .next t ∧ t.hw.acc? id = some b ∧ b.gst.getD j.gran 0 = 4 ∧
      (∃ v, (j.gran, c, v) ∈ b.gfail) ∧ b.data = a.data ∧ t.hw.mem = s.hw.mem))) ∧
  (∀ k (x : Packet) (e : Event), s.ev = .packetRoute k → let c := s.hw.cluster k
    let pk := k / 144
    c.pkts = [x] → c.inj = [] → c.held = [] → x.ready ≤ s.hw.glob.now → x.deliver = .event e → x.line = none →
    x.subs = [] → x.out = [] → x.beats ≤ 1 →
    (x.dst = k % 144 → ∃ t, exec .packetRoute s = .next t ∧ (s.hw.glob.now + x.delay, e) ∈ t.hw.glob.agenda ∧ (t.hw.cluster k).pkts = []) ∧
    (∀ d n r, x.dst ≠ k % 144 → (distOf (s.hw.pkg pk) (k % 144) x.dst).isSome = true → productive (s.hw.pkg pk) (k % 144) x.dst = d :: r →
      portWorks (s.hw.pkg pk) (k % 144) d = true → nbrCl (k % 144) d = some n → n ≠ k % 144 →
      ∃ t, exec .packetRoute s = .next t ∧ (t.hw.cluster k).pkts = [] ∧ t.hw.mem = s.hw.mem ∧
        { x with ready := s.hw.glob.now + 2 + (if isBridge (k % 144) n then 8 else 0), inDir := oppDir d } ∈ (t.hw.cluster (144 * pk + n)).pkts)) ∧
  (∀ pk, s.ev = .goldenEpoch pk → ∃ t, exec .goldenEpoch s = .next t ∧ (t.hw.pkg pk).golden = s.hw.cycle pk / 1024 % 144 ∧
    (∀ q, q ≠ pk → t.hw.pkg q = s.hw.pkg q) ∧ Became s t { s.hw with pkgs := t.hw.pkgs })

/-- R142, R145, R153, R262, R274 to R277, R299, R300, R308, R377, R386, R407, R415, R432, R433, R450: what arrives at a core, and what is late. A
remote write is queued block by block at the banks, its flag operation behind it, or is refused with nothing written; with its last block it is
done; an accumulator image takes the next place of its window; neighbour and carry messages go to the form that waits, or to the buffer; a submission joins its round, and the last one gives every
ordinal its carry; deferred and overdue causes are charged. -/
def Obligations.ArrivalEvents : Prop := ∀ (s : State),
  (∀ m : InMsg, s.ev = .inboundRemoteWrite m → let k := seatKey m.core m.seat
    let x := s.hw.seat k
    let g := if m.seat then 256 - x.lrec.gn + m.granule else m.granule
    let co := s.hw.core m.core
    let whole := if m.fillSide then (uniq (m.words.map (fun e => g + e.1 / 4096))).filter (fun n => (m.words.filter (fun e => g + e.1 / 4096 == n)).length == 512) else [];
    (coreExists s.hw m.core = true → x.st ≠ .free → m.granule + m.grans ≤ x.lrec.gn → co.inbound = [] →
      ∃ t b, exec .inboundRemoteWrite s = .next t ∧ Arrives s t m.core b co m.src m.acc (m.words.map (fun e => (512 * g + e.1 / 8, e.2))) ∧
        b.side = m.side.map (fun e => (g + e.1, e.2)) ++ whole.map (fun n => (n, 0)) ∧ b.flag = m.flag ∧ b.win = none ∧
        Became s t { s.hw with cores := t.hw.cores }) ∧
    (coreExists s.hw m.core = false ∨ x.st = .free ∨ x.lrec.gn < m.granule + m.grans → (s.hw.die (domDie m.core)).prod < 1023 →
      isFenced s.hw (domCl m.src) = false → ∃ t, exec .inboundRemoteWrite s = .next t ∧ t.hw.cores = s.hw.cores ∧ t.hw.seats = s.hw.seats ∧
      Recorded s (portsBack s t) (domDie m.core))) ∧
  (∀ core x b, let co := s.hw.core core
    co.inbound = [x] → x.blocks = [b] → co.banks = [] → co.landings = [] → x.here s.hw core = true → x.side = [] → x.win = none →
    let u := (s.hw.run (bankTick core true)).core core;
    u.inbound = [] ∧ (∀ w ∈ b, (∀ v ∈ b, v.1 = w.1 → v = w) → SMap.get 0 u.tile w.1 = w.2) ∧
    (∀ n, (∀ w ∈ b, w.1 ≠ n) → SMap.get 0 u.tile n = SMap.get 0 co.tile n) ∧
    (co.flagOps = [] → ∀ f, SMap.get 0 u.doFlags.flags f = (match x.flag with
      | none => SMap.get 0 co.flags f
      | some (n, a) => if f = n then (match a with | .add v => SMap.get 0 co.flags f + v | .set v => v) else SMap.get 0 co.flags f))) ∧
  (∀ (m : AccMsg) (w : Window), s.ev = .accumulateArrival m → (s.hw.seat (seatKey m.core m.seat)).st ≠ .free →
    (s.hw.core m.core).windows = [w] → w.seat = m.seat → w.acc = m.win → w.opens ≤ s.hw.glob.now → w.arr.length < w.e →
    (s.hw.core m.core).inbound = [] → ∃ t b, exec .accumulateArrival s = .next t ∧
      Arrives s t m.core b { s.hw.core m.core with windows := [{ w with arr := w.arr ++ [(m.src, m.acc, w.arr.length)] }] } m.src m.acc
        (m.words.map (fun e => (512 * (w.gran + 8 * w.arr.length) + e.1, e.2))) ∧
      b.side = [] ∧ b.flag = m.flag ∧ b.win = some (m.seat, m.win) ∧ Became s t { s.hw with cores := t.hw.cores }) ∧
  (∀ m : NeighMsg, s.ev = .neighbourMessageArrival m → let k := seatKey m.core m.seat
    let b : NbrMsg := ⟨m.core, m.seat, m.dir, m.tag, m.rows⟩;
    (seatAccs s.hw k = [] → ∃ t, exec .neighbourMessageArrival s = .next t ∧
      (t.hw.cluster (domCl m.core)).nbuf = (s.hw.cluster (domCl m.core)).nbuf ++ [b] ∧ t.hw.seats = s.hw.seats ∧ t.hw.cores = s.hw.cores ∧ t.hw.mem = s.hw.mem) ∧
    (∀ id a g tag rows, seatAccs s.hw k = [(id, a)] → s.hw.acc? id = some a → id ≠ m.acc → a.arrived = false → a.kind = .nrecv g m.dir tag rows →
      (tag = none ∨ tag = some m.tag) → rows.length = m.rows.length → b ∉ (s.hw.cluster (domCl m.core)).nbuf →
      ∃ t, exec .neighbourMessageArrival s = .next t ∧ (t.hw.cluster (domCl m.core)).nbuf = (s.hw.cluster (domCl m.core)).nbuf ∧
        t.hw.acc? id = some { a with data := rowWords m.rows, arrived := true } ∧ t.hw.seats = s.hw.seats ∧ t.hw.cores = s.hw.cores ∧ t.hw.mem = s.hw.mem)) ∧
  (∀ m : CarryMsg, s.ev = .carryMessageArrival m → let co := s.hw.core m.core
    let key := m.src * 2 ^ 16 + m.tag;
    coreExists s.hw m.core = true → (s.hw.die (domDie m.core)).chanQ = [] → co.carry.length < 8 → SMap.get 0 co.carryExp key = m.seq →
    seatAccs s.hw (seatKey m.core m.seat) = [] → ∃ t, exec .carryMessageArrival s = .next t ∧
      (t.hw.core m.core).carry = co.carry ++ [m] ∧ SMap.get 0 (t.hw.core m.core).carryExp key = (m.seq + 1) % 16 ∧ (t.hw.core m.core).ht = co.ht ∧
      t.hw.seats = s.hw.seats ∧ t.hw.mem = s.hw.mem) ∧
  (∀ id cl a, s.ev = .multicastAck id cl → s.hw.acc? id = some a → 1 < a.left → ∃ t, exec .multicastAck s = .next t ∧
    t.hw.acc? id = some { a with left := a.left - 1 } ∧ (∀ n, n ≠ id → t.hw.acc? n = s.hw.acc? n) ∧ Became s t { s.hw with accs := t.hw.accs }) ∧
  (∀ id a, s.ev = .multicastAckTimeout id → s.hw.acc? id = some a → a.left ≠ 0 → (∀ c es, a.kind ≠ .table c es) →
    SMap.has s.hw.seats a.seat = true → ∃ t c b,
    exec .multicastAckTimeout s = .next t ∧ (t.hw.seat a.seat).pendCause = (s.hw.seat a.seat).pendCause ++ [c] ∧ c.code = 0x15B ∧
    c.tval = BitVec.ofNat 64 (domCl (coreOf a.seat) % 144) ∧ t.hw.acc? id = some b ∧ b.left = 0 ∧ b.fail.testBit 2 = true ∧
    (∀ j, j ≠ a.seat → t.hw.seat j = s.hw.seat j) ∧ t.hw.mem = s.hw.mem) ∧
  (∀ k c, Chargeable s k → (s.hw.seat k).tvec ≠ 0 → (s.hw.seat k).pendCause = [c] → c.due ≤ s.hw.coreT (coreOf k) → recov c.code = .t → c.code < 512 →
    s.ev = .deferredCauseCharge k → ∃ t, exec .deferredCauseCharge s = .next t ∧ Handles s t k c.code ∧ (t.hw.seat k).tval = c.tval ∧
      c ∉ (t.hw.seat k).pendCause) ∧
  (∀ k id a, Chargeable s k → s.ev = .landingOverdue k id → s.hw.acc? id = some a → ∃ t b, exec .landingOverdue s = .next t ∧
    Froze s t k (overdueCode a) ∧ t.hw.acc? id = some b ∧ b.overdue = true) ∧
  (∀ k, Chargeable s k → s.ev = .freezeWatchdog (coreOf k) → k % 2 = 0 → lackOf s.hw k (s.hw.coreT (coreOf k)) ≠ [] →
    lackOf s.hw (k + 1) (s.hw.coreT (coreOf k)) = [] → 2 * coreOf k = k → ∃ t, exec .freezeWatchdog s = .next t ∧ Froze s t k 0x70) ∧
  (∀ die m, s.ev = .scanSubmission die m → (m.tag = 0 ∨ (tagOwner s.hw m.lpkg m.tag).isSome = true) → let old := openRound s.hw die m.tag m.lpkg m.round (m.ord / 64)
    let r := { old with subs := old.subs ++ [m], lastAt := s.hw.glob.now, bad := false };
    (s.hw.die die).doneRounds.contains (m.tag, m.round, m.ord / 64) = false → old.bad = false →
    (∀ x ∈ old.subs, x.prog = m.prog ∧ x.size = m.size ∧ x.ord ≠ m.ord ∧ x.acc ≠ m.acc) →
    ((r.full && r.cb.isSome) = false → ∃ t, exec .scanSubmission s = .next t ∧ r ∈ (t.hw.die die).rounds ∧ t.hw.mem = s.hw.mem ∧ t.hw.seats = s.hw.seats) ∧
    (∀ cb a, r.full = true → r.cb = some cb → s.hw.acc? m.acc = some a → ∃ t, exec .scanSubmission s = .next t ∧ r ∉ (t.hw.die die).rounds ∧
      t.hw.acc? m.acc = some { a with data := ((roundTrees r (r.subs.headD m).prog cb).filter (fun e => m.lanes.any (fun l => l.1 == e.1))).map (fun e =>
        let x := segCarry m.prog cb m.ord e.1 e.2
        (e.1, BitVec.ofNat 64 (x.a + x.b * 2 ^ 32))) } ∧
      ∃ T, (T, .lateDataArrival m.acc 0) ∈ t.hw.glob.agenda)) ∧
  (∀ m : BlockCarry, s.ev = .blockCarryArrival m → m.leaves = true → let ext := decide (m.die % 4 = 3)
    let u := max s.hw.glob.now (s.hw.die m.die).chanFree;
    (carryDown s.hw m.die ext = true → ∃ t, exec .blockCarryArrival s = .next t ∧ Became s t s.hw) ∧
    (carryDown s.hw m.die ext = false → (∀ e ∈ s.hw.glob.agenda, ∀ c, e.2 ≠ .carryMessageArrival c) → ∃ t, exec .blockCarryArrival s = .next t ∧
      (u + (if ext then 675 else 24), .blockCarryArrival { m with die := carryNext s.hw m.die ext, leaves := false }) ∈ t.hw.glob.agenda ∧
      t.hw.die m.die = { s.hw.die m.die with chanFree := u + 4 } ∧ Became s t { s.hw with dies := t.hw.dies, glob := t.hw.glob })) ∧
  (∀ m : BlockCarry, s.ev = .blockCarryArrival m → m.leaves = false → let d := s.hw.die m.die
    let w := (expectRound d m.tag m.lpkg m.block).getD m.round
    let r := { openRound s.hw m.die m.tag m.lpkg w m.block with cb := some m.lanes, cbAt := s.hw.glob.now };
    d.chanQ = [] → w % 16 = m.round % 16 → (r.full && !r.bad) = false →
    ∃ t, exec .blockCarryArrival s = .next t ∧ r ∈ (t.hw.die m.die).rounds ∧ (∀ n, n ≠ m.die → t.hw.die n = s.hw.die n) ∧
      Became s t { s.hw with dies := t.hw.dies, glob := t.hw.glob }) ∧
  (∀ die tag round block r i n, s.ev = .scanRoundTimeout die tag round block → (s.hw.die die).rounds = [r] → r.tag = tag → r.round = round →
    r.block = block → r.first + 2 ^ 22 ≤ s.hw.glob.now → r.bad = false → tagOwner s.hw r.lpkg tag = some (i, n) → ∃ t, exec .scanRoundTimeout s = .next t ∧
    (t.hw.die die).rounds = [] ∧
    (s.hw.glob.now + 1, .ext (.instanceAbort i (abortStatus (144 * (die / 4) + attachCl (die % 4)) 0x185))) ∈ t.hw.glob.agenda ∧ t.hw.seats = s.hw.seats)

namespace Sys2Proof.Claim

/-- The die in whose ring an engine's or a router's record goes. -/
def netDie (cl : Nat) : Nat := 4 * (cl / 144) + dieOfCl (cl % 144)

/-- A die's ring is in order. -/
def RingReady (s : State) (d : Nat) : Prop := (s.hw.die d).prod < 1023

/-- Every package is reached from every other, no partition is under reset, and the clusters of a list are there. -/
def Linked (s : State) (l : List Nat) : Prop :=
  (∀ p q, q < s.hw.glob.npkg → reachable s.hw p q = true) ∧ (∀ p, (s.hw.pkg p).fenced = []) ∧ ∀ c ∈ l, c / 144 < s.hw.glob.npkg

/-- An instance is to be aborted in the next ck, with the unit and the code that its report names (R397). -/
def Aborts (t : State) (now inst unit code : Nat) : Prop := (now + 1, .ext (.instanceAbort inst (abortStatus unit code))) ∈ t.hw.glob.agenda

end Sys2Proof.Claim

/-- R305, R306, R320, R334, R341, R343, R344, R451, R452, R455, R456: what comes to a collective engine or a reduction node. A node holds its first
child and combines it with the second, lower ranks on the left; a derivation gives a handle, or 0 and a cause; a grant counts; a free channel
starts the chunk that goes first, whose parts go to their receivers or its leaves' packets to their nodes; an arriving element is written under
the running plan 140 ck later (intermediate shards where log 80 puts them); a packet with a stale tag is dropped and recorded; a late contributor, credit or peer, and a foreign sequence number, abort the instance; a notice frees the plan. -/
def Obligations.CollectiveEvents : Prop := ∀ (s : State), let now := s.hw.glob.now
  let plan := fun (h : Hw) (cl i : Nat) => SMap.find (h.cluster cl).plans i
  let cause := fun (p : Plan) => 0x161 + 2 * p.comm;
  (∀ m : RedMsg, s.ev = .reductionPacketArrival m → let nodes := (s.hw.cluster m.cluster).nodes;
    (nodes.find? (fun n => sibling n.msg m) = none → ∃ t, exec .reductionPacketArrival s = .next t ∧
      (t.hw.cluster m.cluster).nodes = nodes ++ [{ msg := m, since := now }] ∧
      (now + 2 ^ 21, .contributorTimeout m.cluster m) ∈ t.hw.glob.agenda ∧ Became s t { s.hw with clusters := t.hw.clusters, glob := t.hw.glob }) ∧
    (∀ n, nodes.find? (fun n => sibling n.msg m) = some n →
      let l := if n.msg.lo < m.lo then n.msg else m
      let r := if n.msg.lo < m.lo then m else n.msg
      let z := { l with hi := r.hi, elems := (l.elems.zip r.elems).map (fun e => (e.1.1, redOp l.red l.fmt e.1.2 e.2.2)) };
      Linked s (0 :: z.leaves ++ z.members) →
      ∃ t, exec .reductionPacketArrival s = .next t ∧ (t.hw.cluster m.cluster).nodes = nodes.erase n ∧ t.hw.mem = s.hw.mem ∧
        (∀ sp, parentSpan z = some sp → Sent t.hw (.reductionPacketArrival { z with cluster := nodeRouter z sp })) ∧
        (parentSpan z = none → ∀ d ∈ z.dests, Sent t.hw (.chunkArrival {
          cluster := z.members.getD d 0, comm := z.comm, seq := z.seq, phase := z.phase, gtag := z.gtag, src := 0, chunk := 0, elems := z.elems
          leaves := uniq z.leaves })))) ∧
  (∀ cl m n, s.ev = .contributorTimeout cl m → (s.hw.cluster cl).nodes.find? (fun n => n.msg == m && decide (n.since + 2 ^ 21 ≤ now)) = some n → Linked s m.members →
    ∃ t u, exec .contributorTimeout s = .next t ∧ (∀ c, ∀ x ∈ (t.hw.cluster c).nodes, samePhase x.msg m = false) ∧
      (∀ e ∈ m.members, Sent t.hw (.abortNotice e m.comm m.seq 0 m.gtag)) ∧ Aborts t now m.inst u 0x15C ∧ t.hw.seats = s.hw.seats) ∧
  (∀ cl comm seq peer gtag, s.ev = .abortNotice cl comm seq peer gtag →
    (tagBound s.hw cl gtag = false → RingReady s (netDie cl) → ∃ t, exec .abortNotice s = .next t ∧ t.hw.clusters = s.hw.clusters ∧ Recorded s t (netDie cl)) ∧
    (tagBound s.hw cl gtag = true → planOf s.hw cl comm seq = none → ∃ t, exec .abortNotice s = .next t ∧ Became s t s.hw) ∧
    (∀ i p, tagBound s.hw cl gtag = true → planOf s.hw cl comm seq = some (i, p) → plan s.hw cl i = some p → ∃ t, exec .abortNotice s = .next t ∧
      (p.running = false → plan t.hw cl i = none ∧ Became s t { s.hw with clusters := t.hw.clusters }) ∧
      (p.running = true → plan t.hw cl i = some { p with running := false, aborting := true, out := [] } ∧ Aborts t now p.inst cl (cause p)) ∧
      (∀ j, j ≠ i → plan t.hw cl j = plan s.hw cl j) ∧ ∀ c, c ≠ cl → t.hw.cluster c = s.hw.cluster c)) ∧
  (∀ cl comm seq phase peer gtag, s.ev = .creditGrant cl comm seq phase peer gtag → tagBound s.hw cl gtag = false → RingReady s (netDie cl) →
    ∃ t, exec .creditGrant s = .next t ∧ t.hw.clusters = s.hw.clusters ∧ Recorded s t (netDie cl)) ∧
  (∀ cl comm seq phase peer gtag i p, s.ev = .creditGrant cl comm seq phase peer gtag → tagBound s.hw cl gtag = true →
    planOf s.hw cl comm seq = some (i, p) → plan s.hw cl i = some p →
    (p.running = true ∧ p.done = phase → ∃ t, exec .creditGrant s = .next t ∧ (now, .chunkComplete cl (comm % 4)) ∈ t.hw.glob.agenda ∧
      plan t.hw cl i = some { p with credit := if p.credit.contains peer then p.credit else p.credit ++ [peer] } ∧
      (∀ j, j ≠ i → plan t.hw cl j = plan s.hw cl j) ∧ Became s t { s.hw with clusters := t.hw.clusters, glob := t.hw.glob }) ∧
    (¬(p.running = true ∧ p.done = phase) → ∃ t, exec .creditGrant s = .next t ∧ Became s t s.hw)) ∧
  (∀ m : ChunkMsg, s.ev = .chunkArrival m → let cl := m.cluster;
    (tagBound s.hw cl m.gtag = false → RingReady s (netDie cl) → ∃ t, exec .chunkArrival s = .next t ∧
      t.hw.clusters = s.hw.clusters ∧ Recorded s t (netDie cl)) ∧
    (tagBound s.hw cl m.gtag = true → (s.hw.cluster cl).plans.find? (fun p => p.2.comm == m.comm && p.2.running) = none →
      ∃ t, exec .chunkArrival s = .next t ∧ Became s t s.hw) ∧
    (∀ i p, tagBound s.hw cl m.gtag = true → (s.hw.cluster cl).plans.find? (fun p => p.2.comm == m.comm && p.2.running) = some (i, p) →
      plan s.hw cl i = some p →
      (p.seq ≠ m.seq ∨ p.done ≠ m.phase → ∃ t, exec .chunkArrival s = .next t ∧ t.hw.clusters = s.hw.clusters ∧ Aborts t now p.inst cl (cause p)) ∧
      (p.seq = m.seq → p.done = m.phase → m.wrote = false → ∃ t, exec .chunkArrival s = .next t ∧
        (now + 140, .chunkArrival { m with wrote := true }) ∈ t.hw.glob.agenda ∧ Became s t { s.hw with glob := t.hw.glob }) ∧
      (∀ w a ea e v, p.seq = m.seq → p.done = m.phase → m.wrote = true → tensAt s.hw (cl / 144) p.img p.block.dstt = some w → m.elems = [(e, v)] → e ∈ p.want →
        let x := dstPos p.block w p.phase.tlay (rankOf (commAt s.hw cl p.comm) cl) e
        let n := fmtPlanes w.fmt
        let at_ := fun (j : Nat) => a + elemByte j x.1 x.2;
        Sys2Proof.Machine.tileAt s.hw (cl / 144) w (w.tileNo (x.1 / 64) (x.2 / 64)) = some (a, ea) → a + 2 ^ 16 ≤ 2 ^ 52 → ea < 2 ^ 52 → (∀ j < n, at_ j ≠ ea) →
        ∃ t q, exec .chunkArrival s = .next t ∧ plan t.hw cl i = some q ∧ q.want = p.want.filter (fun y => y != e) ∧
          (∀ j < n, (Memory.read t.hw.mem (at_ j)).getLsbD (x.2 % 8) = v.testBit (n - 1 - j) ∧
            ∀ b < 8, b ≠ x.2 % 8 → (Memory.read t.hw.mem (at_ j)).getLsbD b = (Memory.read s.hw.mem (at_ j)).getLsbD b) ∧
          Memory.read t.hw.mem ea = Memory.read s.hw.mem ea ||| 2 ∧
          ∀ y, y ≠ ea → (∀ j < n, y ≠ at_ j) → Memory.read t.hw.mem y = Memory.read s.hw.mem y))) ∧
  (∀ cl vc, s.ev = .chunkComplete cl vc →
    (SMap.find (s.hw.cluster cl).tx vc = none → chanPick s.hw cl vc = none → ∃ t, exec .chunkComplete s = .next t ∧ Became s t s.hw) ∧
    (∀ i p, SMap.find (s.hw.cluster cl).tx vc = none → chanPick s.hw cl vc = some (i, p) → plan s.hw cl i = some p →
      let c := commAt s.hw cl p.comm
      let l := p.out.headD []
      let T := now + max 1 (p.startCk + 140 - now + chunkBeats cl c p l);
      Linked s (0 :: c.members) →
      ∃ t, exec .chunkComplete s = .next t ∧ SMap.find (t.hw.cluster cl).tx vc = some { plan := i, doneAt := T } ∧
        (T, .chunkComplete cl vc) ∈ t.hw.glob.agenda ∧ plan t.hw cl i = some { p with undone := p.undone + chunkDeliveries c cl p l } ∧
        (∀ j, j ≠ i → plan t.hw cl j = plan s.hw cl j) ∧
        (p.phase.redMask = 0 → ∀ d ∈ chunkParts l, Sent t.hw (.chunkArrival {
          cluster := clOfRank c d.1, comm := p.comm, seq := p.seq, phase := p.done, gtag := c.gtag, src := rankOf c cl, chunk := p.chunksDone + 1
          elems := d.2.map (fun e => (e, snapGet p e 0)) })) ∧
        (p.phase.redMask ≠ 0 → ∀ m ∈ leafPackets cl c p l, ∀ sp, parentSpan m = some sp →
          Sent t.hw (.reductionPacketArrival { m with cluster := nodeRouter m sp })) ∧
        PortsOnly s.hw t.hw ∧ Became s t { s.hw with clusters := t.hw.clusters, glob := t.hw.glob, pkgs := t.hw.pkgs }) ∧
    (∀ x, SMap.find (s.hw.cluster cl).tx vc = some x → now < x.doneAt → ∃ t, exec .chunkComplete s = .next t ∧ Became s t s.hw) ∧
    (∀ x p, SMap.find (s.hw.cluster cl).tx vc = some x → x.doneAt ≤ now → plan s.hw cl x.plan = some p →
      let c := commAt s.hw cl p.comm;
      Linked s (0 :: c.members) → ∃ t, exec .chunkComplete s = .next t ∧ SMap.find (t.hw.cluster cl).tx vc = none ∧ t.hw.mem = s.hw.mem ∧
        (p.aborting = true → plan t.hw cl x.plan = none ∧
          ∀ m ∈ c.members, m ≠ cl → Sent t.hw (.abortNotice m p.comm p.seq (rankOf c cl) c.gtag)) ∧
        (p.aborting = false → ∃ q, plan t.hw cl x.plan = some q ∧ q.out = p.out.drop 1 ∧ q.chunksDone = p.chunksDone + 1 ∧ q.total = p.total + 1 ∧
          q.undone = p.undone))) ∧
  (∀ k xd xa n, s.ev = .xplanDerivationComplete k → (s.hw.seat k).wait = .xplan xd xa n → let x := s.hw.seat k
    let tm := s.hw.coreT (coreOf k)
    let cl := domCl (coreOf k)
    let ends := fun (v : Nat) => goesOn (given x xd (BitVec.ofNat 64 v) tm (x.lastOrder + 5)) tm;
    (∀ c b, derivePlan s.hw k xa n = .ok (c, b) →
      (∀ i, freePlan (s.hw.cluster cl) = some i → ∃ t, exec .xplanDerivationComplete s = .next t ∧ t.hw.seat k = ends i ∧
        plan t.hw cl i = some { comm := n, seq := c.nextSeq, inst := x.inst, img := x.img, block := b, phases := planPhases b } ∧
        SMap.find (t.hw.cluster cl).comms n = some { c with nextSeq := c.nextSeq + 1 } ∧ (∀ j, j ≠ i → plan t.hw cl j = plan s.hw cl j) ∧
        Became s t { s.hw with seats := t.hw.seats, clusters := t.hw.clusters }) ∧
      (freePlan (s.hw.cluster cl) = none → ∃ t, exec .xplanDerivationComplete s = .next t ∧ SeatBecame s t k (ends 0))) ∧
    (∀ e, derivePlan s.hw k xa n = .error e → ∃ t v, exec .xplanDerivationComplete s = .next t ∧
      t.hw.seat k = { ends 0 with pendCause := x.pendCause ++ [{ code := 0x160 + 2 * n, tval := v, slots := 0, due := tm }] } ∧
      (∀ a, e = .addr a → v = BitVec.ofNat 64 a) ∧ (∀ j, j ≠ k → t.hw.seat j = s.hw.seat j) ∧
      Became s t { s.hw with seats := t.hw.seats, glob := t.hw.glob })) ∧
  (∀ cl i p, s.ev = .collectiveCreditTimeout cl i → plan s.hw cl i = some p →
    let miss := (chunkDests p (rankOf (commAt s.hw cl p.comm) cl) (p.out.headD [])).filter (fun d => !p.credit.contains d);
    (miss ≠ [] ∧ p.running = true ∧ p.out ≠ [] ∧ p.creditFrom + 2 ^ 22 ≤ now → ∃ t, exec .collectiveCreditTimeout s = .next t ∧
      Aborts t now p.inst cl (cause p) ∧ t.hw.clusters = s.hw.clusters) ∧
    (miss = [] → ∃ t, exec .collectiveCreditTimeout s = .next t ∧ Became s t s.hw)) ∧
  (∀ cl i p, s.ev = .collectivePeerTimeout cl i → plan s.hw cl i = some p →
    (p.running = true → p.want ≠ [] → p.heardAt + 2 ^ 22 ≤ now → ∃ t, exec .collectivePeerTimeout s = .next t ∧
      Aborts t now p.inst cl (cause p) ∧ t.hw.clusters = s.hw.clusters) ∧
    (p.running = true → p.want ≠ [] → now < p.heardAt + 2 ^ 22 → ∃ t, exec .collectivePeerTimeout s = .next t ∧
      (p.heardAt + 2 ^ 22, .collectivePeerTimeout cl i) ∈ t.hw.glob.agenda ∧ Became s t { s.hw with glob := t.hw.glob }) ∧
    (p.running = false ∨ p.want = [] → ∃ t, exec .collectivePeerTimeout s = .next t ∧ Became s t s.hw))

namespace Sys2Proof.Claim

/-- A write of the ports that is refused leaves an answer and a record, and no more. -/
def Refused (s t : State) (pk : Nat) : Prop :=
  (t.hw.pkg pk).replies = (s.hw.pkg pk).replies ++ [(0, 0)] ∧ (∀ q, q ≠ pk → t.hw.pkg q = s.hw.pkg q) ∧ Recorded s t (4 * pk) ∧
  Became s t { s.hw with mem := t.hw.mem, dies := t.hw.dies, pkgs := t.hw.pkgs }

/-- The lead dispatcher's ring is in order. -/
def RingOk (s : State) (pk : Nat) : Prop := (s.hw.die (4 * pk)).prod < 1023

/-- Every key names its one entry. -/
def Listed {α : Type} (l : SMap α) : Prop := ∀ e ∈ l, SMap.find l e.1 = some e.2

/-- The entry registers of a phase (R47): x1, x3, x5, x6, x7 and x8. -/
def Entered (x y : Seat) (ph : Phase) (iter : Nat) : Prop :=
  y.xr 1 = 1 ∧ y.xr 3 = x.parBase ∧ y.xr 5 = BitVec.ofNat 64 x.lrec.argp ∧ y.xr 7 = BitVec.ofNat 64 x.rank ∧
  y.xr 6 = BitVec.ofNat 64 (match ph with | .prologue => 0 | .kernel => iter | .epilogue => x.lrec.trip) ∧
  y.xr 8 = BitVec.ofNat 64 (x.tag % 2 ^ 16 + x.ordI % 16 * 2 ^ 16 + x.ordJ % 16 * 2 ^ 20 + x.ordK % 2 ^ 10 * 2 ^ 24) ∧
  y.phase = ph ∧ y.iter = iter ∧ y.pc = BitVec.ofNat 64 (match ph with | .prologue => x.lrec.prol | .kernel => x.lrec.kern | .epilogue => x.lrec.epil) ∧
  y.loops = [] ∧ y.streams = []

end Sys2Proof.Claim

/-- R31 to R33, R46, R353, R398, R462, R463: what the owner's commands do to instances. A kick that is accepted makes an instance with a copy of its
parameter block, patched; one that is refused leaves a report; an abort takes every seat of the instance. R46: the owner's pre-emption, which also withdraws
a placement that would bring the seat back. Writes of others are refused. -/
def Obligations.OwnerEvents : Prop := ∀ (s : State) (pk node : Nat), let p := s.hw.pkg pk
  let owns := p.ownv = true ∧ p.owner = node
  let live := pk < s.hw.glob.npkg ∧ p.off = false ∧ p.wipeUntil ≤ s.hw.glob.now
  let rd := fun (t : State) (x : Nat) => Memory.read t.hw.mem x;
  (∀ (hdr : W64) (patches : List (W64 × W64)), let i : Instr := .kick pk node hdr patches
    let w := hdr.toNat
    let img := w / 2 ^ 20 % 16
    let taken := live ∧ (w / 2 ^ 8 % 2 ^ 9 ≤ 256 → patches.length = w / 2 ^ 8 % 2 ^ 9) ∧
      wipeRuns s.hw pk = false ∧ ∀ d < 4, (s.hw.die (4 * pk + d)).fwHeld = false;
    (¬taken → ∃ t, exec i s = .next t ∧ Became s t s.hw) ∧
    (taken → RingOk s pk → ¬owns → ∃ t, exec i s = .next t ∧ Refused s t pk) ∧
    (∀ c, taken → owns → kickCause s.hw pk hdr patches = some c → ∃ t, exec i s = .next t ∧ t.hw.insts = s.hw.insts ∧
      (t.hw.pkg pk).reports = p.reports ++ [(BitVec.ofNat 64 (w / 2 ^ 32 * 2 ^ 32), abortStatus p.oport c)]) ∧
    (taken → owns → kickCause s.hw pk hdr patches = none → s.MemOk → let n := (p.instCount + 1) % 2 ^ 32
      let slot := freeSlot s.hw pk
      let base := secAddr s.hw pk img secParams
      let len := secCount s.hw pk img secParams
      let dst := paramAt pk slot;
      dst + len ≤ 2 ^ 52 → ∃ t, exec i s = .next t ∧
        SMap.find t.hw.insts (instKey pk n) = some { pkg := pk, num := n, ktag := w / 2 ^ 32, img := img, slot := slot } ∧
        (t.hw.pkg pk).instCount = n ∧ (∀ k, k ≠ instKey pk n → SMap.find t.hw.insts k = SMap.find s.hw.insts k) ∧
        (∀ x < len, (∀ q ∈ patches, x < q.1.toNat ∨ q.1.toNat + 8 ≤ x) → rd t (dst + x) = rd s (base + x)) ∧
        (∀ q ∈ patches, (∀ r ∈ patches, r.1 = q.1 → r = q) → readNat t.hw (dst + q.1.toNat) 8 = q.2.toNat) ∧
        (∀ x, x < dst ∨ dst + len ≤ x → rd t x = rd s x) ∧
        Became s t { s.hw with mem := t.hw.mem, pkgs := t.hw.pkgs, insts := t.hw.insts })) ∧
  (∀ target, (¬live → ∃ t, exec (.ownerPreempt pk node target) s = .next t ∧ Became s t s.hw) ∧
    (live → RingOk s pk → ¬owns → ∃ t, exec (.ownerPreempt pk node target) s = .next t ∧ Refused s t pk) ∧
    (live → owns → Listed s.hw.seats → ∃ t, exec (.ownerPreempt pk node target) s = .next t ∧
      Became s t { s.hw with seats := t.hw.seats, glob := t.hw.glob } ∧
      let hit := fun (k : Nat) (x : Seat) => x.st ≠ .free ∧ x.st ≠ .retiring ∧ (match target with
        | .seat n => k = n ∨ (x.st = .saved ∧ k % 2 ^ 18 = n)
        | .inst n => x.inst = instKey pk n)
      let withdrawn := fun (k : Nat) => ∃ e ∈ s.hw.seats, e.2.st = .saved ∧ e.2.claimed = true ∧ hit e.1 e.2 ∧ e.1 % 2 ^ 18 = k
      ∀ k x, SMap.find s.hw.seats k = some x → let asked := x.st ≠ .saved ∧ x.st ≠ .saving ∧ x.preReq = false ∧ x.preempt = false;
        (withdrawn k → ¬hit k x → SMap.find t.hw.seats k = none) ∧ (¬withdrawn k → (¬hit k x → t.hw.seat k = x) ∧
          (hit k x → ¬asked → t.hw.seat k = { x with ownerHeld := true, claimed := false }) ∧
          (hit k x → asked → t.hw.seat k = { x with ownerHeld := true, claimed := false, preReq := true } ∧
            (s.hw.glob.now, .preemptionRequest k) ∈ t.hw.glob.agenda)))) ∧
  (∀ seat, (¬live → ∃ t, exec (.ownerReleaseSeat pk node seat) s = .next t ∧ Became s t s.hw) ∧
    (live → RingOk s pk → ¬owns → ∃ t, exec (.ownerReleaseSeat pk node seat) s = .next t ∧ Refused s t pk) ∧
    (live → owns → ∃ t, exec (.ownerReleaseSeat pk node seat) s = .next t ∧ Became s t { s.hw with seats := t.hw.seats } ∧
      ∀ k, SMap.has s.hw.seats k = true → t.hw.seat k = (if k % 2 ^ 18 = seat then { s.hw.seat k with ownerHeld := false } else s.hw.seat k))) ∧
  (∀ n status, let i := s.hw.inst n;
    (2 ≤ i.st ∨ SMap.has s.hw.insts n = false → ∃ t, exec (.instanceAbort n status) s = .next t ∧ Became s t s.hw) ∧
    (i.st < 2 → SMap.has s.hw.insts n = true → ∃ t, exec (.instanceAbort n status) s = .next t ∧ (t.hw.inst n).st = 2 ∧
      (t.hw.inst n).status = (match i.fail with | none => status | some (u, c) => abortStatus u c) ∧ (∀ e ∈ t.hw.seats, e.2.inst ≠ n) ∧
      (∀ e ∈ t.hw.clusters, ∀ m ∈ e.2.mbox, SMap.find t.hw.clusters e.1 = some e.2 → m.inst ≠ n) ∧
      (∀ m ∈ (t.hw.die (4 * i.pkg)).wheel, m.inst ≠ n) ∧ (∀ x ∈ (t.hw.pkg i.pkg).tagLive, x.2.1 ≠ n) ∧
      ∀ k, k ≠ n → SMap.find t.hw.insts k = SMap.find s.hw.insts k))

/-- R35 to R38, R43 to R49, R64, R214, R216, R219, R321 to R323, R357, R397, R416 to R418, R453: what the dispatchers do. An instance starts and
arms; a release event counts, and a node whose count reaches zero is ready, or fails its instance; a round places the first entry that fits and asks
seats to leave for the first entry of all; a placement starts a seat, or its restore; a retired seat is gone, a completed node's dependants
count, and an ended instance reports; the wheel delivers what is due. -/
def Obligations.DispatchEvents : Prop := ∀ (s : State), let now := s.hw.glob.now
  let same := fun (i : Instr) => ∃ t, exec i s = .next t ∧ Became s t s.hw;
  (∀ n, s.ev = .instanceStart n → let i := s.hw.inst n
    let ms := modelImgs s.hw i.pkg i.img
    let code := if (s.hw.pkg i.pkg).poolNew.isSome then none else startCode s.hw i.pkg ms
    let waits := (modelPkgs s.hw i.pkg).any (fun p => modelsWait s.hw p ms)
    let cnt := imgNodes s.hw i.pkg i.img;
    (startDue s.hw n = false → same .instanceStart) ∧
    (∀ c, startDue s.hw n = true → code = some c → ∃ t, exec .instanceStart s = .next t ∧ (t.hw.inst n).st = 2 ∧
      (t.hw.inst n).status = (match i.fail with | none => abortStatus (4 * i.pkg) c | some (u, k) => abortStatus u k)) ∧
    (startDue s.hw n = true → code = none → waits = true → ∃ t, exec .instanceStart s = .next t ∧
      Became s t { s.hw with pkgs := t.hw.pkgs }) ∧
    (startDue s.hw n = true → code = none → waits = false → 0 < cnt → ∃ t, exec .instanceStart s = .next t ∧
      (t.hw.inst n).st = 1 ∧ (t.hw.inst n).models = ms.map (fun m => m.model) ∧ (t.hw.inst n).mpkgs = modelPkgs s.hw i.pkg ∧
      (∀ j < cnt, ∃ r, SMap.find (t.hw.inst n).nodes j = some r ∧ r.count = (nodeImg s.hw i.pkg i.img j).depn ∧ r.placed = false ∧ r.done = false ∧
        (0 < r.count → r.readyAt = none) ∧
        (r.count = 0 → r.readyAt = some (s.hw.cycle i.pkg) ∨ ∃ c, (c = 0x134 ∨ c = 0x135) ∧ Aborts t now n (4 * i.pkg) c)) ∧
      (∀ q ∈ queueImgs s.hw i.pkg i.img, q.1 < 144 → (∀ r ∈ queueImgs s.hw i.pkg i.img, r.1 = q.1 → r.2.1 = q.2.1 → r = q) →
        SMap.find (t.hw.cluster (144 * i.pkg + q.1)).queues q.2.1 = some { inst := n, cap := 2 ^ q.2.2 }) ∧
      (∀ m ∈ (t.hw.die (4 * i.pkg)).wheel, m ∈ (s.hw.die (4 * i.pkg)).wheel ∨ (m.inst = n ∧ ∃ x ∈ milestoneImgs s.hw i.pkg i.img, m.node = x.2.2)))) ∧
  (∀ n d src, s.ev = .signalCounted n d src → let i := s.hw.inst n
    let r := nodeRec s.hw n d
    let pl := nodePlace s.hw n d;
    (i.st ≠ 1 ∨ SMap.has i.nodes d = false → same .signalCounted) ∧
    (i.st = 1 → SMap.has i.nodes d = true →
      (r.count = 0 → src ≠ 1 → same .signalCounted) ∧
      (r.count = 0 → src = 1 → RingOk s i.pkg → ∃ t, exec .signalCounted s = .next t ∧ Recorded s t (4 * i.pkg) ∧ t.hw.insts = s.hw.insts) ∧
      (1 < r.count → ∃ t, exec .signalCounted s = .next t ∧ nodeRec t.hw n d = { r with count := r.count - 1 } ∧
        Became s t { s.hw with insts := t.hw.insts }) ∧
      (r.count = 1 → ∃ t, exec .signalCounted s = .next t ∧ (nodeRec t.hw n d).count = 0 ∧
        (recordsOk s.hw n d = false → Aborts t now n (4 * i.pkg) 0x134) ∧
        (recordsOk s.hw n d = true → pl.count ≠ 0 → domainSeats s.hw [] [] pl (nodeLrec s.hw n d) = none → Aborts t now n (4 * i.pkg) 0x135) ∧
        (recordsOk s.hw n d = true → pl.count = 0 ∨ domainSeats s.hw [] [] pl (nodeLrec s.hw n d) ≠ none →
          nodeRec t.hw n d = { r with count := 0, readyAt := some (s.hw.cycle i.pkg) } ∧ t.hw.mem = s.hw.mem)))) ∧
  (∀ pk, s.ev = .dispatchRound pk → let es := entriesOf s.hw pk
    let occ := occOf s.hw
    let out := fun (e : Entry) (r : List Entry) => es = e :: r ∧ e.spots s.hw occ (savedOf s.hw (e.saved.getD 0)) = none;
    (es = [] → ∃ t, exec .dispatchRound s = .next t ∧ (t.hw.pkg pk).roundAt = s.hw.cycle pk + 1 ∧ t.hw.seats = s.hw.seats ∧ t.hw.insts = s.hw.insts) ∧
    (∀ e r, out e r → ∃ t, exec .dispatchRound s = .next t ∧ ∀ k ∈ victimSeats s.hw e.pri (e.reserve s.hw []),
      (now, .preemptionRequest k) ∈ t.hw.glob.agenda ∧ (firstFit s.hw occ es [] = none → (t.hw.seat k).preReq = true)) ∧
    (∀ e l, firstFit s.hw occ es [] = some (e, l) → e.saved = none →
      (nextTag s.hw pk = none → (∀ x ∈ l, reachable s.hw pk (pkgOfCore (coreOf x.key)) = true) → ∃ t, exec .dispatchRound s = .next t ∧
        Aborts t now e.inst (4 * (s.hw.inst e.inst).pkg) 0x136) ∧
      ((∃ x ∈ l, reachable s.hw pk (pkgOfCore (coreOf x.key)) = false) → ∃ t, exec .dispatchRound s = .next t ∧
        Aborts t now e.inst (4 * (s.hw.inst e.inst).pkg) 0x137) ∧
      (∀ tag q, nextTag s.hw pk = some (some (tag, q)) → (∀ x ∈ l, reachable s.hw pk (pkgOfCore (coreOf x.key)) = true) →
        let i := s.hw.inst e.inst
        let rec_ := nodeLrec s.hw e.inst e.node
        let pl := nodePlace s.hw e.inst e.node;
        ∃ t, exec .dispatchRound s = .next t ∧
          (let n := nodeRec t.hw e.inst e.node; n.placed = true ∧ n.seats = l.map (fun x => x.key) ∧ n.live = l.length ∧ n.tag = tag) ∧
          (tag, e.inst, e.node) ∈ (t.hw.pkg pk).tagLive ∧
          ∀ x ∈ l, (∀ y ∈ l, y.key = x.key → y = x) → let rank := x.i + pl.cpc * (x.j + pl.cps * x.k);
            t.hw.seat x.key = {
              inst := e.inst, node := e.node, rank := rank, ordI := x.i, ordJ := x.j, ordK := x.k, tag := tag, img := i.img, lrec := rec_
              parBase := paramFlat pk i.slot, relTime := e.rel } ∧
            (∀ f, rec_.fbase ≤ f → f < rec_.fbase + rec_.fcnt → SMap.get 0 (t.hw.core (coreOf x.key)).flags f = 0) ∧
            (now + (if pkgOfCore (coreOf x.key) = pk then 8 else 1800), .seatPlacement x.key e.inst e.node rank) ∈ t.hw.glob.agenda)) ∧
    (∀ e l g, firstFit s.hw occ es [] = some (e, l) → e.saved = some g → 2 ^ 18 ≤ g → ∃ t, exec .dispatchRound s = .next t ∧
      t.hw.seat g = { s.hw.seat g with claimed := true } ∧ (t.hw.seat (g % 2 ^ 18)).inst = (s.hw.seat g).inst ∧
      ∃ T, now < T ∧ (T, .seatPlacement g e.inst e.node (s.hw.seat g).rank) ∈ t.hw.glob.agenda)) ∧
  (∀ k, s.ev = .preemptionRequest k → let x := s.hw.seat k
    let goes := x.preReq = true ∧ x.st ≠ .free ∧ x.st ≠ .retiring ∧ x.st ≠ .saving;
    (¬goes → same .preemptionRequest) ∧
    (goes → (∀ T, x.wait ≠ .sleep T) → (∀ T, x.savedWait ≠ .sleep T) → x.st ≠ .parked → ∃ t, exec .preemptionRequest s = .next t ∧
      SeatBecame s t k { x with preempt := true, preReq := false }) ∧
    (∀ T, goes → x.st = .parked → x.wait = .sleep T → (∀ T, x.savedWait ≠ .sleep T) → ∃ t, exec .preemptionRequest s = .next t ∧
      SeatBecame s t k { x with
        preempt := true, preReq := false, st := .run, wait := .none, nextIssue := max x.nextIssue (s.hw.coreT (coreOf k) + 1) })) ∧
  (∀ k n d rank, s.ev = .seatPlacement k n d rank → let x := s.hw.seat k
    let core := coreOf k
    let pk := pkgOfCore core
    let w := freeWindow (s.hw.pkg pk)
    let r := x.lrec
    let tm := s.hw.coreT core;
    (x.inst ≠ n ∨ x.node ≠ d ∨ (x.st ≠ .free ∧ x.st ≠ .saved) → same .seatPlacement) ∧
    (∀ ph it, x.inst = n → x.node = d → x.st = .free → firstPhase r = some (ph, it) → ∃ t, exec .seatPlacement s = .next t ∧
      (let y := t.hw.seat k; Entered x y ph it ∧ y.st = .placed ∧ y.win = w ∧ y.seatpri = r.spri ∧ y.nextIssue = tm + 1 ∧
        y.xr 2 = BitVec.ofNat 64 (((s.hw.pkg pk).privBase + 2 ^ 22 * (w + 1)) % 2 ^ 64)) ∧
      w ∈ (t.hw.pkg pk).winUsed ∧ w ∉ (s.hw.pkg pk).winUsed ∧
      (let co := t.hw.core core
        let s1 := isSeat1 k;
        (∀ g < r.gn, SMap.get 0 co.side (physOf r s1 .gran g) = 0 ∧ ∀ i < 512, SMap.get 0 co.tile (512 * physOf r s1 .gran g + i) = 0) ∧
        (∀ a < r.an, ∀ i < 64, SMap.get {} co.acc (64 * physOf r s1 .acc a + i) = {}) ∧
        (∀ b < r.bn, SMap.get {} co.latch (physOf r s1 .latch b) = {}) ∧
        ∀ h < r.hn, ∀ i < 4096, SMap.get 0 co.ht (4096 * physOf r s1 .ht h + i) = 0) ∧
      (∀ j, j ≠ k → t.hw.seat j = s.hw.seat j) ∧ (∀ c, c ≠ core → t.hw.core c = s.hw.core c) ∧
      Became s t { s.hw with seats := t.hw.seats, cores := t.hw.cores, pkgs := t.hw.pkgs }) ∧
    (x.inst = n → x.node = d → x.st = .free → firstPhase r = none → ∃ t, exec .seatPlacement s = .next t ∧ (t.hw.seat k).st = .retiring ∧
      ∀ j, j ≠ k → t.hw.seat j = s.hw.seat j) ∧
    (x.inst = n → x.node = d → x.st = .saved → 2 ^ 18 ≤ k → let v := volumeOf r x.spilled.length x.captured.length
      ∃ t, exec .seatPlacement s = .next t ∧ SMap.has t.hw.seats k = false ∧
        t.hw.seat (k % 2 ^ 18) = { x with st := .restoring, claimed := false, kept := [], loss := 0 } ∧
        (max now (s.hw.core core).spillAt + (v + 63) / 64 + 16, .restoreDone (k % 2 ^ 18)) ∈ t.hw.glob.agenda ∧ t.hw.mem = s.hw.mem)) ∧
  (∀ k, s.ev = .seatRetired k → let x := s.hw.seat k
    let p := (s.hw.inst x.inst).pkg
    let me := coreOf k;
    (retireReady s.hw k = false → same .seatRetired) ∧
    (retireReady s.hw k = true → ∃ t, exec .seatRetired s = .next t ∧ SMap.has t.hw.seats k = false ∧
      nodeRec t.hw x.inst x.node = { nodeRec s.hw x.inst x.node with live := (nodeRec s.hw x.inst x.node).live - 1 } ∧
      ((nodeRec s.hw x.inst x.node).live = 1 → reachable s.hw (pkgOfCore me) p = true → isFenced s.hw (144 * p + attachCl 0) = false →
        Sent t.hw (.nodeComplete x.inst x.node)))) ∧
  (∀ n d, s.ev = .nodeComplete n d → let i := s.hw.inst n
    let deps := dependants s.hw i.pkg i.img (nodeImg s.hw i.pkg i.img d);
    (i.st ≠ 1 ∨ (nodeRec s.hw n d).done = true → same .nodeComplete) ∧
    (i.st = 1 → (nodeRec s.hw n d).done = false → ∃ t, exec .nodeComplete s = .next t ∧ (nodeRec t.hw n d).done = true ∧
      (∀ m, SMap.has i.nodes m = true → (nodeRec t.hw n m).count = (nodeRec s.hw n m).count - deps.count m) ∧
      (∀ x ∈ (t.hw.pkg i.pkg).tagLive, ¬(x.2.1 = n ∧ x.2.2 = d)) ∧
      (let all := (t.hw.inst n).nodes.all (fun x => x.2.done);
        (t.hw.inst n).st = (if all then 2 else 1) ∧ (all = true → (t.hw.inst n).status = 0)))) ∧
  (∀ n, s.ev = .completionReportAppend n → let i := s.hw.inst n
    let l := (s.hw.pkg i.pkg).reports;
    (i.st ≠ 2 ∨ 256 ≤ l.length → same .completionReportAppend) ∧
    (i.st = 2 → l.length < 256 → ∃ t, exec .completionReportAppend s = .next t ∧ t.hw.inst n = { i with st := 3 } ∧
      t.hw.pkg i.pkg = { s.hw.pkg i.pkg with reports := l ++ [(BitVec.ofNat 64 (i.ktag % 2 ^ 32 * 2 ^ 32 + i.num % 2 ^ 32), i.status)] } ∧
      Became s t { s.hw with insts := t.hw.insts, pkgs := t.hw.pkgs })) ∧
  (∀ die, s.ev = .milestoneWheelTick die → let d := s.hw.die die
    let n := s.hw.ptime (die / 4) / 64
    let due := fun (m : Milestone) => if m.abs = true then (s.hw.pkg (die / 4)).synced = true ∧ m.time ≤ n else m.time ≤ d.wheelAt + 1
    let late := ∃ m ∈ d.wheel, m.abs = true ∧ due m ∧ d.tickNo < m.time ∧ m.time < n;
    ∃ t, exec .milestoneWheelTick s = .next t ∧ (t.hw.die die).wheelAt = d.wheelAt + 1 ∧ (t.hw.die die).tickNo = n ∧
      (∀ m, m ∈ (t.hw.die die).wheel ↔ m ∈ d.wheel ∧ ¬due m) ∧
      (∀ m ∈ d.wheel, due m → (now + 4, .signalCounted m.inst m.node 1) ∈ t.hw.glob.agenda) ∧
      (∀ j, j ≠ die → t.hw.die j = s.hw.die j) ∧ (¬late → Became s t { s.hw with dies := t.hw.dies, glob := t.hw.glob }) ∧
      (late → d.prod < 1023 → (∀ x, (∀ i < 2 ^ 16, (ringPa die 0 + i) % 2 ^ 52 ≠ x) → Memory.read t.hw.mem x = Memory.read s.hw.mem x) ∧
        (d.recs < 1023 → (t.hw.die die).lastRec.map (fun x => x.1) = some 0x7E) ∧
        Became s t { s.hw with mem := t.hw.mem, dies := t.hw.dies, pkgs := t.hw.pkgs, glob := t.hw.glob }))

namespace Sys2Proof.Claim

/-- The entry of a layer in a package. -/
def lay (h : Hw) (pk key : Nat) : Layer := SMap.get {} (h.pkg pk).layers key

/-- A stream over frames of a layer stands, from or to its HOME (R473). -/
def Streams (t : State) (pk key home : Nat) (frames : List Nat) : Prop :=
  ∃ id a T, t.hw.acc? id = some a ∧ a.seat = resSeat ∧ a.layer = some key ∧ a.scPkg = pk ∧
    a.parts.map (fun p => (p.pa, p.off)) = frames.map (fun f => (home + 65536 * f, f)) ∧ (T, .lateDataArrival id 0) ∈ t.hw.glob.agenda

/-- A RESIDENT layer leaves: its dirty frames stream to HOME, or it is gone in the next ck (R133). -/
def Evicts (s t : State) (pk key : Nat) : Prop :=
  let e := lay s.hw pk key
  let fs := (List.range e.size).filter (fun f => e.dirty.any (fun d => d.1 == f));
  lay t.hw pk key = { e with st := .evicting } ∧ (fs = [] → (s.hw.glob.now + 1, .evictionComplete pk key) ∈ t.hw.glob.agenda) ∧
  (fs ≠ [] → Streams t pk key e.home fs)

/-- Eight bytes at two addresses are apart. -/
def Apart (a b : Nat) : Prop := a + 8 ≤ b ∨ b + 8 ≤ a

end Sys2Proof.Claim

/-- R49 to R53, R131, R133, R136, R137, R353, R385, R420, R440 to R443, R473, R474: what a residency engine and a spill engine do. Layers leave that
must, or for the arrival that goes first; an arrival takes slots and streams from HOME; arrivals and evictions complete or fail; a late LACQ is
charged; the owner's pool parameters apply when every layer is ABSENT. A spill waits until the seat's accesses have performed, writes the image and leaves a
saved record, with the units of the seat free; a restore reads it back and the seat runs, its captured results to be replayed; either is charged when its window does not translate. -/
def Obligations.StoreEvents : Prop := ∀ (s : State), let now := s.hw.glob.now
  let same := fun (i : Instr) => ∃ t, exec i s = .next t ∧ Became s t s.hw;
  (∀ pk key0, s.ev = .arrivalStart pk key0 → let p := s.hw.pkg pk;
    (mustEvict p ≠ [] → (mustEvict p).Nodup → ∃ t, exec .arrivalStart s = .next t ∧ t.hw.mem = s.hw.mem ∧ ∀ k ∈ mustEvict p, Evicts s t pk k) ∧
    (mustEvict p = [] → nextAct now p = .none → same .arrivalStart) ∧
    (∀ l, mustEvict p = [] → nextAct now p = .evict l → l.Nodup → ∃ t, exec .arrivalStart s = .next t ∧ t.hw.mem = s.hw.mem ∧ ∀ k ∈ l, Evicts s t pk k) ∧
    (∀ k, mustEvict p = [] → nextAct now p = .start k → let e := lay s.hw pk k
      ∃ t, exec .arrivalStart s = .next t ∧ t.hw.mem = s.hw.mem ∧ (t.hw.pkg pk).streams = p.streams + 1 ∧
        lay t.hw pk k = { e with st := .arriving, cand := false, slots := (freeSlots p).take (slotNeed p e) } ∧
        (e.lost = true → (now, .ext (.arrivalFailure pk k 1)) ∈ t.hw.glob.agenda) ∧
        (e.lost = false → homeReachable s.hw pk e = false → (now, .ext (.arrivalFailure pk k 2)) ∈ t.hw.glob.agenda) ∧
        (e.lost = false → homeReachable s.hw pk e = true → Streams t pk k e.home (List.range e.size)))) ∧
  (∀ pk key, let e := lay s.hw pk key
    let only := fun (t : State) => ∀ k, k ≠ key → lay t.hw pk k = lay s.hw pk k;
    (s.ev = .arrivalComplete pk key → (e.st ≠ .arriving → same .arrivalComplete) ∧
      (e.st = .arriving → ∃ t, exec .arrivalComplete s = .next t ∧ only t ∧ Became s t { s.hw with pkgs := t.hw.pkgs } ∧
        (t.hw.pkg pk).streams = (s.hw.pkg pk).streams - 1 ∧ lay t.hw pk key = { e with
          st := .resident, rel := s.hw.cycle pk, failed := e.failed && e.demandAt.isNone, demandAt := none, cand := false, evictNow := false
          dirty := [] })) ∧
    (s.ev = .evictionComplete pk key → (e.st ≠ .evicting → same .evictionComplete) ∧
      (e.st = .evicting → ∃ t, exec .evictionComplete s = .next t ∧ only t ∧ Became s t { s.hw with pkgs := t.hw.pkgs } ∧
        lay t.hw pk key = { e with st := .absent, slots := [], dirty := [], evictNow := false, absentAt := now + 1 })) ∧
    (∀ reason, let i : Instr := .arrivalFailure pk key reason
      let gone := fun (t : State) => lay t.hw pk key = { e with
        st := .absent, slots := [], failed := true, demandAt := none, cand := false, dirty := [] } ∧ (t.hw.pkg pk).streams = (s.hw.pkg pk).streams - 1;
      (e.st ≠ .arriving → same i) ∧
      (e.st = .arriving → stalledOn s.hw pk key = [] → RingOk s pk → ∃ t, exec i s = .next t ∧ gone t ∧ only t ∧ t.hw.seats = s.hw.seats ∧
        ∀ x, (∀ j < 2 ^ 16, (ringPa (4 * pk) 0 + j) % 2 ^ 52 ≠ x) → Memory.read t.hw.mem x = Memory.read s.hw.mem x) ∧
      (∀ k, e.st = .arriving → stalledOn s.hw pk key = [k] → Chargeable s k → recov (0xC0 + reason % 16) = .s → ∃ t, exec i s = .next t ∧ gone t ∧
        only t ∧ Froze s t k (0xC0 + reason % 16) ∧ ∀ j, j ≠ k → t.hw.seat j = s.hw.seat j)) ∧
    (e.st ≠ .evicting → same (.writeBackFailure pk key)) ∧
    (e.st = .evicting → RingOk s pk → ∃ t, exec (.writeBackFailure pk key) s = .next t ∧ only t ∧ t.hw.seats = s.hw.seats ∧
      lay t.hw pk key = { e with st := .absent, slots := [], dirty := [], lost := true, evictNow := false })) ∧
  (∀ k, s.ev = .lacqTimeout k → Chargeable s k → ∃ t, exec .lacqTimeout s = .next t ∧ Froze s t k 0xC0) ∧
  (∀ pk node base kns, let i : Instr := .poolParameterWrite pk node base kns
    let p := s.hw.pkg pk
    let live := pk < s.hw.glob.npkg ∧ p.off = false ∧ p.wipeUntil ≤ now
    let owns := p.ownv = true ∧ p.owner = node;
    (¬live → same i) ∧ (live → RingOk s pk → ¬owns ∨ anyModelRuns s.hw pk = true → ∃ t, exec i s = .next t ∧ Refused s t pk) ∧
    (live → owns → anyModelRuns s.hw pk = false → ∃ t, exec i s = .next t ∧ Became s t { s.hw with pkgs := t.hw.pkgs } ∧
      t.hw.pkg pk = { p with poolNew := some (base.toNat, kns.toNat % 16, kns.toNat / 2 ^ 16 % 2 ^ 15) } ∧ ∀ q, q ≠ pk → t.hw.pkg q = s.hw.pkg q)) ∧
  (∀ pk, s.ev = .poolChangeComplete pk → let p := s.hw.pkg pk
    ∃ t, exec .poolChangeComplete s = .next t ∧ Became s t { s.hw with pkgs := t.hw.pkgs } ∧ (∀ q, q ≠ pk → t.hw.pkg q = s.hw.pkg q) ∧
      (p.poolNew = none → t.hw.pkg pk = p) ∧
      ∀ b k n, p.poolNew = some (b, k, n) → t.hw.pkg pk = { p with poolBase := b, poolK := k, poolNs := n, poolNew := none }) ∧
  (∀ k, s.ev = .spillStart k → let x := s.hw.seat k
    let core := coreOf k
    let v := volumeOf x.lrec (writtenGrans s.hw k).length x.captured.length
    let T := max now (s.hw.core core).spillAt + (v + 63) / 64 + 16;
    (spillReady s.hw k = false → same .spillStart) ∧
    (spillReady s.hw k = true → ∃ t, exec .spillStart s = .next t ∧ (T, .spillDone k) ∈ t.hw.glob.agenda ∧
      t.hw.core core = { s.hw.core core with
        spillSeat := if isSeat1 k then 1 else 0, spillAt := T, banks := (t.hw.core core).banks } ∧
      (∀ c, c ≠ core → t.hw.core c = s.hw.core c) ∧ Became s t { s.hw with cores := t.hw.cores, glob := t.hw.glob })) ∧
  (∀ k, let x := s.hw.seat k
    let co := s.hw.core (coreOf k)
    let mine := co.spillAt = now ∧ co.spillSeat = (if isSeat1 k then 1 else 0)
    let sound := fun (c : Core) => ∀ a < x.lrec.an, c.accBad (physOf x.lrec (isSeat1 k) .acc a) 64 = false;
    (s.ev = .spillDone k → let words := spillWords s.hw k
      let pa := fun (w : Nat × W64) => winPa s.hw k w.1 true;
      (x.st ≠ .saving ∨ ¬mine → same .spillDone) ∧
      (x.st = .saving → mine → seatOpen s.hw k = true → ∃ t, exec .spillDone s = .next t ∧ (now + 1, .spillDone k) ∈ t.hw.glob.agenda ∧
        t.hw.core (coreOf k) = { co with spillAt := now + 1 } ∧ t.hw.seats = s.hw.seats ∧ Became s t { s.hw with cores := t.hw.cores, glob := t.hw.glob }) ∧
      (x.st = .saving → mine → seatOpen s.hw k = false → sound co → (∀ w ∈ words, ∃ a, pa w = some a ∧ a + 8 ≤ 2 ^ 52) → k < 2 ^ 18 → let g := 2 ^ 18 * s.hw.glob.nextId + k
        s.hw.glob.nextId ≠ 0 → ∃ t, exec .spillDone s = .next t ∧
          (let y := t.hw.seat g; y.st = .saved ∧ y.inst = x.inst ∧ y.node = x.node ∧ y.lrec = x.lrec ∧ y.phase = x.phase ∧ y.iter = x.iter ∧
            y.captured.length = x.captured.length ∧ ∀ n ∈ writtenGrans s.hw k, n ∈ y.spilled) ∧
          SMap.has t.hw.seats k = false ∧ (∀ l ∈ (t.hw.core (coreOf k)).landings, l.seat ≠ isSeat1 k) ∧
          (∀ w ∈ words, ∀ a, pa w = some a → (∀ v ∈ words, v = w ∨ ∀ b, pa v = some b → Apart a b) → readNat t.hw a 8 = w.2.toNat) ∧
          (∀ y, (∀ w ∈ words, ∀ a, pa w = some a → y < a ∨ a + 8 ≤ y) → Memory.read t.hw.mem y = Memory.read s.hw.mem y)) ∧
      (x.st = .saving → mine → seatOpen s.hw k = false → sound co → (∃ w ∈ words, pa w = none) → Chargeable s k → x.saveKind = 4 ∨ x.saveKind = 5 →
        ∃ t, exec .spillDone s = .next t ∧ Froze s t k (0x1C8 + x.saveKind) ∧ (t.hw.seat k).st = .saving)) ∧
    (s.ev = .restoreDone k → let offs := restoreOffs x
      let pa := fun (o : Nat) => winPa s.hw k o false
      let word := fun (o : Nat) => readNat s.hw ((pa o).getD 0) 8
      let all := ∀ o ∈ offs, ∃ a, pa o = some a;
      (x.st ≠ .restoring ∨ ¬mine → same .restoreDone) ∧
      (x.st = .restoring → mine → all → (∀ o ∈ offs, s.hw.glob.poison.contains (lineOf ((pa o).getD 0)) = false) → sound (co.loadWindows s.hw k) →
        ∃ t, exec .restoreDone s = .next t ∧ t.hw.mem = s.hw.mem ∧
          (let y := t.hw.seat k; y.st = .run ∧ y.pc = BitVec.ofNat 64 (word 0x4E8 % 2 ^ 56) ∧ y.nextIssue = s.hw.coreT (coreOf k) ∧
            y.captured.length = x.captured.length ∧ y.toReplay = true ∧
            y.phase = x.phase ∧ y.iter = x.iter ∧
            (∀ i < x.lrec.xn, i ∉ [0, 1, 3, 5, 6, 7, 8] → y.xr i = BitVec.ofNat 64 (word (0x600 + 8 * i))) ∧
            (∀ i < 16, y.dr i = BitVec.ofNat 64 (word (0x280 + 8 * i))) ∧ (∀ i < 8, y.or i = BitVec.ofNat 64 (word (0x340 + 8 * i))) ∧
            (∀ i < x.lrec.vn, ∀ j < 32, (y.vr i).extractLsb' (64 * j) 64 = BitVec.ofNat 64 (word (0x800 + 256 * i + 8 * j)))) ∧
          (x.lrec.gn ≤ 256 → x.spilled.Nodup → (∀ g ∈ x.spilled, g < x.lrec.gn) → ∀ g ∈ x.spilled, ∀ w < 512,
            SMap.get 0 (t.hw.core (coreOf k)).tile (512 * physOf x.lrec (isSeat1 k) .gran g + w) = BitVec.ofNat 64 (word (0x100000 + 4096 * g + 8 * w))) ∧
          ∀ j, j ≠ k → t.hw.seat j = s.hw.seat j) ∧
      (x.st = .restoring → mine → ¬all → Chargeable s k → x.saveKind = 4 ∨ x.saveKind = 5 →
        ∃ t, exec .restoreDone s = .next t ∧ Froze s t k (0x1D0 + x.saveKind))))

namespace Sys2Proof.Claim

/-- What a partition reset leaves (R399, R448): its stack groups refuse traffic and placement until the wipe has ended, the tables go round it, the
HBM of its stacks and the stores of its cores are zero, and no instance with a seat there runs on. -/
structure PartitionReset (s t : State) (pk : Nat) (gs dead : List Nat) : Prop where
  fenced : ∀ g ∈ gs, 12 * pk + g ∈ (t.hw.pkg pk).fenced
  failed : ∀ c ∈ dead, c ∈ (t.hw.pkg pk).failedRtr ∧ c ∈ (t.hw.pkg pk).tabOff
  tables : ∀ c < 144, stackOfCl c ∈ gs → c ∈ (t.hw.pkg pk).tabOff
  until_ : s.hw.glob.now + 45000000 ≤ (t.hw.pkg pk).resetTo
  resumes : (s.hw.glob.now + 45000000, .ext (.partitionResume pk)) ∈ t.hw.glob.agenda
  hbm : ∀ g ∈ gs, ∀ x < 2 ^ 36, Memory.read t.hw.mem (paOf pk (g * 2 ^ 36) + x) = 0
  stores : ∀ n, SMap.has s.hw.cores n = true → n < sysBase → pkgOfCore n = pk → stackOfCl (clOfCore n) ∈ gs →
    (t.hw.core n).tile = [] ∧ (t.hw.core n).side = [] ∧ (t.hw.core n).ht = [] ∧ (t.hw.core n).landings = []
  slices : ∀ c < 144, stackOfCl c ∈ gs → (t.hw.cluster (144 * pk + c)).slice = [] ∧ (t.hw.cluster (144 * pk + c)).sliceQ = []
  insts : ∀ e ∈ s.hw.seats, e.2.st ≠ .free → coreOf e.1 < sysBase → pkgOfCore (coreOf e.1) = pk → stackOfCl (clOfCore (coreOf e.1)) ∈ gs →
    SMap.has s.hw.insts e.2.inst = true → 2 ≤ (t.hw.inst e.2.inst).st

/-- Nothing of other packages is in package pk: no packet, no beat at its ports, and no access under way to its memory. -/
def Alone (s : State) (pk : Nat) : Prop :=
  (∀ e ∈ s.hw.clusters, e.1 / 144 = pk → e.2.pkts = [] ∧ e.2.inj = [] ∧ e.2.held = []) ∧ (s.hw.pkg pk).links = [] ∧
  ∀ e ∈ s.hw.accs, e.2.pkg ≠ pk → ∀ p ∈ e.2.parts, p.st = 1 ∨ p.st = 3 → p.pa / 2 ^ 46 ≠ pk

/-- What package pk held is gone, with its memory but for what its new start records; accesses of others under way to it are lost, and other
packages keep all but what they had there. -/
structure Emptied (s t : State) (pk : Nat) : Prop where
  seats : ∀ k, SMap.find t.hw.seats k = if pkgOfCore (coreOf k) = pk then none else SMap.find s.hw.seats k
  cores : ∀ c, pkgOfCore c = pk → SMap.find t.hw.cores c = none
  clusters : ∀ c, c / 144 = pk → SMap.find t.hw.clusters c = none
  insts : ∀ n, n / 2 ^ 32 = pk → SMap.find t.hw.insts n = none
  mem : ∀ x, pk * 2 ^ 46 ≤ x → x < (pk + 1) * 2 ^ 46 → (∀ i < 2 ^ 16, ringPa (4 * pk) 0 + i ≠ x) → Memory.read t.hw.mem x = 0
  losses : ∀ e ∈ s.hw.accs, s.hw.acc? e.1 = some e.2 → e.2.pkg ≠ pk → (∀ c es, e.2.kind ≠ .table c es) →
    (∃ p ∈ e.2.parts, (p.st = 1 ∨ p.st = 3) ∧ p.pa / 2 ^ 46 = pk) → ∃ b, t.hw.acc? e.1 = some b ∧ b.fail.testBit 6 = true
  others : Alone s pk → pk < 64 → (∀ c, pkgOfCore c ≠ pk → SMap.find t.hw.cores c = SMap.find s.hw.cores c) ∧ (∀ q, q ≠ pk → t.hw.pkg q = s.hw.pkg q) ∧
    ∀ x, ¬(pk * 2 ^ 46 ≤ x ∧ x < (pk + 1) * 2 ^ 46) → Memory.read t.hw.mem x = Memory.read s.hw.mem x

/-- The events of a link's transfers from ck u on come d ck later; every other event stays. -/
def Delayed (s t : State) (l : LinkId) (u d : Nat) : Prop := ∀ e ∈ s.hw.glob.agenda,
  if u ≤ e.1 ∧ onLink s.hw l e.2 = true then (e.1 + d, e.2) ∈ t.hw.glob.agenda else e ∈ t.hw.glob.agenda

end Sys2Proof.Claim

/-- R339, R399, R400, R434, R435, R445 to R448, R458, R460, R465, R466: failures of the machine's parts. A scrub records and poisons, and other sites that
fail drop, poison, charge or abort as their rules say; a link resends
what it carries, and fails after its last resend; a router, a link's ends and a die that trips are reset as a partition, which resumes when
its wipe has ended; a Stehayth port that fails is marked and aborts the instances with a beat on it, as a lost carry does; an event of the module
aborts the package's instances, and power-down takes all of its state. -/
def Obligations.FailureEvents : Prop := ∀ (s : State) (pk : Nat), let now := s.hw.glob.now
  let p := s.hw.pkg pk
  let same := fun (i : Instr) => ∃ t, exec i s = .next t ∧ Became s t s.hw
  let here := pk < s.hw.glob.npkg;
  (∀ site, let d := (siteRec s.hw site 0).1
    let ok := (s.hw.die d).prod < 1023;
    (siteOk site = false → same (.patrolScrub site false) ∧ same (.patrolScrub site true)) ∧
    (siteOk site = true → structOf site = none → same (.patrolScrub site false)) ∧
    (∀ v, siteOk site = true → structOf site = some v → ok → ∃ t, exec (.patrolScrub site false) s = .next t ∧ Recorded s t d ∧
      Became s t { s.hw with mem := t.hw.mem, dies := t.hw.dies, pkgs := t.hw.pkgs })) ∧
  (∀ k, let x := s.hw.seat k
    (∃ t, exec (.patrolScrub (.fetch k) true) s = .next t ∧ SeatBecame s t k { x with pendCause := x.pendCause ++
      [{ code := 0x1D, tval := if x.repOn then x.mpc else x.pc, slots := 0, due := 0 }] }) ∧
    ∀ n, ∀ g ∈ [FaultSite.word n k, .latch k n, .operation n k], x.st ≠ .free → SMap.has s.hw.insts x.inst = true →
      ∃ t, exec (.patrolScrub g true) s = .next t ∧ 2 ≤ (t.hw.inst x.inst).st) ∧
  (∀ core i, (s.hw.die (domDie core)).prod < 1023 → ∃ t, exec (.patrolScrub (.cached core 0 i none) true) s = .next t ∧
    t.hw.core core = { s.hw.core core with tlb := (s.hw.core core).tlb.eraseIdx i } ∧ (∀ n, n ≠ core → t.hw.core n = s.hw.core n) ∧
    Recorded s t (domDie core)) ∧
  (∀ cl set, (s.hw.die (netDie cl)).prod < 1023 → ∃ t, exec (.patrolScrub (.sliceSet cl set) true) s = .next t ∧ Recorded s t (netDie cl) ∧
    SMap.get [] (t.hw.cluster cl).slice set = [] ∧
    ∀ l ∈ SMap.get [] (s.hw.cluster cl).slice set, l.dirty = true → l.line ∈ t.hw.glob.poison) ∧
  (∀ die i m, (s.hw.die die).wheel[i]? = some m → SMap.has s.hw.insts m.inst = true → ∃ t, exec (.patrolScrub (.milestone die i) true) s = .next t ∧
    2 ≤ (t.hw.inst m.inst).st) ∧
  (∀ cl, cl < 144 → ∃ t, exec (.patrolScrub (.router pk cl) true) s = .next t ∧ PartitionReset s t pk (groupsOf [cl]) [cl]) ∧
  (∀ line unc, let i : Instr := .patrolScrub (.hbm line) unc
    let d := 4 * (line / 2 ^ 40) + line / 2 ^ 30 % 1024 / 3;
    (hbmOk (64 * line) = true → (s.hw.die d).prod < 1023 → ∃ t, exec i s = .next t ∧ Recorded s t d ∧
      (∀ x, x ∈ t.hw.glob.poison ↔ x ∈ s.hw.glob.poison ∨ (unc = true ∧ x = line)) ∧
      t.hw.seats = s.hw.seats ∧ t.hw.cores = s.hw.cores ∧ t.hw.clusters = s.hw.clusters ∧ t.hw.insts = s.hw.insts ∧ t.hw.accs = s.hw.accs)) ∧
  (∀ (l : LinkId) acc, let i : Instr := .linkRetryRequest l acc
    let q := linkPkg l
    let key := 8 * (4 * l.unit + l.dir) + kindNo l.kind
    let r := SMap.get 0 (s.hw.pkg q).retries key
    let n := if r / 32 = acc then r % 32 else 0
    let from_ := if l.kind = .lomoamo then some now else sentFrom s.hw l acc
    let ok := q < s.hw.glob.npkg ∧ l.dir < 4;
    (¬ok ∨ from_ = none → same i) ∧
    (∀ u, ok → from_ = some u → n < (linkTime l).2 → ∃ t, exec i s = .next t ∧ SMap.get 0 (t.hw.pkg q).retries key = 32 * acc + n + 1 ∧
      t.hw.mem = s.hw.mem ∧ t.hw.seats = s.hw.seats ∧ (isMesh l = false → l.kind ≠ .stehayth → Delayed s t l u (2 * (linkTime l).1 + 4)) ∧
      (l.kind = .stehayth → let port := l.unit % 36
        (SMap.get {} (t.hw.pkg q).links port).fly = (beatsOn s.hw q port).map (fun x =>
          if u ≤ x.ready then { x with ready := x.ready + (2 * (linkTime l).1 + 4) } else x)) ∧
      (isMesh l = true → ∀ m, nbrCl (l.unit % 144) l.dir = some m → let c := 144 * (l.unit / 144) + m
        (t.hw.cluster c).pkts = (s.hw.cluster c).pkts.map (fun x =>
          if x.inDir = oppDir l.dir ∧ now < x.ready ∧ u ≤ x.ready then { x with ready := x.ready + (2 * (linkTime l).1 + 4) } else x))) ∧
    (∀ u, ok → from_ = some u → (linkTime l).2 ≤ n → ∃ t, exec i s = .next t ∧ (match l.kind with
      | .meshHop => PartitionReset s t q (groupsOf [l.unit % 144]) [l.unit % 144]
      | .dieBridge => PartitionReset s t q (groupsOf [l.unit % 144]) [l.unit % 144]
      | .neighbour => (l.unit % 144, l.dir) ∈ (t.hw.pkg q).nbrOff
      | .stehayth => l.unit % 36 ∈ (t.hw.pkg q).linkDown
      | .lomoamo => l.unit % 2 ∉ (t.hw.pkg q).up
      | .carryHop => l.unit % 4 ∈ (t.hw.pkg q).carryOff
      | .carryIn => 5 ∈ (t.hw.pkg q).carryOff
      | .carryOut => 4 ∈ (t.hw.pkg q).carryOff))) ∧
  (∀ c, (¬(c / 144 < s.hw.glob.npkg ∧ rtrWorks (s.hw.pkg (c / 144)) (c % 144) = true) → same (.routerAckTimeout c)) ∧
    (c / 144 < s.hw.glob.npkg → rtrWorks (s.hw.pkg (c / 144)) (c % 144) = true → ∃ t, exec (.routerAckTimeout c) s = .next t ∧
      PartitionReset s t (c / 144) (groupsOf [c % 144]) [c % 144])) ∧
  (∀ (l : LinkId) m, linkPkg l < s.hw.glob.npkg → isMesh l = true → l.dir < 4 → nbrCl (l.unit % 144) l.dir = some m →
    ∃ t, exec (.linkTrainingLoss l) s = .next t ∧ PartitionReset s t (linkPkg l) (groupsOf [l.unit % 144, m]) [l.unit % 144, m]) ∧
  (∀ die, let d := 4 * pk + die
    let gs := [3 * die, 3 * die + 1, 3 * die + 2];
    (¬(here ∧ die < 4) → same (.temperatureWarning pk die) ∧ same (.temperatureTrip pk die) ∧ same (.powerStageFault pk die)) ∧
    (here → die < 4 →
      ((s.hw.die d).prod < 1023 → ∃ t, exec (.temperatureWarning pk die) s = .next t ∧ Recorded s t d ∧
        (t.hw.pkg pk).replies = p.replies ++ (if p.ownv then [(5, 0x1B0 + die)] else []) ∧
        Became s t { s.hw with mem := t.hw.mem, dies := t.hw.dies, pkgs := t.hw.pkgs }) ∧
      (∃ t, exec (.temperatureTrip pk die) s = .next t ∧ PartitionReset s t pk gs [] ∧ (t.hw.die d).hot = true) ∧
      ∃ t, exec (.powerStageFault pk die) s = .next t ∧ PartitionReset s t pk gs [] ∧ (t.hw.die d).power = true)) ∧
  (let goes := fun (g : Nat) => (s.hw.die (4 * pk + g % 12 / 3)).hot = false ∧ (s.hw.die (4 * pk + g % 12 / 3)).power = false
    let i : Instr := .partitionResume pk;
    (now < p.resetTo ∨ (∀ g ∈ p.fenced, ¬goes g) → same i) ∧
    (p.resetTo ≤ now → (∃ g ∈ p.fenced, goes g) → ∃ t, exec i s = .next t ∧
      (∀ g, g ∈ (t.hw.pkg pk).fenced ↔ g ∈ p.fenced ∧ ¬goes g) ∧ (t.hw.pkg pk).failedRtr = [] ∧
      (∀ c, c ∈ (t.hw.pkg pk).rtrOff ↔ c ∈ p.rtrOff ∨ c ∈ p.failedRtr) ∧
      ∀ e ∈ s.hw.seats, awaitsUnit e.2 = true → (now + 1, .ext (.resumeCommand e.1)) ∈ t.hw.glob.agenda)) ∧
  (∀ port, let i : Instr := .stehaythLinkFailure pk port
    let unit := 36 * pk + port;
    (¬(here ∧ port < 36) → same i) ∧
    (here → port < 36 → ∃ t, exec i s = .next t ∧ port ∈ (t.hw.pkg pk).linkDown ∧
      SMap.get {} (t.hw.pkg pk).links port = {} ∧ ∀ x ∈ beatsOn s.hw pk port,
        (∀ n, beatInst s.hw x = some n → Aborts t now n unit 0x14E) ∧
        ∀ a, s.hw.acc? x.acc = some a → (∀ c es, a.kind ≠ .table c es) → ∃ b, t.hw.acc? x.acc = some b ∧ b.left = 0 ∧ b.fail.testBit 2 = true)) ∧
  ((¬here → same (.carryInputLoss pk)) ∧ (here → ∃ t, exec (.carryInputLoss pk) s = .next t ∧ 5 ∈ (t.hw.pkg pk).carryOff ∧
    (∀ r ∈ (s.hw.die (4 * pk)).rounds, ∀ n d, r.cb = none → tagOwner s.hw r.lpkg r.tag = some (n, d) → Aborts t now n (4 * pk) 0x18F) ∧
    (∀ e ∈ s.hw.glob.agenda, ∀ m, e.2 = .blockCarryArrival m → m.leaves = false → m.die = 4 * pk → e ∉ t.hw.glob.agenda))) ∧
  (∀ g ∈ [(Instr.coolantFlowLow pk, 0x1BC), (.coolantTemperatureHigh pk, 0x1BD), (.inputUndervoltage pk, 0x1BE), (.inputOvercurrent pk, 0x1BF)],
    (¬here → same g.1) ∧
    (here → ∃ t, exec g.1 s = .next t ∧ g.2 ∈ (t.hw.pkg pk).events ∧ t.hw.seats = s.hw.seats ∧
      ∀ n x, SMap.find s.hw.insts n = some x → x.pkg = pk → x.st ≤ 1 → Aborts t now n pk g.2)) ∧
  (∀ cause, let i : Instr := .moduleEventCleared pk cause
    let d := 4 * pk + cause % 4;
    (¬here → same i) ∧
    (here → ∃ t, exec i s = .next t ∧ t.hw.pkg pk = { p with events := p.events.filter (fun c => c != cause) } ∧
      (0x1B4 ≤ cause → cause < 0x1B8 → (t.hw.die d).hot = false) ∧ (0x1B8 ≤ cause → cause < 0x1BC → (t.hw.die d).power = false) ∧
      (0x1B4 ≤ cause → cause < 0x1BC → (max p.resetTo (now + 1), .ext (.partitionResume pk)) ∈ t.hw.glob.agenda) ∧
      Became s t { s.hw with pkgs := t.hw.pkgs, dies := t.hw.dies, glob := t.hw.glob })) ∧
  ((¬here → same (.modulePowerDown pk)) ∧ (here → ∃ t, exec (.modulePowerDown pk) s = .next t ∧ (t.hw.pkg pk).off = true ∧
    Emptied s t pk ∧ (∀ x, pk * 2 ^ 46 ≤ x → x < (pk + 1) * 2 ^ 46 → Memory.read t.hw.mem x = 0) ∧
    (t.hw.pkg pk).life = p.life ∧ (t.hw.pkg pk).owner = 0 ∧ (t.hw.pkg pk).images = []))

namespace Sys2Proof.Claim

/-- What a record to a die's error ring may change, beside the replies of its package: the bytes of the ring and the die's ring registers. -/
structure RingOnly (s t : State) (d : Nat) : Prop where
  bytes : ∀ x, (∀ i < 2 ^ 16, (ringPa d 0 + i) % 2 ^ 52 ≠ x) → Memory.read t.hw.mem x = Memory.read s.hw.mem x
  dies : ∀ n, n ≠ d → t.hw.die n = s.hw.die n
  die : t.hw.die d = { s.hw.die d with
    prod := (t.hw.die d).prod, recs := (t.hw.die d).recs, recNew := (t.hw.die d).recNew, rseq := (t.hw.die d).rseq
    lostRec := (t.hw.die d).lostRec, lastRec := (t.hw.die d).lastRec }

/-- An event of a port that changes its package alone, and nothing but the package. -/
def PkgBecame (s t : State) (pk : Nat) (q : Pkg) : Prop :=
  t.hw.pkg pk = q ∧ (∀ j, j ≠ pk → t.hw.pkg j = s.hw.pkg j) ∧ Became s t { s.hw with pkgs := t.hw.pkgs }

/-- The same, with a record to the ring of the package's lead dispatcher. -/
def PkgRecorded (s t : State) (pk : Nat) (q : Pkg) : Prop :=
  t.hw.pkg pk = q ∧ (∀ j, j ≠ pk → t.hw.pkg j = s.hw.pkg j) ∧ RingOnly s t (4 * pk) ∧
  Became s t { s.hw with mem := t.hw.mem, dies := t.hw.dies, pkgs := t.hw.pkgs }

/-- An event of a port that the package refuses, and reports to the owner at its next claim (R464, R466). -/
def RefusedLater (s t : State) (pk code : Nat) : Prop :=
  PkgRecorded s t pk { s.hw.pkg pk with
    replies := (s.hw.pkg pk).replies ++ [(0, 0)], later := (s.hw.pkg pk).later ++ [code] }

/-- A write of doublewords of an image table entry, from doubleword w on (R355): it has V = 1 exactly when it asks for that and passes its
checks. -/
def EntryWritten (s t : State) (pk handle w : Nat) (l : List W64) : Prop :=
  let p := s.hw.pkg pk
  let q := t.hw.pkg pk;
  (∀ k, k ≠ handle → SMap.find q.images k = SMap.find p.images k) ∧
  PkgRecorded s t pk { p with images := q.images, replies := q.replies } ∧
  ∃ e, SMap.find q.images handle = some e ∧
    (∀ i, SMap.get 0 e.words i = if w ≤ i ∧ i < w + l.length ∧ i < 8 then l.getD (i - w) 0
      else SMap.get 0 (SMap.get {} p.images handle).words i) ∧
    e.valid = ((SMap.get (0 : W64) e.words 0).getLsbD 0 &&
      (imgCause { s.hw with pkgs := SMap.insert s.hw.pkgs pk { p with images := SMap.insert p.images handle { e with valid := false } } } pk handle).isNone)

/-- Node `node` has become the owner on a port: it is told what was to be reported at the next claim (R352, R353, R466), after the replies `rs`
that went before; the records that waited in the rings follow when the supervisor next passes them (R461). -/
def Owns (s t : State) (pk port node at_ : Nat) (rs : List (Nat × Nat)) : Prop :=
  let p := s.hw.pkg pk;
  t.hw.pkg pk = { p with
    owner := node, ownv := true, oport := port, succv := false, lapseAt := 0, claimAt := at_, later := []
    replies := rs ++ [(1, node)] ++ p.later.map (fun c => (5, c)) } ∧
  (∀ j, j ≠ pk → t.hw.pkg j = s.hw.pkg j) ∧ Became s t { s.hw with pkgs := t.hw.pkgs }

/-- A package after a reset (R359): its life cycle, and what self-test finds; a boot that fails a check is reported at the next claim. -/
def fresh (s : State) (q : Nat) (f : PartConf) : Pkg := {
  coresOff := f.coresOff, rtrOff := offRouters f, stkOff := f.stkOff, linkOff := f.linkOff, chain := f.chain, tabOff := offRouters f
  slcOff := f.slcOff, wires := f.wires, life := (s.hw.pkg q).life, keyBad := f.keyBad
  later := ((List.range 4).filter (fun d => f.held.contains d)).map (fun _ => 0x1A8) ++ if f.keyBad then [0x1AB] else [] }

/-- A package whose life cycle moves is wiped: its memory reads 0, and the stores of its cores and its slices are empty (R361). -/
def LifeMoved (s t : State) (pk : Nat) (l : Life) : Prop :=
  PkgBecame s { t with hw := { t.hw with mem := s.hw.mem, cores := s.hw.cores, clusters := s.hw.clusters, glob := s.hw.glob } } pk
    { s.hw.pkg pk with life := l, wipeUntil := s.hw.glob.now + 45000000 } ∧
  t.hw.glob = { s.hw.glob with poison := t.hw.glob.poison } ∧
  (let held := fun (y : Nat) => ∃ d < 4, ∃ b ∈ heldBack s.hw (4 * pk + d), b.1 = y;
    (∀ st < 12, ∀ x < 2 ^ 36, let y := paOf pk (st * 2 ^ 36) + x;
      (∀ d < 4, d ≠ st / 3 → ∀ b ∈ heldBack s.hw (4 * pk + d), b.1 ≠ y) → Memory.read t.hw.mem y = 0) ∧
    ∀ y, y / 2 ^ 46 ≠ pk → ¬held y → Memory.read t.hw.mem y = Memory.read s.hw.mem y) ∧
  (∀ n, SMap.has s.hw.cores n = true → domDie n / 4 = pk → (t.hw.core n).tile = [] ∧ (t.hw.core n).side = [] ∧ (t.hw.core n).acc = [] ∧
    (t.hw.core n).latch = [] ∧ (t.hw.core n).ht = [] ∧ (t.hw.core n).l1 = [] ∧ (t.hw.core n).landings = []) ∧
  (∀ n, domDie n / 4 ≠ pk → t.hw.core n = s.hw.core n) ∧
  (∀ c, SMap.has s.hw.clusters c = true → c / 144 = pk → (t.hw.cluster c).slice = []) ∧ ∀ c, c / 144 ≠ pk → t.hw.cluster c = s.hw.cluster c

end Sys2Proof.Claim

/-- R155, R352, R353, R355 to R359, R361, R362, R461, R464: the control ports. Claims elect the owner, a hand-over names its successor, and a lapse
ends it; the owner writes memory (as the model takes it, log 77), the image table and the window; reports are popped; PTIME is set; an attestation is signed; the life cycle moves and
wipes; a reset of the domain, or of one package while the others run on (log 9), leaves what the fuses and the self-test hold. Writes of others, and commands that are not allowed, are refused. -/
def Obligations.DeviceEvents : Prop := ∀ (s : State) (pk node : Nat), let now := s.hw.glob.now
  let p := s.hw.pkg pk
  let same := fun (i : Instr) => ∃ t, exec i s = .next t ∧ Became s t s.hw
  let owns := p.ownv = true ∧ p.owner = node
  let here := pk < s.hw.glob.npkg
  let on := here ∧ p.off = false
  let live := on ∧ p.wipeUntil ≤ now;
  (∀ port valid, let i : Instr := .claim pk port node valid
    let heard := live ∧ (∀ d < 4, (s.hw.die (4 * pk + d)).fwHeld = false) ∧ port ∈ p.up ∧ node < 2 ^ 16
    let follows := p.succv = true ∧ p.succ = node
    let ties := p.claimAt = now + 1 ∧ port ≠ p.oport ∧ node < p.owner;
    (¬heard → same i) ∧
    (heard → valid = false → RingOk s pk → ∃ t, exec i s = .next t ∧ RefusedLater s t pk 0x1A9) ∧
    (heard → valid = true → p.ownv = false → ∃ t, exec i s = .next t ∧ Owns s t pk port node (now + 1) p.replies) ∧
    (heard → valid = true → p.ownv = true → ¬follows → ties → ∃ t, exec i s = .next t ∧
      Owns s t pk port node (now + 1) (answerAgain p.owner node p.replies)) ∧
    (heard → valid = true → p.ownv = true → follows → ∃ t, exec i s = .next t ∧ Owns s t pk port node 0 p.replies) ∧
    (heard → valid = true → p.ownv = true → ¬follows → ¬ties → ∃ t, exec i s = .next t ∧
      PkgBecame s t pk { p with replies := p.replies ++ [(1, p.owner)] })) ∧
  (∀ succ, let i : Instr := .ownershipHandover pk node succ;
    (¬live → same i) ∧ (live → ¬owns → RingOk s pk → ∃ t, exec i s = .next t ∧ Refused s t pk) ∧
    (live → owns → ∃ t, exec i s = .next t ∧ PkgBecame s t pk { p with succ := succ % 2 ^ 16, succv := true })) ∧
  (∀ port, let i : Instr := .portLinkLoss pk port
    let mine := p.ownv = true ∧ p.oport = port;
    (¬(here ∧ port ∈ p.up) → same i) ∧
    (here → port ∈ p.up → RingOk s pk → ∃ t, exec i s = .next t ∧ RingOnly s t (4 * pk) ∧ (∀ j, j ≠ pk → t.hw.pkg j = s.hw.pkg j) ∧
      (¬mine → t.hw.pkg pk = { p with up := p.up.filter (fun q => q != port) } ∧ t.hw.glob = s.hw.glob) ∧
      (mine → t.hw.pkg pk = { p with up := p.up.filter (fun q => q != port), lapseAt := now + 4500000000 } ∧
        (now + 4500000000, .ownerLapse pk) ∈ t.hw.glob.agenda) ∧
      Became s t { s.hw with mem := t.hw.mem, dies := t.hw.dies, pkgs := t.hw.pkgs, glob := t.hw.glob })) ∧
  (∀ port, let i : Instr := .portLinkUp pk port
    let comes := here ∧ port < 2 ∧ port ∉ p.up;
    (¬comes → same i) ∧ (comes → ∃ t, exec i s = .next t ∧
      PkgBecame s t pk { p with up := p.up ++ [port], lapseAt := if p.oport = port then 0 else p.lapseAt })) ∧
  (s.ev = .ownerLapse pk → let due := p.lapseAt ≠ 0 ∧ p.lapseAt ≤ now ∧ p.ownv = true;
    (¬due → same .ownerLapse) ∧
    (due → RingOk s pk → ∃ t, exec .ownerLapse s = .next t ∧ PkgRecorded s t pk { p with ownv := false, succv := false, lapseAt := 0 })) ∧
  (∀ handle (bytes : List (Nat × Byte)) (words : List W64), let i := fun (b : List (Nat × Byte)) (l : List W64) => Instr.imageUpload pk node handle b l
    let lands := fun x => x ∈ bytes.map (fun b => b.1) ∧ hbmOk x = true ∧ x / 2 ^ 46 = pk ∧ x < 2 ^ 52;
    (¬live → same (i bytes words)) ∧
    (live → ¬owns → RingOk s pk → ∃ t, exec (i bytes words) s = .next t ∧ Refused s t pk) ∧
    (live → owns → ∃ t, exec (i bytes []) s = .next t ∧
      (∀ x, ¬lands x → Memory.read t.hw.mem x = Memory.read s.hw.mem x) ∧
      (∀ x, lands x → bytes.reverse.find? (fun b => b.1 == x) = some (x, Memory.read t.hw.mem x)) ∧
      (∀ n, n ∈ t.hw.glob.poison ↔ n ∈ s.hw.glob.poison ∧ ∃ j < 64, ¬lands (64 * n + j)) ∧
      Became s t { s.hw with mem := t.hw.mem, glob := { s.hw.glob with poison := t.hw.glob.poison } } ∧
      exec (i bytes words) s = exec (i [] words) { s with hw := t.hw }) ∧
    (live → 16 ≤ handle → owns → same (i [] words)) ∧
    (live → handle < 16 → words ≠ [] → owns → RingOk s pk → handleRuns s.hw pk handle = true → ∃ t, exec (i [] words) s = .next t ∧
      (0, 0) ∈ (t.hw.pkg pk).replies ∧ PkgRecorded s t pk { p with replies := (t.hw.pkg pk).replies }) ∧
    (live → handle < 16 → words ≠ [] → owns → RingOk s pk → handleRuns s.hw pk handle = false → ∃ t, exec (i [] words) s = .next t ∧
      EntryWritten s t pk handle 0 words)) ∧
  (let i : Instr := .completionReportPop pk
    let r := p.reports.headD (0, 0);
    (¬on → same i) ∧ (on → ∃ t, exec i s = .next t ∧
      PkgBecame s t pk { p with reports := p.reports.drop 1, replies := p.replies ++ [(2, r.1.toNat)] ++ [(4, r.2.toNat)] })) ∧
  (∀ off (v : W64), let i : Instr := .windowRegisterWrite pk node off v
    let may := on ∧ (node = fwNode ∨ owns)
    let sets := fun (q : Pkg) => ∃ t, exec i s = .next t ∧ PkgBecame s t pk q
    let n := v.toNat;
    (¬on → same i) ∧ (on → node ≠ fwNode → ¬owns → RingOk s pk → ∃ t, exec i s = .next t ∧ Refused s t pk) ∧
    (may → off = 513 → sets { p with succ := n % 2 ^ 16, succv := v.getLsbD 16 }) ∧
    (may → 2048 ≤ off → off < 2176 → handleRuns s.hw pk ((off - 2048) / 8) = false → RingOk s pk → ∃ t, exec i s = .next t ∧
      EntryWritten s t pk ((off - 2048) / 8) (off % 8) [v]) ∧
    (may → off = 2176 ∨ off = 2177 → anyModelRuns s.hw pk = true → RingOk s pk → ∃ t, exec i s = .next t ∧ Refused s t pk) ∧
    (may → off = 2176 → anyModelRuns s.hw pk = false → let old := p.poolNew.getD (p.poolBase, p.poolK, p.poolNs)
      sets { p with poolNew := some (n, old.2.1, old.2.2) }) ∧
    (may → off = 2177 → anyModelRuns s.hw pk = false → let old := p.poolNew.getD (p.poolBase, p.poolK, p.poolNs)
      sets { p with poolNew := some (old.1, n % 16, n / 2 ^ 16 % 2 ^ 15) }) ∧
    (may → off = 2178 → sets { p with privBase := n }) ∧
    (may → off = 2179 → let cl := n % 2 ^ 7
      let ch := n / 2 ^ 8 % 2 ^ 7;
      (cl < ch → ch ≤ 64 → sets { p with cl := cl, ch := ch }) ∧ (¬(cl < ch ∧ ch ≤ 64) → same i)) ∧
    (may → 2208 ≤ off → off < 2336 → ∃ t, exec i s = .next t ∧ SMap.get 0 (t.hw.pkg pk).domTab (off - 2208) = v ∧
      (∀ k, k ≠ off - 2208 → SMap.get 0 (t.hw.pkg pk).domTab k = SMap.get 0 p.domTab k) ∧
      PkgBecame s t pk { p with domTab := (t.hw.pkg pk).domTab, linkDown := (t.hw.pkg pk).linkDown }) ∧
    (may → 2432 ≤ off → off < 2496 → ∃ t, exec i s = .next t ∧
      (∀ k, SMap.get 0 (t.hw.pkg pk).policy k = if k / 8 = off - 2432 then n / 2 ^ (8 * (k % 8)) % 8 else SMap.get 0 p.policy k) ∧
      PkgBecame s t pk { p with policy := (t.hw.pkg pk).policy }) ∧
    (may → off < 2048 ∨ (2180 ≤ off ∧ off < 2208) ∨ 2336 ≤ off → off ≠ 513 → ¬(2432 ≤ off ∧ off < 2496) → same i)) ∧
  (∀ ns : W64, let i : Instr := .ptimeSync pk ns
    let linked := live ∧ p.ownv = true ∧ p.oport ∈ p.up;
    let off := p.synced = true ∧ 20 < ((ns.toNat : Int) - s.hw.ptime pk).natAbs
    let q := fun (t : State) => { p with ptimeAdd := (t.hw.pkg pk).ptimeAdd, synced := true };
    (¬linked → same i) ∧ (linked → ¬off → ∃ t, exec i s = .next t ∧ t.hw.ptime pk = ns.toNat ∧ PkgBecame s t pk (q t)) ∧
    (linked → off → RingOk s pk → ∃ t, exec i s = .next t ∧ t.hw.ptime pk = ns.toNat ∧ PkgRecorded s t pk (q t))) ∧
  (∀ nonce, let i : Instr := .attestationRequest pk nonce;
    (¬on → same i) ∧ (on → p.keyBad = true → RingOk s pk → ∃ t, exec i s = .next t ∧ RefusedLater s t pk 0x1AC) ∧
    (on → p.keyBad = false → ∃ t a, exec i s = .next t ∧ PkgBecame s t pk { p with attest := p.attest ++ [a] } ∧
      a.nonce = nonce ∧ a.life = p.life ∧ a.owner = p.owner ∧
      ((∀ d < 4, (s.hw.die (4 * pk + d)).fwHeld = false) → a.firmware = Config.firmware) ∧
      a.record = Config.digest ((List.range 512).map (fun n => (windowRead s.hw pk n).toNat)) ∧
      a.signature = Config.signature pk [nonce.toNat, a.firmware.toNat, a.record.toNat, lifeNo p.life, p.owner])) ∧
  (∀ valid, let i : Instr := .provisioningCommand pk valid
    let goes := p.life = .manufacture ∨ p.life = .returned;
    (¬live → same i) ∧ (live → valid = false → RingOk s pk → ∃ t, exec i s = .next t ∧ RefusedLater s t pk 0x1AA) ∧
    (live → valid = true → p.keyBad = true ∨ ¬goes → RingOk s pk → ∃ t, exec i s = .next t ∧ RefusedLater s t pk 0x1AC) ∧
    (live → valid = true → p.keyBad = false → goes → ∃ t, exec i s = .next t ∧ LifeMoved s t pk .provisioned)) ∧
  (∀ g ∈ [(Instr.deploymentCommand pk node, Life.provisioned, Life.deployed), (.returnCommand pk node, .deployed, .returned)],
    (¬live → same g.1) ∧ (live → ¬owns → RingOk s pk → ∃ t, exec g.1 s = .next t ∧ Refused s t pk) ∧
    (live → owns → p.life ≠ g.2.1 → RingOk s pk → ∃ t, exec g.1 s = .next t ∧ RefusedLater s t pk 0x1AC) ∧
    (live → owns → p.life = g.2.1 → ∃ t, exec g.1 s = .next t ∧ LifeMoved s t pk g.2.2)) ∧
  (∀ q l, s.ev = .reset (some q) l → (s.hw.glob.npkg ≤ q → ∃ t, exec .reset s = .next t ∧ t.hw = s.hw) ∧
    (q < s.hw.glob.npkg → let f := l.headD (confOf s.hw q)
      ∃ t, exec .reset s = .next t ∧ Emptied s t q ∧ t.pre = none ∧ t.cur = {} ∧ t.hw.glob.npkg = s.hw.glob.npkg ∧ t.hw.cycle q = 0 ∧
        t.hw.pkg q = { fresh s q f with cycleBase := now } ∧ ∀ d < 4, (t.hw.die (4 * q + d)).fwHeld = f.held.contains d)) ∧
  (∀ parts : List PartConf, s.ev = .reset none parts ∨ (parts = (List.range s.hw.glob.npkg).map (confOf s.hw) ∧ ∀ o l, s.ev ≠ .reset o l) →
    ∃ t, exec .reset s = .next t ∧
    (∀ x, (∀ q < 64, ∀ i < 2 ^ 16, ringPa (4 * q) 0 + i ≠ x) → Memory.read t.hw.mem x = 0) ∧
    t.hw.seats = [] ∧ t.hw.cores = [] ∧ t.hw.clusters = [] ∧ t.hw.insts = [] ∧ t.hw.accs = [] ∧
    t.hw.glob = { npkg := max 1 (min 64 parts.length), free := s.hw.glob.free } ∧ t.pre = none ∧ t.cur = {} ∧
    ∀ q < t.hw.glob.npkg, let f := parts.getD q {}
      t.hw.pkg q = fresh s q f ∧
      ∀ d < 4, (t.hw.die (4 * q + d)).fwHeld = f.held.contains d ∧ (t.hw.die (4 * q + d)).wheel = [] ∧
        (t.hw.die (4 * q + d)).hot = false ∧ (t.hw.die (4 * q + d)).power = false ∧ (t.hw.die (4 * q + d)).rounds = [])

/-! ### The machine -/

namespace Sys2Proof.Claim

/-- The turn of seat k has come, and it may issue a bundle whose repetition is its first: its core's clock runs, nothing happens to the seat, no
cause is due, and the other seat of its core does not take part in the merge. -/
structure Turns (h : Hw) (k : Nat) : Prop where
  low : k < 2 ^ 18
  runs : coreStill h (coreOf k) = false
  calm : seatEvent h k = none
  alone : if isSeat1 k then h.glob.merged ≠ coreOf k + 1 else mergeRep h (k + 1) = none
  ready : presents h k = true
  clear : chargeDue h k = false
  fresh : (h.seat k).repOn = false

/-- Nothing is in flight or due, and seat k is the next that has its turn. -/
structure Quiescent (s : State) (k : Nat) : Prop where
  none : s.cur.on = false ∨ s.cur.slots = []
  due : ∀ e, s.hw.glob.agenda.head? = some e → s.hw.glob.now < e.1
  power : s.hw.glob.agenda = [] → livePkgs s.hw ≠ []
  turn : s.hw.glob.seatAt ≠ s.hw.glob.now + 1
  first : (seatsLeft s.hw).head? = some k

end Sys2Proof.Claim

/-- R141, R142, R157 to R162, R172: a step runs what the bytes at the pc decode to. A bundle of one slot whose words decode to i, at a seat whose
turn has come and that nothing holds, is run by exec of i, with the bundle's place and length noted in the repetition in flight; a repetition in
flight goes on slot by slot; an event that is due runs. -/
def Obligations.StepRunsDecoded : Prop :=
  (∀ (s : State) (o : SlotOp) (r : List SlotOp), s.cur.on = true → s.cur.slots = o :: r → step s = exec o.instr s) ∧
  (∀ (s : State) (u : Nat) (e : Event) (r : List (Nat × Event)), (s.cur.on = false ∨ s.cur.slots = []) →
    s.hw.glob.agenda = (u, e) :: r → u ≤ s.hw.glob.now →
    step s = exec e.instr { s with hw := { s.hw with glob := { s.hw.glob with agenda := r } }, cur := {}, ev := e }) ∧
  (∀ (s : State) (k : Nat) (o : SlotOp) (r : Rep) (a : Act) (l : List SlotOp), Quiescent s k → seatTurn s.hw k = .issue r a → r.slots = o :: l →
    step s = exec o.instr (startRep { s with hw := s.hw.run a } k r)) ∧
  (∀ (s : State) (k : Nat) (sl : Slot) (hd : Header) (wh w : Nat) (e : Option Nat) (i : Instr), let h := s.hw
    let x := h.seat k
    let core := coreOf k
    let pc := x.pc.toNat
    let len := if e.isSome then 12 else 8
    let o : SlotOp := { slot := sl, instr := i, word := w, ext := e }
    let acq := acqOf h k len [o]
    let word := fun (a : Nat) => bundleWord h core x.img x.inst pc (a % 2 ^ 56);
    Quiescent s k → Turns h k → pc < 2 ^ 56 → word pc = .ok wh → decodeHeader wh = .ok hd → hd.present = [sl] → hd.rr = false → hd.rpt = 0 →
    hd.sclr = false → (∀ q ∈ stickySlots, q ≠ sl → (x.srec (engOf q)).idle = true) →
    word (pc + 4) = .ok w → bitAt 24 w = e.isSome → (∀ v, e = some v → word (pc + 8) = .ok v) → decodeSlot sl w e = .ok i →
    opHold (opCtx h k len acq o) i {} = none →
    ∃ t, step s = exec i t ∧ t.cur = { seat := k, slots := [o], on := true, pc := pc, len := len, stall := hd.stall.toNat, acq := acq } ∧
      t.pre = some t.hw ∧ t.ev = s.ev ∧
      t.hw = { h with seats := t.hw.seats, cores := t.hw.cores, glob := { h.glob with seatKey := k + 1 } } ∧
      t.hw.seat k = { x with wait := .none, repOn := true, repJ := 0, repN := 1 } ∧ (∀ j, j ≠ k → t.hw.seat j = h.seat j) ∧
      ∀ c, c ≠ core → t.hw.core c = h.core c)

/-- R172 to R183: words of each slot class, written out bit by bit from the formats, decode to the instructions they stand for; a reserved hole, a
reserved bit and a format code that its field forbids do not decode. -/
def Obligations.DecodeWords : Prop :=
  decodeSlot .s 0b0000001_0_00011_00100_00101_00000000_1 none = .ok (.add ⟨3, 4, 5, true⟩) ∧
  decodeSlot .s 0b0100000_1_00001_00010_00000000000000 (some 0xFFFFFFFE) = .ok (.addi ⟨1, 2, .long 0xFFFFFFFE⟩) ∧
  decodeSlot .s 0b1000000_0_00111_01000_011_1_1111111000 none = .ok (.ld ⟨7, 8, 3, true, .short 0b1111111000⟩) ∧
  decodeSlot .v1 0b0010011_1_0000001_1000001_1100010_101 (some 0b00_11_0_000_1_0_0_000011100001000000001) =
    .ok (.vfma ⟨1, 65, 98, 5, some ⟨0, 3, false, 0, true, false, 0b000011100001000000001⟩⟩) ∧
  decodeSlot .m 0b0000001_1_010_00010001_11_0101_1_0_100_00 (some 0b0000000000000000_00000010_0011_0001) =
    .ok (.mma ⟨2, 17, 3, 5, true, false, 4, some ⟨2, 3, 1⟩⟩) ∧
  decodeSlot .c0 0b0000001_0_00010010_00101_00110_000111 none = .ok (.tld ⟨18, 5, 6, 7, none⟩) ∧
  decodeSlot .c1 0b0010100_0_00000011_10_0001_00100_0_0000 none = .ok (.nsend ⟨3, 2, 1, 4, false, none⟩) ∧
  (∀ w e, w / 2 ^ 25 % 128 ∈ [0x1D, 0x1E, 0x1F, 0x2B, 0x2F, 0x3B, 0x3F, 0x42, 0x43, 0x4F, 0x56, 0x57, 0x65, 0x6F, 0x77, 0x7F] →
    decodeSlot .s w e = .error ⟨0, false⟩) ∧
  decodeSlot .s 0b0000001_0_00011_00100_00101_00000001_1 none = .error ⟨1, false⟩ ∧
  decodeSlot .m 0b0001000_0_01_00010001_0101_1001_000000 none = .error ⟨2, false⟩

/-- The slots of a class of forms (R180 to R183). -/
def Claim.classSlots : Nat → List Slot
  | 0 => [.s]
  | 1 => [.v0, .v1]
  | 2 => [.m]
  | _ => [.c0, .c1]

/-- R157, R158, R172 to R183: the encodings are whole. Every well-formed instruction that has an encoding is read back from it, in the slots of its
class; a word that decodes is the encoding of what it decodes to; a header is read back from its word. -/
def Obligations.RoundTrip : Prop :=
  (∀ (i : Instr) (w : Nat) (e : Option Nat) (sl : Slot), WellFormed i = true → encode i = some (w, e) →
    sl ∈ Claim.classSlots (slotClass i) →
    decodeSlot sl w e = .ok i ∧ w < 2 ^ 32 ∧ (∀ v, e = some v → v < 2 ^ 32) ∧ bitAt 24 w = e.isSome) ∧
  (∀ (i : Instr) (w : Nat) (e : Option Nat) (sl : Slot), w < 2 ^ 32 → (∀ v, e = some v → v < 2 ^ 32) → bitAt 24 w = e.isSome →
    decodeSlot sl w e = .ok i → encode i = some (w, e) ∧ WellFormed i = true) ∧
  (∀ h : Header, decodeHeader (encodeHeader h) = .ok h ∧ encodeHeader h < 2 ^ 32) ∧
  ∀ (w : Nat) (h : Header), w < 2 ^ 32 → decodeHeader w = .ok h → encodeHeader h = w

/-- R361 with the model's canonical form of memory: whatever a step does, memory keeps its canonical form, in which equal memories are equal data. -/
def Obligations.MemInvariant : Prop := ∀ s t : State, s.MemOk → step s = .next t → t.MemOk

/-- R352, R355 to R359, R361: after reset CYCLE and PTIME start at 0, every memory reads zero, no seat is placed, the ownership block is zero, no
report waits and no image is valid. -/
def Obligations.ResetState : Prop :=
  let s := State.reset;
  s.MemOk ∧ s.hw.cycle 0 = 0 ∧ s.hw.ptime 0 = 0 ∧ (∀ x, Memory.read s.hw.mem x = 0) ∧ (∀ k, (s.hw.seat k).st = .free) ∧
  (∀ c, (s.hw.core c).tile = [] ∧ (s.hw.core c).side = [] ∧ (s.hw.core c).acc = [] ∧ (s.hw.core c).latch = [] ∧ (s.hw.core c).ht = [] ∧
    (s.hw.core c).landings = [] ∧ (s.hw.core c).l1 = []) ∧ (∀ c, (s.hw.cluster c).slice = []) ∧
  (s.hw.pkg 0).ownv = false ∧ (s.hw.pkg 0).owner = 0 ∧ (s.hw.pkg 0).oport = 0 ∧ (s.hw.pkg 0).succv = false ∧ (s.hw.pkg 0).succ = 0 ∧
  (s.hw.pkg 0).up = [] ∧ (s.hw.pkg 0).reports = [] ∧ ∀ n, (SMap.get {} (s.hw.pkg 0).images n).valid = false
end

