-- ==== Sys2Proof/Laws/Map.lean ====
section
/-! SUPPORT. What the sparse maps do: reading after a write, and the canonical form that every operation keeps. -/

namespace Sys2Proof.Machine

variable {α : Type}

theorem SMap.get_insert_self (d : α) (m : SMap α) (n : Nat) (v : α) : SMap.get d (SMap.insert m n v) n = v := by
  induction m with
  | nil => simp [SMap.insert, SMap.get]
  | cons e r ih =>
    obtain ⟨k, w⟩ := e
    unfold SMap.insert
    split
    · simp [SMap.get]
    · split
      · simp [SMap.get]
      · have : k ≠ n := by omega
        simp [SMap.get, this, ih]

theorem SMap.get_insert_ne (d : α) (m : SMap α) {n a : Nat} (v : α) (h : a ≠ n) :
    SMap.get d (SMap.insert m n v) a = SMap.get d m a := by
  induction m with
  | nil => simp [SMap.insert, SMap.get, Ne.symm h]
  | cons e r ih =>
    obtain ⟨k, w⟩ := e
    unfold SMap.insert
    split
    · simp [SMap.get, Ne.symm h]
    · split
      · subst k; simp [SMap.get, Ne.symm h]
      · simp [SMap.get, ih]

theorem SMap.get_erase_self (d : α) (m : SMap α) (n : Nat) : SMap.get d (SMap.erase m n) n = d := by
  induction m with
  | nil => rfl
  | cons e r ih =>
    obtain ⟨k, w⟩ := e
    unfold SMap.erase
    split
    · exact ih
    · rename_i h; simp [SMap.get, h, ih]

theorem SMap.get_erase_ne (d : α) (m : SMap α) {n a : Nat} (h : a ≠ n) : SMap.get d (SMap.erase m n) a = SMap.get d m a := by
  induction m with
  | nil => rfl
  | cons e r ih =>
    obtain ⟨k, w⟩ := e
    unfold SMap.erase
    split
    · subst k; simp [SMap.get, Ne.symm h, ih]
    · simp [SMap.get, ih]

theorem SMap.get_set_self [DecidableEq α] (d : α) (m : SMap α) (n : Nat) (v : α) : SMap.get d (SMap.set d m n v) n = v := by
  unfold SMap.set
  split
  · rename_i h; rw [h]; exact SMap.get_erase_self d m n
  · exact SMap.get_insert_self d m n v

theorem SMap.get_set_ne [DecidableEq α] (d : α) (m : SMap α) {n a : Nat} (v : α) (h : a ≠ n) :
    SMap.get d (SMap.set d m n v) a = SMap.get d m a := by
  unfold SMap.set
  split
  · exact SMap.get_erase_ne d m h
  · exact SMap.get_insert_ne d m v h

theorem SMap.find_insert_self (m : SMap α) (n : Nat) (v : α) : SMap.find (SMap.insert m n v) n = some v := by
  induction m with
  | nil => simp [SMap.insert, SMap.find]
  | cons e r ih =>
    obtain ⟨k, w⟩ := e
    unfold SMap.insert
    split
    · simp [SMap.find]
    · split
      · simp [SMap.find]
      · have : k ≠ n := by omega
        simp [SMap.find, this, ih]

theorem SMap.find_insert_ne (m : SMap α) {n a : Nat} (v : α) (h : a ≠ n) : SMap.find (SMap.insert m n v) a = SMap.find m a := by
  induction m with
  | nil => simp [SMap.insert, SMap.find, Ne.symm h]
  | cons e r ih =>
    obtain ⟨k, w⟩ := e
    unfold SMap.insert
    split
    · simp [SMap.find, Ne.symm h]
    · split
      · subst k; simp [SMap.find, Ne.symm h]
      · simp [SMap.find, ih]

theorem SMap.find_erase_self (m : SMap α) (n : Nat) : SMap.find (SMap.erase m n) n = none := by
  induction m with
  | nil => rfl
  | cons e r ih =>
    obtain ⟨k, w⟩ := e
    unfold SMap.erase
    split
    · exact ih
    · rename_i h; simp [SMap.find, h, ih]

theorem SMap.find_erase_ne (m : SMap α) {n a : Nat} (h : a ≠ n) : SMap.find (SMap.erase m n) a = SMap.find m a := by
  induction m with
  | nil => rfl
  | cons e r ih =>
    obtain ⟨k, w⟩ := e
    unfold SMap.erase
    split
    · subst k; simp [SMap.find, Ne.symm h, ih]
    · simp [SMap.find, ih]

/-- A listed key is one that is found. -/
theorem SMap.has_eq_find (m : SMap α) (n : Nat) : SMap.has m n = (SMap.find m n).isSome := by
  induction m with
  | nil => rfl
  | cons e r ih => obtain ⟨k, w⟩ := e; unfold SMap.has SMap.find; split <;> simp [ih]

/-- Reading with a default is finding, or the default. -/
theorem SMap.get_eq_find (d : α) (m : SMap α) (n : Nat) : SMap.get d m n = (SMap.find m n).getD d := by
  induction m with
  | nil => rfl
  | cons e r ih => obtain ⟨k, w⟩ := e; unfold SMap.get SMap.find; split <;> simp [ih]

/-! ### The canonical form -/

variable [DecidableEq α]

/-- A lower bound of the keys. -/
def aboveLo (lo : Option Nat) (n : Nat) : Bool := match lo with | none => true | some b => decide (b < n)

theorem SMap.okFrom_cons (d : α) (lo : Option Nat) (k : Nat) (v : α) (r : SMap α) :
    SMap.okFrom d lo ((k, v) :: r) = (aboveLo lo k && decide (v ≠ d) && SMap.okFrom d (some k) r) := rfl

/-- A weaker bound still bounds. -/
theorem SMap.okFrom_weaken (d : α) {lo lo' : Option Nat} {m : SMap α} (hlo : ∀ n, aboveLo lo n = true → aboveLo lo' n = true)
    (h : SMap.okFrom d lo m = true) : SMap.okFrom d lo' m = true := by
  cases m with
  | nil => rfl
  | cons e r =>
    obtain ⟨k, v⟩ := e
    rw [SMap.okFrom_cons, Bool.and_eq_true, Bool.and_eq_true] at h ⊢
    exact ⟨⟨hlo _ h.1.1, h.1.2⟩, h.2⟩

theorem SMap.okFrom_erase (d : α) (m : SMap α) (n : Nat) : ∀ lo, SMap.okFrom d lo m = true → SMap.okFrom d lo (SMap.erase m n) = true := by
  induction m with
  | nil => intro lo h; exact h
  | cons e r ih =>
    obtain ⟨k, v⟩ := e
    intro lo h
    rw [SMap.okFrom_cons, Bool.and_eq_true, Bool.and_eq_true] at h
    unfold SMap.erase
    split
    · refine ih lo (SMap.okFrom_weaken d ?_ h.2)
      intro a ha
      have h1 := h.1.1
      cases lo with
      | none => rfl
      | some b => simp only [aboveLo, decide_eq_true_eq] at *; omega
    · rw [SMap.okFrom_cons, Bool.and_eq_true, Bool.and_eq_true]
      exact ⟨h.1, ih _ h.2⟩

theorem SMap.okFrom_insert (d : α) (m : SMap α) (n : Nat) (v : α) (hv : v ≠ d) :
    ∀ lo, aboveLo lo n = true → SMap.okFrom d lo m = true → SMap.okFrom d lo (SMap.insert m n v) = true := by
  induction m with
  | nil => intro lo hlo _; simp [SMap.insert, SMap.okFrom_cons, hlo, hv, SMap.okFrom]
  | cons e r ih =>
    obtain ⟨k, w⟩ := e
    intro lo hlo h
    rw [SMap.okFrom_cons, Bool.and_eq_true, Bool.and_eq_true] at h
    unfold SMap.insert
    split
    · rename_i hk
      rw [SMap.okFrom_cons, SMap.okFrom_cons, hlo, h.2, h.1.2]
      simp [hv, aboveLo, hk]
    · split
      · rename_i hk
        subst hk
        simp [SMap.okFrom_cons, hlo, hv, h.2]
      · simp only [SMap.okFrom_cons, Bool.and_eq_true]
        refine ⟨h.1, ih _ ?_ h.2⟩
        simp only [aboveLo, decide_eq_true_eq]; omega

theorem SMap.okFrom_keep (d : α) (m : SMap α) (p : Nat → Bool) : ∀ lo, SMap.okFrom d lo m = true → SMap.okFrom d lo (SMap.keep m p) = true := by
  induction m with
  | nil => intro lo h; exact h
  | cons e r ih =>
    obtain ⟨k, v⟩ := e
    intro lo h
    rw [SMap.okFrom_cons, Bool.and_eq_true, Bool.and_eq_true] at h
    unfold SMap.keep at ih ⊢
    rw [List.filter_cons]
    split
    · rw [SMap.okFrom_cons, Bool.and_eq_true, Bool.and_eq_true]
      exact ⟨h.1, ih _ h.2⟩
    · refine ih lo (SMap.okFrom_weaken d ?_ h.2)
      intro a ha
      have h1 := h.1.1
      cases lo with
      | none => rfl
      | some b => simp only [aboveLo, decide_eq_true_eq] at *; omega

/-- Writing a key keeps the canonical form. -/
theorem SMap.wf_set (d : α) (m : SMap α) (n : Nat) (v : α) (h : SMap.wf d m = true) : SMap.wf d (SMap.set d m n v) = true := by
  unfold SMap.set
  split
  · exact SMap.okFrom_erase d m n none h
  · exact SMap.okFrom_insert d m n v ‹_› none rfl h

/-- Dropping keys keeps it. -/
theorem SMap.wf_keep (d : α) (m : SMap α) (p : Nat → Bool) (h : SMap.wf d m = true) : SMap.wf d (SMap.keep m p) = true :=
  SMap.okFrom_keep d m p none h

end Sys2Proof.Machine
end

