-- ==== Sys2Proof/Laws/State.lean ====
section
/-! SUPPORT. What each update of the state leaves in each field. -/

namespace Sys2Proof.Machine

/-! ### One effect on the hardware -/

@[simp] theorem Hw.apply_seat_mem (h : Hw) (k : Nat) (v : Seat) : (h.apply (.seat k v)).mem = h.mem := rfl
@[simp] theorem Hw.apply_seat_seats (h : Hw) (k : Nat) (v : Seat) : (h.apply (.seat k v)).seats = SMap.insert h.seats k v := rfl
@[simp] theorem Hw.apply_seat_cores (h : Hw) (k : Nat) (v : Seat) : (h.apply (.seat k v)).cores = h.cores := rfl
@[simp] theorem Hw.apply_seat_clusters (h : Hw) (k : Nat) (v : Seat) : (h.apply (.seat k v)).clusters = h.clusters := rfl
@[simp] theorem Hw.apply_seat_dies (h : Hw) (k : Nat) (v : Seat) : (h.apply (.seat k v)).dies = h.dies := rfl
@[simp] theorem Hw.apply_seat_pkgs (h : Hw) (k : Nat) (v : Seat) : (h.apply (.seat k v)).pkgs = h.pkgs := rfl
@[simp] theorem Hw.apply_seat_insts (h : Hw) (k : Nat) (v : Seat) : (h.apply (.seat k v)).insts = h.insts := rfl
@[simp] theorem Hw.apply_seat_accs (h : Hw) (k : Nat) (v : Seat) : (h.apply (.seat k v)).accs = h.accs := rfl
@[simp] theorem Hw.apply_seat_glob (h : Hw) (k : Nat) (v : Seat) : (h.apply (.seat k v)).glob = h.glob := rfl

@[simp] theorem Hw.apply_seatDel_mem (h : Hw) (k : Nat) : (h.apply (.seatDel k)).mem = h.mem := rfl
@[simp] theorem Hw.apply_seatDel_seats (h : Hw) (k : Nat) : (h.apply (.seatDel k)).seats = SMap.erase h.seats k := rfl
@[simp] theorem Hw.apply_seatDel_cores (h : Hw) (k : Nat) : (h.apply (.seatDel k)).cores = h.cores := rfl
@[simp] theorem Hw.apply_seatDel_clusters (h : Hw) (k : Nat) : (h.apply (.seatDel k)).clusters = h.clusters := rfl
@[simp] theorem Hw.apply_seatDel_dies (h : Hw) (k : Nat) : (h.apply (.seatDel k)).dies = h.dies := rfl
@[simp] theorem Hw.apply_seatDel_pkgs (h : Hw) (k : Nat) : (h.apply (.seatDel k)).pkgs = h.pkgs := rfl
@[simp] theorem Hw.apply_seatDel_insts (h : Hw) (k : Nat) : (h.apply (.seatDel k)).insts = h.insts := rfl
@[simp] theorem Hw.apply_seatDel_accs (h : Hw) (k : Nat) : (h.apply (.seatDel k)).accs = h.accs := rfl
@[simp] theorem Hw.apply_seatDel_glob (h : Hw) (k : Nat) : (h.apply (.seatDel k)).glob = h.glob := rfl

@[simp] theorem Hw.apply_core_mem (h : Hw) (k : Nat) (v : Core) : (h.apply (.core k v)).mem = h.mem := rfl
@[simp] theorem Hw.apply_core_seats (h : Hw) (k : Nat) (v : Core) : (h.apply (.core k v)).seats = h.seats := rfl
@[simp] theorem Hw.apply_core_cores (h : Hw) (k : Nat) (v : Core) : (h.apply (.core k v)).cores = SMap.insert h.cores k v := rfl
@[simp] theorem Hw.apply_core_clusters (h : Hw) (k : Nat) (v : Core) : (h.apply (.core k v)).clusters = h.clusters := rfl
@[simp] theorem Hw.apply_core_dies (h : Hw) (k : Nat) (v : Core) : (h.apply (.core k v)).dies = h.dies := rfl
@[simp] theorem Hw.apply_core_pkgs (h : Hw) (k : Nat) (v : Core) : (h.apply (.core k v)).pkgs = h.pkgs := rfl
@[simp] theorem Hw.apply_core_insts (h : Hw) (k : Nat) (v : Core) : (h.apply (.core k v)).insts = h.insts := rfl
@[simp] theorem Hw.apply_core_accs (h : Hw) (k : Nat) (v : Core) : (h.apply (.core k v)).accs = h.accs := rfl
@[simp] theorem Hw.apply_core_glob (h : Hw) (k : Nat) (v : Core) : (h.apply (.core k v)).glob = h.glob := rfl

@[simp] theorem Hw.apply_cluster_mem (h : Hw) (k : Nat) (v : Cluster) : (h.apply (.cluster k v)).mem = h.mem := rfl
@[simp] theorem Hw.apply_cluster_seats (h : Hw) (k : Nat) (v : Cluster) : (h.apply (.cluster k v)).seats = h.seats := rfl
@[simp] theorem Hw.apply_cluster_cores (h : Hw) (k : Nat) (v : Cluster) : (h.apply (.cluster k v)).cores = h.cores := rfl
@[simp] theorem Hw.apply_cluster_clusters (h : Hw) (k : Nat) (v : Cluster) : (h.apply (.cluster k v)).clusters = SMap.insert h.clusters k v := rfl
@[simp] theorem Hw.apply_cluster_dies (h : Hw) (k : Nat) (v : Cluster) : (h.apply (.cluster k v)).dies = h.dies := rfl
@[simp] theorem Hw.apply_cluster_pkgs (h : Hw) (k : Nat) (v : Cluster) : (h.apply (.cluster k v)).pkgs = h.pkgs := rfl
@[simp] theorem Hw.apply_cluster_insts (h : Hw) (k : Nat) (v : Cluster) : (h.apply (.cluster k v)).insts = h.insts := rfl
@[simp] theorem Hw.apply_cluster_accs (h : Hw) (k : Nat) (v : Cluster) : (h.apply (.cluster k v)).accs = h.accs := rfl
@[simp] theorem Hw.apply_cluster_glob (h : Hw) (k : Nat) (v : Cluster) : (h.apply (.cluster k v)).glob = h.glob := rfl

@[simp] theorem Hw.apply_die_mem (h : Hw) (k : Nat) (v : Die) : (h.apply (.die k v)).mem = h.mem := rfl
@[simp] theorem Hw.apply_die_seats (h : Hw) (k : Nat) (v : Die) : (h.apply (.die k v)).seats = h.seats := rfl
@[simp] theorem Hw.apply_die_cores (h : Hw) (k : Nat) (v : Die) : (h.apply (.die k v)).cores = h.cores := rfl
@[simp] theorem Hw.apply_die_clusters (h : Hw) (k : Nat) (v : Die) : (h.apply (.die k v)).clusters = h.clusters := rfl
@[simp] theorem Hw.apply_die_dies (h : Hw) (k : Nat) (v : Die) : (h.apply (.die k v)).dies = SMap.insert h.dies k v := rfl
@[simp] theorem Hw.apply_die_pkgs (h : Hw) (k : Nat) (v : Die) : (h.apply (.die k v)).pkgs = h.pkgs := rfl
@[simp] theorem Hw.apply_die_insts (h : Hw) (k : Nat) (v : Die) : (h.apply (.die k v)).insts = h.insts := rfl
@[simp] theorem Hw.apply_die_accs (h : Hw) (k : Nat) (v : Die) : (h.apply (.die k v)).accs = h.accs := rfl
@[simp] theorem Hw.apply_die_glob (h : Hw) (k : Nat) (v : Die) : (h.apply (.die k v)).glob = h.glob := rfl

@[simp] theorem Hw.apply_pkg_mem (h : Hw) (k : Nat) (v : Pkg) : (h.apply (.pkg k v)).mem = h.mem := rfl
@[simp] theorem Hw.apply_pkg_seats (h : Hw) (k : Nat) (v : Pkg) : (h.apply (.pkg k v)).seats = h.seats := rfl
@[simp] theorem Hw.apply_pkg_cores (h : Hw) (k : Nat) (v : Pkg) : (h.apply (.pkg k v)).cores = h.cores := rfl
@[simp] theorem Hw.apply_pkg_clusters (h : Hw) (k : Nat) (v : Pkg) : (h.apply (.pkg k v)).clusters = h.clusters := rfl
@[simp] theorem Hw.apply_pkg_dies (h : Hw) (k : Nat) (v : Pkg) : (h.apply (.pkg k v)).dies = h.dies := rfl
@[simp] theorem Hw.apply_pkg_pkgs (h : Hw) (k : Nat) (v : Pkg) : (h.apply (.pkg k v)).pkgs = SMap.insert h.pkgs k v := rfl
@[simp] theorem Hw.apply_pkg_insts (h : Hw) (k : Nat) (v : Pkg) : (h.apply (.pkg k v)).insts = h.insts := rfl
@[simp] theorem Hw.apply_pkg_accs (h : Hw) (k : Nat) (v : Pkg) : (h.apply (.pkg k v)).accs = h.accs := rfl
@[simp] theorem Hw.apply_pkg_glob (h : Hw) (k : Nat) (v : Pkg) : (h.apply (.pkg k v)).glob = h.glob := rfl

@[simp] theorem Hw.apply_inst_mem (h : Hw) (k : Nat) (v : Inst) : (h.apply (.inst k v)).mem = h.mem := rfl
@[simp] theorem Hw.apply_inst_seats (h : Hw) (k : Nat) (v : Inst) : (h.apply (.inst k v)).seats = h.seats := rfl
@[simp] theorem Hw.apply_inst_cores (h : Hw) (k : Nat) (v : Inst) : (h.apply (.inst k v)).cores = h.cores := rfl
@[simp] theorem Hw.apply_inst_clusters (h : Hw) (k : Nat) (v : Inst) : (h.apply (.inst k v)).clusters = h.clusters := rfl
@[simp] theorem Hw.apply_inst_dies (h : Hw) (k : Nat) (v : Inst) : (h.apply (.inst k v)).dies = h.dies := rfl
@[simp] theorem Hw.apply_inst_pkgs (h : Hw) (k : Nat) (v : Inst) : (h.apply (.inst k v)).pkgs = h.pkgs := rfl
@[simp] theorem Hw.apply_inst_insts (h : Hw) (k : Nat) (v : Inst) : (h.apply (.inst k v)).insts = SMap.insert h.insts k v := rfl
@[simp] theorem Hw.apply_inst_accs (h : Hw) (k : Nat) (v : Inst) : (h.apply (.inst k v)).accs = h.accs := rfl
@[simp] theorem Hw.apply_inst_glob (h : Hw) (k : Nat) (v : Inst) : (h.apply (.inst k v)).glob = h.glob := rfl

@[simp] theorem Hw.apply_acc_mem (h : Hw) (k : Nat) (v : Access) : (h.apply (.acc k v)).mem = h.mem := rfl
@[simp] theorem Hw.apply_acc_seats (h : Hw) (k : Nat) (v : Access) : (h.apply (.acc k v)).seats = h.seats := rfl
@[simp] theorem Hw.apply_acc_cores (h : Hw) (k : Nat) (v : Access) : (h.apply (.acc k v)).cores = h.cores := rfl
@[simp] theorem Hw.apply_acc_clusters (h : Hw) (k : Nat) (v : Access) : (h.apply (.acc k v)).clusters = h.clusters := rfl
@[simp] theorem Hw.apply_acc_dies (h : Hw) (k : Nat) (v : Access) : (h.apply (.acc k v)).dies = h.dies := rfl
@[simp] theorem Hw.apply_acc_pkgs (h : Hw) (k : Nat) (v : Access) : (h.apply (.acc k v)).pkgs = h.pkgs := rfl
@[simp] theorem Hw.apply_acc_insts (h : Hw) (k : Nat) (v : Access) : (h.apply (.acc k v)).insts = h.insts := rfl
@[simp] theorem Hw.apply_acc_accs (h : Hw) (k : Nat) (v : Access) : (h.apply (.acc k v)).accs = SMap.insert h.accs k v := rfl
@[simp] theorem Hw.apply_acc_glob (h : Hw) (k : Nat) (v : Access) : (h.apply (.acc k v)).glob = h.glob := rfl

@[simp] theorem Hw.apply_accDel_mem (h : Hw) (k : Nat) : (h.apply (.accDel k)).mem = h.mem := rfl
@[simp] theorem Hw.apply_accDel_seats (h : Hw) (k : Nat) : (h.apply (.accDel k)).seats = h.seats := rfl
@[simp] theorem Hw.apply_accDel_cores (h : Hw) (k : Nat) : (h.apply (.accDel k)).cores = h.cores := rfl
@[simp] theorem Hw.apply_accDel_clusters (h : Hw) (k : Nat) : (h.apply (.accDel k)).clusters = h.clusters := rfl
@[simp] theorem Hw.apply_accDel_dies (h : Hw) (k : Nat) : (h.apply (.accDel k)).dies = h.dies := rfl
@[simp] theorem Hw.apply_accDel_pkgs (h : Hw) (k : Nat) : (h.apply (.accDel k)).pkgs = h.pkgs := rfl
@[simp] theorem Hw.apply_accDel_insts (h : Hw) (k : Nat) : (h.apply (.accDel k)).insts = h.insts := rfl
@[simp] theorem Hw.apply_accDel_accs (h : Hw) (k : Nat) : (h.apply (.accDel k)).accs = SMap.erase h.accs k := rfl
@[simp] theorem Hw.apply_accDel_glob (h : Hw) (k : Nat) : (h.apply (.accDel k)).glob = h.glob := rfl

@[simp] theorem Hw.apply_mem_mem (h : Hw) (l : List (Nat × Byte)) : (h.apply (.mem l)).mem = Memory.write h.mem l := rfl
@[simp] theorem Hw.apply_mem_seats (h : Hw) (l : List (Nat × Byte)) : (h.apply (.mem l)).seats = h.seats := rfl
@[simp] theorem Hw.apply_mem_cores (h : Hw) (l : List (Nat × Byte)) : (h.apply (.mem l)).cores = h.cores := rfl
@[simp] theorem Hw.apply_mem_clusters (h : Hw) (l : List (Nat × Byte)) : (h.apply (.mem l)).clusters = h.clusters := rfl
@[simp] theorem Hw.apply_mem_dies (h : Hw) (l : List (Nat × Byte)) : (h.apply (.mem l)).dies = h.dies := rfl
@[simp] theorem Hw.apply_mem_pkgs (h : Hw) (l : List (Nat × Byte)) : (h.apply (.mem l)).pkgs = h.pkgs := rfl
@[simp] theorem Hw.apply_mem_insts (h : Hw) (l : List (Nat × Byte)) : (h.apply (.mem l)).insts = h.insts := rfl
@[simp] theorem Hw.apply_mem_accs (h : Hw) (l : List (Nat × Byte)) : (h.apply (.mem l)).accs = h.accs := rfl
@[simp] theorem Hw.apply_mem_glob (h : Hw) (l : List (Nat × Byte)) : (h.apply (.mem l)).glob = h.glob := rfl

@[simp] theorem Hw.apply_memDrop_mem (h : Hw) (lo hi : Nat) : (h.apply (.memDrop lo hi)).mem = Memory.drop h.mem lo hi := rfl
@[simp] theorem Hw.apply_memDrop_seats (h : Hw) (lo hi : Nat) : (h.apply (.memDrop lo hi)).seats = h.seats := rfl
@[simp] theorem Hw.apply_memDrop_cores (h : Hw) (lo hi : Nat) : (h.apply (.memDrop lo hi)).cores = h.cores := rfl
@[simp] theorem Hw.apply_memDrop_clusters (h : Hw) (lo hi : Nat) : (h.apply (.memDrop lo hi)).clusters = h.clusters := rfl
@[simp] theorem Hw.apply_memDrop_dies (h : Hw) (lo hi : Nat) : (h.apply (.memDrop lo hi)).dies = h.dies := rfl
@[simp] theorem Hw.apply_memDrop_pkgs (h : Hw) (lo hi : Nat) : (h.apply (.memDrop lo hi)).pkgs = h.pkgs := rfl
@[simp] theorem Hw.apply_memDrop_insts (h : Hw) (lo hi : Nat) : (h.apply (.memDrop lo hi)).insts = h.insts := rfl
@[simp] theorem Hw.apply_memDrop_accs (h : Hw) (lo hi : Nat) : (h.apply (.memDrop lo hi)).accs = h.accs := rfl
@[simp] theorem Hw.apply_memDrop_glob (h : Hw) (lo hi : Nat) : (h.apply (.memDrop lo hi)).glob = h.glob := rfl

@[simp] theorem Hw.apply_glob_mem (h : Hw) (v : Glob) : (h.apply (.glob v)).mem = h.mem := rfl
@[simp] theorem Hw.apply_glob_seats (h : Hw) (v : Glob) : (h.apply (.glob v)).seats = h.seats := rfl
@[simp] theorem Hw.apply_glob_cores (h : Hw) (v : Glob) : (h.apply (.glob v)).cores = h.cores := rfl
@[simp] theorem Hw.apply_glob_clusters (h : Hw) (v : Glob) : (h.apply (.glob v)).clusters = h.clusters := rfl
@[simp] theorem Hw.apply_glob_dies (h : Hw) (v : Glob) : (h.apply (.glob v)).dies = h.dies := rfl
@[simp] theorem Hw.apply_glob_pkgs (h : Hw) (v : Glob) : (h.apply (.glob v)).pkgs = h.pkgs := rfl
@[simp] theorem Hw.apply_glob_insts (h : Hw) (v : Glob) : (h.apply (.glob v)).insts = h.insts := rfl
@[simp] theorem Hw.apply_glob_accs (h : Hw) (v : Glob) : (h.apply (.glob v)).accs = h.accs := rfl
@[simp] theorem Hw.apply_glob_glob (h : Hw) (v : Glob) : (h.apply (.glob v)).glob = v := rfl

/-! ### Results on their way -/

@[simp] theorem Seat.addPend_st (s : Seat) (p : Pend) : (s.addPend p).st = s.st := rfl
@[simp] theorem Seat.addPend_inst (s : Seat) (p : Pend) : (s.addPend p).inst = s.inst := rfl
@[simp] theorem Seat.addPend_node (s : Seat) (p : Pend) : (s.addPend p).node = s.node := rfl
@[simp] theorem Seat.addPend_rank (s : Seat) (p : Pend) : (s.addPend p).rank = s.rank := rfl
@[simp] theorem Seat.addPend_ordI (s : Seat) (p : Pend) : (s.addPend p).ordI = s.ordI := rfl
@[simp] theorem Seat.addPend_ordJ (s : Seat) (p : Pend) : (s.addPend p).ordJ = s.ordJ := rfl
@[simp] theorem Seat.addPend_ordK (s : Seat) (p : Pend) : (s.addPend p).ordK = s.ordK := rfl
@[simp] theorem Seat.addPend_tag (s : Seat) (p : Pend) : (s.addPend p).tag = s.tag := rfl
@[simp] theorem Seat.addPend_img (s : Seat) (p : Pend) : (s.addPend p).img = s.img := rfl
@[simp] theorem Seat.addPend_lrec (s : Seat) (p : Pend) : (s.addPend p).lrec = s.lrec := rfl
@[simp] theorem Seat.addPend_phase (s : Seat) (p : Pend) : (s.addPend p).phase = s.phase := rfl
@[simp] theorem Seat.addPend_iter (s : Seat) (p : Pend) : (s.addPend p).iter = s.iter := rfl
@[simp] theorem Seat.addPend_boundAt (s : Seat) (p : Pend) : (s.addPend p).boundAt = s.boundAt := rfl
@[simp] theorem Seat.addPend_boundLeft (s : Seat) (p : Pend) : (s.addPend p).boundLeft = s.boundLeft := rfl
@[simp] theorem Seat.addPend_win (s : Seat) (p : Pend) : (s.addPend p).win = s.win := rfl
@[simp] theorem Seat.addPend_parBase (s : Seat) (p : Pend) : (s.addPend p).parBase = s.parBase := rfl
@[simp] theorem Seat.addPend_x (s : Seat) (p : Pend) : (s.addPend p).x = s.x := rfl
@[simp] theorem Seat.addPend_v (s : Seat) (p : Pend) : (s.addPend p).v = s.v := rfl
@[simp] theorem Seat.addPend_o (s : Seat) (p : Pend) : (s.addPend p).o = s.o := rfl
@[simp] theorem Seat.addPend_y (s : Seat) (p : Pend) : (s.addPend p).y = s.y := rfl
@[simp] theorem Seat.addPend_k (s : Seat) (p : Pend) : (s.addPend p).k = s.k := rfl
@[simp] theorem Seat.addPend_d (s : Seat) (p : Pend) : (s.addPend p).d = s.d := rfl
@[simp] theorem Seat.addPend_q (s : Seat) (p : Pend) : (s.addPend p).q = s.q := rfl
@[simp] theorem Seat.addPend_pc (s : Seat) (p : Pend) : (s.addPend p).pc = s.pc := rfl
@[simp] theorem Seat.addPend_mpc (s : Seat) (p : Pend) : (s.addPend p).mpc = s.mpc := rfl
@[simp] theorem Seat.addPend_loops (s : Seat) (p : Pend) : (s.addPend p).loops = s.loops := rfl
@[simp] theorem Seat.addPend_sticky (s : Seat) (p : Pend) : (s.addPend p).sticky = s.sticky := rfl
@[simp] theorem Seat.addPend_repOn (s : Seat) (p : Pend) : (s.addPend p).repOn = s.repOn := rfl
@[simp] theorem Seat.addPend_repJ (s : Seat) (p : Pend) : (s.addPend p).repJ = s.repJ := rfl
@[simp] theorem Seat.addPend_repN (s : Seat) (p : Pend) : (s.addPend p).repN = s.repN := rfl
@[simp] theorem Seat.addPend_streams (s : Seat) (p : Pend) : (s.addPend p).streams = s.streams := rfl
@[simp] theorem Seat.addPend_seatpri (s : Seat) (p : Pend) : (s.addPend p).seatpri = s.seatpri := rfl
@[simp] theorem Seat.addPend_chkmode (s : Seat) (p : Pend) : (s.addPend p).chkmode = s.chkmode := rfl
@[simp] theorem Seat.addPend_warn (s : Seat) (p : Pend) : (s.addPend p).warn = s.warn := rfl
@[simp] theorem Seat.addPend_lddef (s : Seat) (p : Pend) : (s.addPend p).lddef = s.lddef := rfl
@[simp] theorem Seat.addPend_cpdef (s : Seat) (p : Pend) : (s.addPend p).cpdef = s.cpdef := rfl
@[simp] theorem Seat.addPend_scangrp (s : Seat) (p : Pend) : (s.addPend p).scangrp = s.scangrp := rfl
@[simp] theorem Seat.addPend_tvec (s : Seat) (p : Pend) : (s.addPend p).tvec = s.tvec := rfl
@[simp] theorem Seat.addPend_tcause (s : Seat) (p : Pend) : (s.addPend p).tcause = s.tcause := rfl
@[simp] theorem Seat.addPend_tpc (s : Seat) (p : Pend) : (s.addPend p).tpc = s.tpc := rfl
@[simp] theorem Seat.addPend_tval (s : Seat) (p : Pend) : (s.addPend p).tval = s.tval := rfl
@[simp] theorem Seat.addPend_accev (s : Seat) (p : Pend) : (s.addPend p).accev = s.accev := rfl
@[simp] theorem Seat.addPend_acctr (s : Seat) (p : Pend) : (s.addPend p).acctr = s.acctr := rfl
@[simp] theorem Seat.addPend_lastLayer (s : Seat) (p : Pend) : (s.addPend p).lastLayer = s.lastLayer := rfl
@[simp] theorem Seat.addPend_pend (s : Seat) (p : Pend) : (s.addPend p).pend = pendAdd s.pend p := rfl
@[simp] theorem Seat.addPend_nextIssue (s : Seat) (p : Pend) : (s.addPend p).nextIssue = s.nextIssue := rfl
@[simp] theorem Seat.addPend_stallW (s : Seat) (p : Pend) : (s.addPend p).stallW = s.stallW := rfl
@[simp] theorem Seat.addPend_loss (s : Seat) (p : Pend) : (s.addPend p).loss = s.loss := rfl
@[simp] theorem Seat.addPend_divUntil (s : Seat) (p : Pend) : (s.addPend p).divUntil = s.divUntil := rfl
@[simp] theorem Seat.addPend_wait (s : Seat) (p : Pend) : (s.addPend p).wait = s.wait := rfl
@[simp] theorem Seat.addPend_rels (s : Seat) (p : Pend) : (s.addPend p).rels = s.rels := rfl
@[simp] theorem Seat.addPend_brk (s : Seat) (p : Pend) : (s.addPend p).brk = s.brk := rfl
@[simp] theorem Seat.addPend_holdFrom (s : Seat) (p : Pend) : (s.addPend p).holdFrom = s.holdFrom := rfl
@[simp] theorem Seat.addPend_holdWhy (s : Seat) (p : Pend) : (s.addPend p).holdWhy = s.holdWhy := rfl
@[simp] theorem Seat.addPend_handler (s : Seat) (p : Pend) : (s.addPend p).handler = s.handler := rfl
@[simp] theorem Seat.addPend_shadow (s : Seat) (p : Pend) : (s.addPend p).shadow = s.shadow := rfl
@[simp] theorem Seat.addPend_captured (s : Seat) (p : Pend) : (s.addPend p).captured = s.captured := rfl
@[simp] theorem Seat.addPend_savedWait (s : Seat) (p : Pend) : (s.addPend p).savedWait = s.savedWait := rfl
@[simp] theorem Seat.addPend_frozen (s : Seat) (p : Pend) : (s.addPend p).frozen = s.frozen := rfl
@[simp] theorem Seat.addPend_stalledPin (s : Seat) (p : Pend) : (s.addPend p).stalledPin = s.stalledPin := rfl
@[simp] theorem Seat.addPend_pinDone (s : Seat) (p : Pend) : (s.addPend p).pinDone = s.pinDone := rfl
@[simp] theorem Seat.addPend_pendCause (s : Seat) (p : Pend) : (s.addPend p).pendCause = s.pendCause := rfl
@[simp] theorem Seat.addPend_preempt (s : Seat) (p : Pend) : (s.addPend p).preempt = s.preempt := rfl
@[simp] theorem Seat.addPend_ownerHeld (s : Seat) (p : Pend) : (s.addPend p).ownerHeld = s.ownerHeld := rfl
@[simp] theorem Seat.addPend_saveKind (s : Seat) (p : Pend) : (s.addPend p).saveKind = s.saveKind := rfl
@[simp] theorem Seat.addPend_relTime (s : Seat) (p : Pend) : (s.addPend p).relTime = s.relTime := rfl
@[simp] theorem Seat.addPend_raccSeq (s : Seat) (p : Pend) : (s.addPend p).raccSeq = s.raccSeq := rfl
@[simp] theorem Seat.addPend_scanRound (s : Seat) (p : Pend) : (s.addPend p).scanRound = s.scanRound := rfl
@[simp] theorem Seat.addPend_carrySeq (s : Seat) (p : Pend) : (s.addPend p).carrySeq = s.carrySeq := rfl
@[simp] theorem Seat.addPend_issueNo (s : Seat) (p : Pend) : (s.addPend p).issueNo = s.issueNo := rfl
@[simp] theorem Seat.addPend_faults (s : Seat) (p : Pend) : (s.addPend p).faults = s.faults := rfl
@[simp] theorem Seat.addPend_preReq (s : Seat) (p : Pend) : (s.addPend p).preReq = s.preReq := rfl
@[simp] theorem Seat.addPend_claimed (s : Seat) (p : Pend) : (s.addPend p).claimed = s.claimed := rfl
@[simp] theorem Seat.addPend_spilled (s : Seat) (p : Pend) : (s.addPend p).spilled = s.spilled := rfl
@[simp] theorem Seat.addPend_kept (s : Seat) (p : Pend) : (s.addPend p).kept = s.kept := rfl

@[simp] theorem Seat.setX_st (s : Seat) (n : Nat) (v : W64) : (s.setX n v).st = s.st := rfl
@[simp] theorem Seat.setX_inst (s : Seat) (n : Nat) (v : W64) : (s.setX n v).inst = s.inst := rfl
@[simp] theorem Seat.setX_node (s : Seat) (n : Nat) (v : W64) : (s.setX n v).node = s.node := rfl
@[simp] theorem Seat.setX_rank (s : Seat) (n : Nat) (v : W64) : (s.setX n v).rank = s.rank := rfl
@[simp] theorem Seat.setX_ordI (s : Seat) (n : Nat) (v : W64) : (s.setX n v).ordI = s.ordI := rfl
@[simp] theorem Seat.setX_ordJ (s : Seat) (n : Nat) (v : W64) : (s.setX n v).ordJ = s.ordJ := rfl
@[simp] theorem Seat.setX_ordK (s : Seat) (n : Nat) (v : W64) : (s.setX n v).ordK = s.ordK := rfl
@[simp] theorem Seat.setX_tag (s : Seat) (n : Nat) (v : W64) : (s.setX n v).tag = s.tag := rfl
@[simp] theorem Seat.setX_img (s : Seat) (n : Nat) (v : W64) : (s.setX n v).img = s.img := rfl
@[simp] theorem Seat.setX_lrec (s : Seat) (n : Nat) (v : W64) : (s.setX n v).lrec = s.lrec := rfl
@[simp] theorem Seat.setX_phase (s : Seat) (n : Nat) (v : W64) : (s.setX n v).phase = s.phase := rfl
@[simp] theorem Seat.setX_iter (s : Seat) (n : Nat) (v : W64) : (s.setX n v).iter = s.iter := rfl
@[simp] theorem Seat.setX_boundAt (s : Seat) (n : Nat) (v : W64) : (s.setX n v).boundAt = s.boundAt := rfl
@[simp] theorem Seat.setX_boundLeft (s : Seat) (n : Nat) (v : W64) : (s.setX n v).boundLeft = s.boundLeft := rfl
@[simp] theorem Seat.setX_win (s : Seat) (n : Nat) (v : W64) : (s.setX n v).win = s.win := rfl
@[simp] theorem Seat.setX_parBase (s : Seat) (n : Nat) (v : W64) : (s.setX n v).parBase = s.parBase := rfl
theorem Seat.setX_x (s : Seat) (n : Nat) (v : W64) (hn : n ≠ 0) : (s.setX n v).x = SMap.set 0 s.x n v := by simp [Seat.setX, hn]
@[simp] theorem Seat.setX_v (s : Seat) (n : Nat) (v : W64) : (s.setX n v).v = s.v := rfl
@[simp] theorem Seat.setX_o (s : Seat) (n : Nat) (v : W64) : (s.setX n v).o = s.o := rfl
@[simp] theorem Seat.setX_y (s : Seat) (n : Nat) (v : W64) : (s.setX n v).y = s.y := rfl
@[simp] theorem Seat.setX_k (s : Seat) (n : Nat) (v : W64) : (s.setX n v).k = s.k := rfl
@[simp] theorem Seat.setX_d (s : Seat) (n : Nat) (v : W64) : (s.setX n v).d = s.d := rfl
@[simp] theorem Seat.setX_q (s : Seat) (n : Nat) (v : W64) : (s.setX n v).q = s.q := rfl
@[simp] theorem Seat.setX_pc (s : Seat) (n : Nat) (v : W64) : (s.setX n v).pc = s.pc := rfl
@[simp] theorem Seat.setX_mpc (s : Seat) (n : Nat) (v : W64) : (s.setX n v).mpc = s.mpc := rfl
@[simp] theorem Seat.setX_loops (s : Seat) (n : Nat) (v : W64) : (s.setX n v).loops = s.loops := rfl
@[simp] theorem Seat.setX_sticky (s : Seat) (n : Nat) (v : W64) : (s.setX n v).sticky = s.sticky := rfl
@[simp] theorem Seat.setX_repOn (s : Seat) (n : Nat) (v : W64) : (s.setX n v).repOn = s.repOn := rfl
@[simp] theorem Seat.setX_repJ (s : Seat) (n : Nat) (v : W64) : (s.setX n v).repJ = s.repJ := rfl
@[simp] theorem Seat.setX_repN (s : Seat) (n : Nat) (v : W64) : (s.setX n v).repN = s.repN := rfl
@[simp] theorem Seat.setX_streams (s : Seat) (n : Nat) (v : W64) : (s.setX n v).streams = s.streams := rfl
@[simp] theorem Seat.setX_seatpri (s : Seat) (n : Nat) (v : W64) : (s.setX n v).seatpri = s.seatpri := rfl
@[simp] theorem Seat.setX_chkmode (s : Seat) (n : Nat) (v : W64) : (s.setX n v).chkmode = s.chkmode := rfl
@[simp] theorem Seat.setX_warn (s : Seat) (n : Nat) (v : W64) : (s.setX n v).warn = s.warn := rfl
@[simp] theorem Seat.setX_lddef (s : Seat) (n : Nat) (v : W64) : (s.setX n v).lddef = s.lddef := rfl
@[simp] theorem Seat.setX_cpdef (s : Seat) (n : Nat) (v : W64) : (s.setX n v).cpdef = s.cpdef := rfl
@[simp] theorem Seat.setX_scangrp (s : Seat) (n : Nat) (v : W64) : (s.setX n v).scangrp = s.scangrp := rfl
@[simp] theorem Seat.setX_tvec (s : Seat) (n : Nat) (v : W64) : (s.setX n v).tvec = s.tvec := rfl
@[simp] theorem Seat.setX_tcause (s : Seat) (n : Nat) (v : W64) : (s.setX n v).tcause = s.tcause := rfl
@[simp] theorem Seat.setX_tpc (s : Seat) (n : Nat) (v : W64) : (s.setX n v).tpc = s.tpc := rfl
@[simp] theorem Seat.setX_tval (s : Seat) (n : Nat) (v : W64) : (s.setX n v).tval = s.tval := rfl
@[simp] theorem Seat.setX_accev (s : Seat) (n : Nat) (v : W64) : (s.setX n v).accev = s.accev := rfl
@[simp] theorem Seat.setX_acctr (s : Seat) (n : Nat) (v : W64) : (s.setX n v).acctr = s.acctr := rfl
@[simp] theorem Seat.setX_lastLayer (s : Seat) (n : Nat) (v : W64) : (s.setX n v).lastLayer = s.lastLayer := rfl
@[simp] theorem Seat.setX_pend (s : Seat) (n : Nat) (v : W64) : (s.setX n v).pend = s.pend := rfl
@[simp] theorem Seat.setX_nextIssue (s : Seat) (n : Nat) (v : W64) : (s.setX n v).nextIssue = s.nextIssue := rfl
@[simp] theorem Seat.setX_stallW (s : Seat) (n : Nat) (v : W64) : (s.setX n v).stallW = s.stallW := rfl
@[simp] theorem Seat.setX_loss (s : Seat) (n : Nat) (v : W64) : (s.setX n v).loss = s.loss := rfl
@[simp] theorem Seat.setX_divUntil (s : Seat) (n : Nat) (v : W64) : (s.setX n v).divUntil = s.divUntil := rfl
@[simp] theorem Seat.setX_wait (s : Seat) (n : Nat) (v : W64) : (s.setX n v).wait = s.wait := rfl
@[simp] theorem Seat.setX_rels (s : Seat) (n : Nat) (v : W64) : (s.setX n v).rels = s.rels := rfl
@[simp] theorem Seat.setX_brk (s : Seat) (n : Nat) (v : W64) : (s.setX n v).brk = s.brk := rfl
@[simp] theorem Seat.setX_holdFrom (s : Seat) (n : Nat) (v : W64) : (s.setX n v).holdFrom = s.holdFrom := rfl
@[simp] theorem Seat.setX_holdWhy (s : Seat) (n : Nat) (v : W64) : (s.setX n v).holdWhy = s.holdWhy := rfl
@[simp] theorem Seat.setX_handler (s : Seat) (n : Nat) (v : W64) : (s.setX n v).handler = s.handler := rfl
@[simp] theorem Seat.setX_shadow (s : Seat) (n : Nat) (v : W64) : (s.setX n v).shadow = s.shadow := rfl
@[simp] theorem Seat.setX_captured (s : Seat) (n : Nat) (v : W64) : (s.setX n v).captured = s.captured := rfl
@[simp] theorem Seat.setX_savedWait (s : Seat) (n : Nat) (v : W64) : (s.setX n v).savedWait = s.savedWait := rfl
@[simp] theorem Seat.setX_frozen (s : Seat) (n : Nat) (v : W64) : (s.setX n v).frozen = s.frozen := rfl
@[simp] theorem Seat.setX_stalledPin (s : Seat) (n : Nat) (v : W64) : (s.setX n v).stalledPin = s.stalledPin := rfl
@[simp] theorem Seat.setX_pinDone (s : Seat) (n : Nat) (v : W64) : (s.setX n v).pinDone = s.pinDone := rfl
@[simp] theorem Seat.setX_pendCause (s : Seat) (n : Nat) (v : W64) : (s.setX n v).pendCause = s.pendCause := rfl
@[simp] theorem Seat.setX_preempt (s : Seat) (n : Nat) (v : W64) : (s.setX n v).preempt = s.preempt := rfl
@[simp] theorem Seat.setX_ownerHeld (s : Seat) (n : Nat) (v : W64) : (s.setX n v).ownerHeld = s.ownerHeld := rfl
@[simp] theorem Seat.setX_saveKind (s : Seat) (n : Nat) (v : W64) : (s.setX n v).saveKind = s.saveKind := rfl
@[simp] theorem Seat.setX_relTime (s : Seat) (n : Nat) (v : W64) : (s.setX n v).relTime = s.relTime := rfl
@[simp] theorem Seat.setX_raccSeq (s : Seat) (n : Nat) (v : W64) : (s.setX n v).raccSeq = s.raccSeq := rfl
@[simp] theorem Seat.setX_scanRound (s : Seat) (n : Nat) (v : W64) : (s.setX n v).scanRound = s.scanRound := rfl
@[simp] theorem Seat.setX_carrySeq (s : Seat) (n : Nat) (v : W64) : (s.setX n v).carrySeq = s.carrySeq := rfl
@[simp] theorem Seat.setX_issueNo (s : Seat) (n : Nat) (v : W64) : (s.setX n v).issueNo = s.issueNo := rfl
@[simp] theorem Seat.setX_faults (s : Seat) (n : Nat) (v : W64) : (s.setX n v).faults = s.faults := rfl
@[simp] theorem Seat.setX_preReq (s : Seat) (n : Nat) (v : W64) : (s.setX n v).preReq = s.preReq := rfl
@[simp] theorem Seat.setX_claimed (s : Seat) (n : Nat) (v : W64) : (s.setX n v).claimed = s.claimed := rfl
@[simp] theorem Seat.setX_spilled (s : Seat) (n : Nat) (v : W64) : (s.setX n v).spilled = s.spilled := rfl
@[simp] theorem Seat.setX_kept (s : Seat) (n : Nat) (v : W64) : (s.setX n v).kept = s.kept := rfl

@[simp] theorem Seat.setK_st (s : Seat) (n : Nat) (v : W64) : (s.setK n v).st = s.st := rfl
@[simp] theorem Seat.setK_inst (s : Seat) (n : Nat) (v : W64) : (s.setK n v).inst = s.inst := rfl
@[simp] theorem Seat.setK_node (s : Seat) (n : Nat) (v : W64) : (s.setK n v).node = s.node := rfl
@[simp] theorem Seat.setK_rank (s : Seat) (n : Nat) (v : W64) : (s.setK n v).rank = s.rank := rfl
@[simp] theorem Seat.setK_ordI (s : Seat) (n : Nat) (v : W64) : (s.setK n v).ordI = s.ordI := rfl
@[simp] theorem Seat.setK_ordJ (s : Seat) (n : Nat) (v : W64) : (s.setK n v).ordJ = s.ordJ := rfl
@[simp] theorem Seat.setK_ordK (s : Seat) (n : Nat) (v : W64) : (s.setK n v).ordK = s.ordK := rfl
@[simp] theorem Seat.setK_tag (s : Seat) (n : Nat) (v : W64) : (s.setK n v).tag = s.tag := rfl
@[simp] theorem Seat.setK_img (s : Seat) (n : Nat) (v : W64) : (s.setK n v).img = s.img := rfl
@[simp] theorem Seat.setK_lrec (s : Seat) (n : Nat) (v : W64) : (s.setK n v).lrec = s.lrec := rfl
@[simp] theorem Seat.setK_phase (s : Seat) (n : Nat) (v : W64) : (s.setK n v).phase = s.phase := rfl
@[simp] theorem Seat.setK_iter (s : Seat) (n : Nat) (v : W64) : (s.setK n v).iter = s.iter := rfl
@[simp] theorem Seat.setK_boundAt (s : Seat) (n : Nat) (v : W64) : (s.setK n v).boundAt = s.boundAt := rfl
@[simp] theorem Seat.setK_boundLeft (s : Seat) (n : Nat) (v : W64) : (s.setK n v).boundLeft = s.boundLeft := rfl
@[simp] theorem Seat.setK_win (s : Seat) (n : Nat) (v : W64) : (s.setK n v).win = s.win := rfl
@[simp] theorem Seat.setK_parBase (s : Seat) (n : Nat) (v : W64) : (s.setK n v).parBase = s.parBase := rfl
@[simp] theorem Seat.setK_x (s : Seat) (n : Nat) (v : W64) : (s.setK n v).x = s.x := rfl
@[simp] theorem Seat.setK_v (s : Seat) (n : Nat) (v : W64) : (s.setK n v).v = s.v := rfl
@[simp] theorem Seat.setK_o (s : Seat) (n : Nat) (v : W64) : (s.setK n v).o = s.o := rfl
@[simp] theorem Seat.setK_y (s : Seat) (n : Nat) (v : W64) : (s.setK n v).y = s.y := rfl
theorem Seat.setK_k (s : Seat) (n : Nat) (v : W64) (hn : n ≠ 0) : (s.setK n v).k = SMap.set 0 s.k n v := by simp [Seat.setK, hn]
@[simp] theorem Seat.setK_d (s : Seat) (n : Nat) (v : W64) : (s.setK n v).d = s.d := rfl
@[simp] theorem Seat.setK_q (s : Seat) (n : Nat) (v : W64) : (s.setK n v).q = s.q := rfl
@[simp] theorem Seat.setK_pc (s : Seat) (n : Nat) (v : W64) : (s.setK n v).pc = s.pc := rfl
@[simp] theorem Seat.setK_mpc (s : Seat) (n : Nat) (v : W64) : (s.setK n v).mpc = s.mpc := rfl
@[simp] theorem Seat.setK_loops (s : Seat) (n : Nat) (v : W64) : (s.setK n v).loops = s.loops := rfl
@[simp] theorem Seat.setK_sticky (s : Seat) (n : Nat) (v : W64) : (s.setK n v).sticky = s.sticky := rfl
@[simp] theorem Seat.setK_repOn (s : Seat) (n : Nat) (v : W64) : (s.setK n v).repOn = s.repOn := rfl
@[simp] theorem Seat.setK_repJ (s : Seat) (n : Nat) (v : W64) : (s.setK n v).repJ = s.repJ := rfl
@[simp] theorem Seat.setK_repN (s : Seat) (n : Nat) (v : W64) : (s.setK n v).repN = s.repN := rfl
@[simp] theorem Seat.setK_streams (s : Seat) (n : Nat) (v : W64) : (s.setK n v).streams = s.streams := rfl
@[simp] theorem Seat.setK_seatpri (s : Seat) (n : Nat) (v : W64) : (s.setK n v).seatpri = s.seatpri := rfl
@[simp] theorem Seat.setK_chkmode (s : Seat) (n : Nat) (v : W64) : (s.setK n v).chkmode = s.chkmode := rfl
@[simp] theorem Seat.setK_warn (s : Seat) (n : Nat) (v : W64) : (s.setK n v).warn = s.warn := rfl
@[simp] theorem Seat.setK_lddef (s : Seat) (n : Nat) (v : W64) : (s.setK n v).lddef = s.lddef := rfl
@[simp] theorem Seat.setK_cpdef (s : Seat) (n : Nat) (v : W64) : (s.setK n v).cpdef = s.cpdef := rfl
@[simp] theorem Seat.setK_scangrp (s : Seat) (n : Nat) (v : W64) : (s.setK n v).scangrp = s.scangrp := rfl
@[simp] theorem Seat.setK_tvec (s : Seat) (n : Nat) (v : W64) : (s.setK n v).tvec = s.tvec := rfl
@[simp] theorem Seat.setK_tcause (s : Seat) (n : Nat) (v : W64) : (s.setK n v).tcause = s.tcause := rfl
@[simp] theorem Seat.setK_tpc (s : Seat) (n : Nat) (v : W64) : (s.setK n v).tpc = s.tpc := rfl
@[simp] theorem Seat.setK_tval (s : Seat) (n : Nat) (v : W64) : (s.setK n v).tval = s.tval := rfl
@[simp] theorem Seat.setK_accev (s : Seat) (n : Nat) (v : W64) : (s.setK n v).accev = s.accev := rfl
@[simp] theorem Seat.setK_acctr (s : Seat) (n : Nat) (v : W64) : (s.setK n v).acctr = s.acctr := rfl
@[simp] theorem Seat.setK_lastLayer (s : Seat) (n : Nat) (v : W64) : (s.setK n v).lastLayer = s.lastLayer := rfl
@[simp] theorem Seat.setK_pend (s : Seat) (n : Nat) (v : W64) : (s.setK n v).pend = s.pend := rfl
@[simp] theorem Seat.setK_nextIssue (s : Seat) (n : Nat) (v : W64) : (s.setK n v).nextIssue = s.nextIssue := rfl
@[simp] theorem Seat.setK_stallW (s : Seat) (n : Nat) (v : W64) : (s.setK n v).stallW = s.stallW := rfl
@[simp] theorem Seat.setK_loss (s : Seat) (n : Nat) (v : W64) : (s.setK n v).loss = s.loss := rfl
@[simp] theorem Seat.setK_divUntil (s : Seat) (n : Nat) (v : W64) : (s.setK n v).divUntil = s.divUntil := rfl
@[simp] theorem Seat.setK_wait (s : Seat) (n : Nat) (v : W64) : (s.setK n v).wait = s.wait := rfl
@[simp] theorem Seat.setK_rels (s : Seat) (n : Nat) (v : W64) : (s.setK n v).rels = s.rels := rfl
@[simp] theorem Seat.setK_brk (s : Seat) (n : Nat) (v : W64) : (s.setK n v).brk = s.brk := rfl
@[simp] theorem Seat.setK_holdFrom (s : Seat) (n : Nat) (v : W64) : (s.setK n v).holdFrom = s.holdFrom := rfl
@[simp] theorem Seat.setK_holdWhy (s : Seat) (n : Nat) (v : W64) : (s.setK n v).holdWhy = s.holdWhy := rfl
@[simp] theorem Seat.setK_handler (s : Seat) (n : Nat) (v : W64) : (s.setK n v).handler = s.handler := rfl
@[simp] theorem Seat.setK_shadow (s : Seat) (n : Nat) (v : W64) : (s.setK n v).shadow = s.shadow := rfl
@[simp] theorem Seat.setK_captured (s : Seat) (n : Nat) (v : W64) : (s.setK n v).captured = s.captured := rfl
@[simp] theorem Seat.setK_savedWait (s : Seat) (n : Nat) (v : W64) : (s.setK n v).savedWait = s.savedWait := rfl
@[simp] theorem Seat.setK_frozen (s : Seat) (n : Nat) (v : W64) : (s.setK n v).frozen = s.frozen := rfl
@[simp] theorem Seat.setK_stalledPin (s : Seat) (n : Nat) (v : W64) : (s.setK n v).stalledPin = s.stalledPin := rfl
@[simp] theorem Seat.setK_pinDone (s : Seat) (n : Nat) (v : W64) : (s.setK n v).pinDone = s.pinDone := rfl
@[simp] theorem Seat.setK_pendCause (s : Seat) (n : Nat) (v : W64) : (s.setK n v).pendCause = s.pendCause := rfl
@[simp] theorem Seat.setK_preempt (s : Seat) (n : Nat) (v : W64) : (s.setK n v).preempt = s.preempt := rfl
@[simp] theorem Seat.setK_ownerHeld (s : Seat) (n : Nat) (v : W64) : (s.setK n v).ownerHeld = s.ownerHeld := rfl
@[simp] theorem Seat.setK_saveKind (s : Seat) (n : Nat) (v : W64) : (s.setK n v).saveKind = s.saveKind := rfl
@[simp] theorem Seat.setK_relTime (s : Seat) (n : Nat) (v : W64) : (s.setK n v).relTime = s.relTime := rfl
@[simp] theorem Seat.setK_raccSeq (s : Seat) (n : Nat) (v : W64) : (s.setK n v).raccSeq = s.raccSeq := rfl
@[simp] theorem Seat.setK_scanRound (s : Seat) (n : Nat) (v : W64) : (s.setK n v).scanRound = s.scanRound := rfl
@[simp] theorem Seat.setK_carrySeq (s : Seat) (n : Nat) (v : W64) : (s.setK n v).carrySeq = s.carrySeq := rfl
@[simp] theorem Seat.setK_issueNo (s : Seat) (n : Nat) (v : W64) : (s.setK n v).issueNo = s.issueNo := rfl
@[simp] theorem Seat.setK_faults (s : Seat) (n : Nat) (v : W64) : (s.setK n v).faults = s.faults := rfl
@[simp] theorem Seat.setK_preReq (s : Seat) (n : Nat) (v : W64) : (s.setK n v).preReq = s.preReq := rfl
@[simp] theorem Seat.setK_claimed (s : Seat) (n : Nat) (v : W64) : (s.setK n v).claimed = s.claimed := rfl
@[simp] theorem Seat.setK_spilled (s : Seat) (n : Nat) (v : W64) : (s.setK n v).spilled = s.spilled := rfl
@[simp] theorem Seat.setK_kept (s : Seat) (n : Nat) (v : W64) : (s.setK n v).kept = s.kept := rfl

@[simp] theorem Seat.setSrec_st (s : Seat) (e : Nat) (r : Sticky) : (s.setSrec e r).st = s.st := rfl
@[simp] theorem Seat.setSrec_inst (s : Seat) (e : Nat) (r : Sticky) : (s.setSrec e r).inst = s.inst := rfl
@[simp] theorem Seat.setSrec_node (s : Seat) (e : Nat) (r : Sticky) : (s.setSrec e r).node = s.node := rfl
@[simp] theorem Seat.setSrec_rank (s : Seat) (e : Nat) (r : Sticky) : (s.setSrec e r).rank = s.rank := rfl
@[simp] theorem Seat.setSrec_ordI (s : Seat) (e : Nat) (r : Sticky) : (s.setSrec e r).ordI = s.ordI := rfl
@[simp] theorem Seat.setSrec_ordJ (s : Seat) (e : Nat) (r : Sticky) : (s.setSrec e r).ordJ = s.ordJ := rfl
@[simp] theorem Seat.setSrec_ordK (s : Seat) (e : Nat) (r : Sticky) : (s.setSrec e r).ordK = s.ordK := rfl
@[simp] theorem Seat.setSrec_tag (s : Seat) (e : Nat) (r : Sticky) : (s.setSrec e r).tag = s.tag := rfl
@[simp] theorem Seat.setSrec_img (s : Seat) (e : Nat) (r : Sticky) : (s.setSrec e r).img = s.img := rfl
@[simp] theorem Seat.setSrec_lrec (s : Seat) (e : Nat) (r : Sticky) : (s.setSrec e r).lrec = s.lrec := rfl
@[simp] theorem Seat.setSrec_phase (s : Seat) (e : Nat) (r : Sticky) : (s.setSrec e r).phase = s.phase := rfl
@[simp] theorem Seat.setSrec_iter (s : Seat) (e : Nat) (r : Sticky) : (s.setSrec e r).iter = s.iter := rfl
@[simp] theorem Seat.setSrec_boundAt (s : Seat) (e : Nat) (r : Sticky) : (s.setSrec e r).boundAt = s.boundAt := rfl
@[simp] theorem Seat.setSrec_boundLeft (s : Seat) (e : Nat) (r : Sticky) : (s.setSrec e r).boundLeft = s.boundLeft := rfl
@[simp] theorem Seat.setSrec_win (s : Seat) (e : Nat) (r : Sticky) : (s.setSrec e r).win = s.win := rfl
@[simp] theorem Seat.setSrec_parBase (s : Seat) (e : Nat) (r : Sticky) : (s.setSrec e r).parBase = s.parBase := rfl
@[simp] theorem Seat.setSrec_x (s : Seat) (e : Nat) (r : Sticky) : (s.setSrec e r).x = s.x := rfl
@[simp] theorem Seat.setSrec_v (s : Seat) (e : Nat) (r : Sticky) : (s.setSrec e r).v = s.v := rfl
@[simp] theorem Seat.setSrec_o (s : Seat) (e : Nat) (r : Sticky) : (s.setSrec e r).o = s.o := rfl
@[simp] theorem Seat.setSrec_y (s : Seat) (e : Nat) (r : Sticky) : (s.setSrec e r).y = s.y := rfl
@[simp] theorem Seat.setSrec_k (s : Seat) (e : Nat) (r : Sticky) : (s.setSrec e r).k = s.k := rfl
@[simp] theorem Seat.setSrec_d (s : Seat) (e : Nat) (r : Sticky) : (s.setSrec e r).d = s.d := rfl
@[simp] theorem Seat.setSrec_q (s : Seat) (e : Nat) (r : Sticky) : (s.setSrec e r).q = s.q := rfl
@[simp] theorem Seat.setSrec_pc (s : Seat) (e : Nat) (r : Sticky) : (s.setSrec e r).pc = s.pc := rfl
@[simp] theorem Seat.setSrec_mpc (s : Seat) (e : Nat) (r : Sticky) : (s.setSrec e r).mpc = s.mpc := rfl
@[simp] theorem Seat.setSrec_loops (s : Seat) (e : Nat) (r : Sticky) : (s.setSrec e r).loops = s.loops := rfl
@[simp] theorem Seat.setSrec_sticky (s : Seat) (e : Nat) (r : Sticky) : (s.setSrec e r).sticky = s.sticky.set e r := rfl
@[simp] theorem Seat.setSrec_repOn (s : Seat) (e : Nat) (r : Sticky) : (s.setSrec e r).repOn = s.repOn := rfl
@[simp] theorem Seat.setSrec_repJ (s : Seat) (e : Nat) (r : Sticky) : (s.setSrec e r).repJ = s.repJ := rfl
@[simp] theorem Seat.setSrec_repN (s : Seat) (e : Nat) (r : Sticky) : (s.setSrec e r).repN = s.repN := rfl
@[simp] theorem Seat.setSrec_streams (s : Seat) (e : Nat) (r : Sticky) : (s.setSrec e r).streams = s.streams := rfl
@[simp] theorem Seat.setSrec_seatpri (s : Seat) (e : Nat) (r : Sticky) : (s.setSrec e r).seatpri = s.seatpri := rfl
@[simp] theorem Seat.setSrec_chkmode (s : Seat) (e : Nat) (r : Sticky) : (s.setSrec e r).chkmode = s.chkmode := rfl
@[simp] theorem Seat.setSrec_warn (s : Seat) (e : Nat) (r : Sticky) : (s.setSrec e r).warn = s.warn := rfl
@[simp] theorem Seat.setSrec_lddef (s : Seat) (e : Nat) (r : Sticky) : (s.setSrec e r).lddef = s.lddef := rfl
@[simp] theorem Seat.setSrec_cpdef (s : Seat) (e : Nat) (r : Sticky) : (s.setSrec e r).cpdef = s.cpdef := rfl
@[simp] theorem Seat.setSrec_scangrp (s : Seat) (e : Nat) (r : Sticky) : (s.setSrec e r).scangrp = s.scangrp := rfl
@[simp] theorem Seat.setSrec_tvec (s : Seat) (e : Nat) (r : Sticky) : (s.setSrec e r).tvec = s.tvec := rfl
@[simp] theorem Seat.setSrec_tcause (s : Seat) (e : Nat) (r : Sticky) : (s.setSrec e r).tcause = s.tcause := rfl
@[simp] theorem Seat.setSrec_tpc (s : Seat) (e : Nat) (r : Sticky) : (s.setSrec e r).tpc = s.tpc := rfl
@[simp] theorem Seat.setSrec_tval (s : Seat) (e : Nat) (r : Sticky) : (s.setSrec e r).tval = s.tval := rfl
@[simp] theorem Seat.setSrec_accev (s : Seat) (e : Nat) (r : Sticky) : (s.setSrec e r).accev = s.accev := rfl
@[simp] theorem Seat.setSrec_acctr (s : Seat) (e : Nat) (r : Sticky) : (s.setSrec e r).acctr = s.acctr := rfl
@[simp] theorem Seat.setSrec_lastLayer (s : Seat) (e : Nat) (r : Sticky) : (s.setSrec e r).lastLayer = s.lastLayer := rfl
@[simp] theorem Seat.setSrec_pend (s : Seat) (e : Nat) (r : Sticky) : (s.setSrec e r).pend = s.pend := rfl
@[simp] theorem Seat.setSrec_nextIssue (s : Seat) (e : Nat) (r : Sticky) : (s.setSrec e r).nextIssue = s.nextIssue := rfl
@[simp] theorem Seat.setSrec_stallW (s : Seat) (e : Nat) (r : Sticky) : (s.setSrec e r).stallW = s.stallW := rfl
@[simp] theorem Seat.setSrec_loss (s : Seat) (e : Nat) (r : Sticky) : (s.setSrec e r).loss = s.loss := rfl
@[simp] theorem Seat.setSrec_divUntil (s : Seat) (e : Nat) (r : Sticky) : (s.setSrec e r).divUntil = s.divUntil := rfl
@[simp] theorem Seat.setSrec_wait (s : Seat) (e : Nat) (r : Sticky) : (s.setSrec e r).wait = s.wait := rfl
@[simp] theorem Seat.setSrec_rels (s : Seat) (e : Nat) (r : Sticky) : (s.setSrec e r).rels = s.rels := rfl
@[simp] theorem Seat.setSrec_brk (s : Seat) (e : Nat) (r : Sticky) : (s.setSrec e r).brk = s.brk := rfl
@[simp] theorem Seat.setSrec_holdFrom (s : Seat) (e : Nat) (r : Sticky) : (s.setSrec e r).holdFrom = s.holdFrom := rfl
@[simp] theorem Seat.setSrec_holdWhy (s : Seat) (e : Nat) (r : Sticky) : (s.setSrec e r).holdWhy = s.holdWhy := rfl
@[simp] theorem Seat.setSrec_handler (s : Seat) (e : Nat) (r : Sticky) : (s.setSrec e r).handler = s.handler := rfl
@[simp] theorem Seat.setSrec_shadow (s : Seat) (e : Nat) (r : Sticky) : (s.setSrec e r).shadow = s.shadow := rfl
@[simp] theorem Seat.setSrec_captured (s : Seat) (e : Nat) (r : Sticky) : (s.setSrec e r).captured = s.captured := rfl
@[simp] theorem Seat.setSrec_savedWait (s : Seat) (e : Nat) (r : Sticky) : (s.setSrec e r).savedWait = s.savedWait := rfl
@[simp] theorem Seat.setSrec_frozen (s : Seat) (e : Nat) (r : Sticky) : (s.setSrec e r).frozen = s.frozen := rfl
@[simp] theorem Seat.setSrec_stalledPin (s : Seat) (e : Nat) (r : Sticky) : (s.setSrec e r).stalledPin = s.stalledPin := rfl
@[simp] theorem Seat.setSrec_pinDone (s : Seat) (e : Nat) (r : Sticky) : (s.setSrec e r).pinDone = s.pinDone := rfl
@[simp] theorem Seat.setSrec_pendCause (s : Seat) (e : Nat) (r : Sticky) : (s.setSrec e r).pendCause = s.pendCause := rfl
@[simp] theorem Seat.setSrec_preempt (s : Seat) (e : Nat) (r : Sticky) : (s.setSrec e r).preempt = s.preempt := rfl
@[simp] theorem Seat.setSrec_ownerHeld (s : Seat) (e : Nat) (r : Sticky) : (s.setSrec e r).ownerHeld = s.ownerHeld := rfl
@[simp] theorem Seat.setSrec_saveKind (s : Seat) (e : Nat) (r : Sticky) : (s.setSrec e r).saveKind = s.saveKind := rfl
@[simp] theorem Seat.setSrec_relTime (s : Seat) (e : Nat) (r : Sticky) : (s.setSrec e r).relTime = s.relTime := rfl
@[simp] theorem Seat.setSrec_raccSeq (s : Seat) (e : Nat) (r : Sticky) : (s.setSrec e r).raccSeq = s.raccSeq := rfl
@[simp] theorem Seat.setSrec_scanRound (s : Seat) (e : Nat) (r : Sticky) : (s.setSrec e r).scanRound = s.scanRound := rfl
@[simp] theorem Seat.setSrec_carrySeq (s : Seat) (e : Nat) (r : Sticky) : (s.setSrec e r).carrySeq = s.carrySeq := rfl
@[simp] theorem Seat.setSrec_issueNo (s : Seat) (e : Nat) (r : Sticky) : (s.setSrec e r).issueNo = s.issueNo := rfl
@[simp] theorem Seat.setSrec_faults (s : Seat) (e : Nat) (r : Sticky) : (s.setSrec e r).faults = s.faults := rfl
@[simp] theorem Seat.setSrec_preReq (s : Seat) (e : Nat) (r : Sticky) : (s.setSrec e r).preReq = s.preReq := rfl
@[simp] theorem Seat.setSrec_claimed (s : Seat) (e : Nat) (r : Sticky) : (s.setSrec e r).claimed = s.claimed := rfl
@[simp] theorem Seat.setSrec_spilled (s : Seat) (e : Nat) (r : Sticky) : (s.setSrec e r).spilled = s.spilled := rfl
@[simp] theorem Seat.setSrec_kept (s : Seat) (e : Nat) (r : Sticky) : (s.setSrec e r).kept = s.kept := rfl

/-! A result that lands changes no field but the register files. -/

@[simp] theorem Seat.land_st (s : Seat) (p : Pend) : (s.land p).st = s.st := rfl
@[simp] theorem Seat.land_inst (s : Seat) (p : Pend) : (s.land p).inst = s.inst := rfl
@[simp] theorem Seat.land_node (s : Seat) (p : Pend) : (s.land p).node = s.node := rfl
@[simp] theorem Seat.land_rank (s : Seat) (p : Pend) : (s.land p).rank = s.rank := rfl
@[simp] theorem Seat.land_ordI (s : Seat) (p : Pend) : (s.land p).ordI = s.ordI := rfl
@[simp] theorem Seat.land_ordJ (s : Seat) (p : Pend) : (s.land p).ordJ = s.ordJ := rfl
@[simp] theorem Seat.land_ordK (s : Seat) (p : Pend) : (s.land p).ordK = s.ordK := rfl
@[simp] theorem Seat.land_tag (s : Seat) (p : Pend) : (s.land p).tag = s.tag := rfl
@[simp] theorem Seat.land_img (s : Seat) (p : Pend) : (s.land p).img = s.img := rfl
@[simp] theorem Seat.land_lrec (s : Seat) (p : Pend) : (s.land p).lrec = s.lrec := rfl
@[simp] theorem Seat.land_phase (s : Seat) (p : Pend) : (s.land p).phase = s.phase := rfl
@[simp] theorem Seat.land_iter (s : Seat) (p : Pend) : (s.land p).iter = s.iter := rfl
@[simp] theorem Seat.land_boundAt (s : Seat) (p : Pend) : (s.land p).boundAt = s.boundAt := rfl
@[simp] theorem Seat.land_boundLeft (s : Seat) (p : Pend) : (s.land p).boundLeft = s.boundLeft := rfl
@[simp] theorem Seat.land_win (s : Seat) (p : Pend) : (s.land p).win = s.win := rfl
@[simp] theorem Seat.land_parBase (s : Seat) (p : Pend) : (s.land p).parBase = s.parBase := rfl
@[simp] theorem Seat.land_d (s : Seat) (p : Pend) : (s.land p).d = s.d := rfl
@[simp] theorem Seat.land_q (s : Seat) (p : Pend) : (s.land p).q = s.q := rfl
@[simp] theorem Seat.land_pc (s : Seat) (p : Pend) : (s.land p).pc = s.pc := rfl
@[simp] theorem Seat.land_mpc (s : Seat) (p : Pend) : (s.land p).mpc = s.mpc := rfl
@[simp] theorem Seat.land_loops (s : Seat) (p : Pend) : (s.land p).loops = s.loops := rfl
@[simp] theorem Seat.land_sticky (s : Seat) (p : Pend) : (s.land p).sticky = s.sticky := rfl
@[simp] theorem Seat.land_repOn (s : Seat) (p : Pend) : (s.land p).repOn = s.repOn := rfl
@[simp] theorem Seat.land_repJ (s : Seat) (p : Pend) : (s.land p).repJ = s.repJ := rfl
@[simp] theorem Seat.land_repN (s : Seat) (p : Pend) : (s.land p).repN = s.repN := rfl
@[simp] theorem Seat.land_streams (s : Seat) (p : Pend) : (s.land p).streams = s.streams := rfl
@[simp] theorem Seat.land_seatpri (s : Seat) (p : Pend) : (s.land p).seatpri = s.seatpri := rfl
@[simp] theorem Seat.land_chkmode (s : Seat) (p : Pend) : (s.land p).chkmode = s.chkmode := rfl
@[simp] theorem Seat.land_warn (s : Seat) (p : Pend) : (s.land p).warn = s.warn := rfl
@[simp] theorem Seat.land_lddef (s : Seat) (p : Pend) : (s.land p).lddef = s.lddef := rfl
@[simp] theorem Seat.land_cpdef (s : Seat) (p : Pend) : (s.land p).cpdef = s.cpdef := rfl
@[simp] theorem Seat.land_scangrp (s : Seat) (p : Pend) : (s.land p).scangrp = s.scangrp := rfl
@[simp] theorem Seat.land_tvec (s : Seat) (p : Pend) : (s.land p).tvec = s.tvec := rfl
@[simp] theorem Seat.land_tcause (s : Seat) (p : Pend) : (s.land p).tcause = s.tcause := rfl
@[simp] theorem Seat.land_tpc (s : Seat) (p : Pend) : (s.land p).tpc = s.tpc := rfl
@[simp] theorem Seat.land_tval (s : Seat) (p : Pend) : (s.land p).tval = s.tval := rfl
@[simp] theorem Seat.land_accev (s : Seat) (p : Pend) : (s.land p).accev = s.accev := rfl
@[simp] theorem Seat.land_acctr (s : Seat) (p : Pend) : (s.land p).acctr = s.acctr := rfl
@[simp] theorem Seat.land_lastLayer (s : Seat) (p : Pend) : (s.land p).lastLayer = s.lastLayer := rfl
@[simp] theorem Seat.land_pend (s : Seat) (p : Pend) : (s.land p).pend = s.pend := rfl
@[simp] theorem Seat.land_nextIssue (s : Seat) (p : Pend) : (s.land p).nextIssue = s.nextIssue := rfl
@[simp] theorem Seat.land_stallW (s : Seat) (p : Pend) : (s.land p).stallW = s.stallW := rfl
@[simp] theorem Seat.land_loss (s : Seat) (p : Pend) : (s.land p).loss = s.loss := rfl
@[simp] theorem Seat.land_divUntil (s : Seat) (p : Pend) : (s.land p).divUntil = s.divUntil := rfl
@[simp] theorem Seat.land_wait (s : Seat) (p : Pend) : (s.land p).wait = s.wait := rfl
@[simp] theorem Seat.land_rels (s : Seat) (p : Pend) : (s.land p).rels = s.rels := rfl
@[simp] theorem Seat.land_brk (s : Seat) (p : Pend) : (s.land p).brk = s.brk := rfl
@[simp] theorem Seat.land_holdFrom (s : Seat) (p : Pend) : (s.land p).holdFrom = s.holdFrom := rfl
@[simp] theorem Seat.land_holdWhy (s : Seat) (p : Pend) : (s.land p).holdWhy = s.holdWhy := rfl
@[simp] theorem Seat.land_handler (s : Seat) (p : Pend) : (s.land p).handler = s.handler := rfl
@[simp] theorem Seat.land_shadow (s : Seat) (p : Pend) : (s.land p).shadow = s.shadow := rfl
@[simp] theorem Seat.land_captured (s : Seat) (p : Pend) : (s.land p).captured = s.captured := rfl
@[simp] theorem Seat.land_savedWait (s : Seat) (p : Pend) : (s.land p).savedWait = s.savedWait := rfl
@[simp] theorem Seat.land_frozen (s : Seat) (p : Pend) : (s.land p).frozen = s.frozen := rfl
@[simp] theorem Seat.land_stalledPin (s : Seat) (p : Pend) : (s.land p).stalledPin = s.stalledPin := rfl
@[simp] theorem Seat.land_pinDone (s : Seat) (p : Pend) : (s.land p).pinDone = s.pinDone := rfl
@[simp] theorem Seat.land_pendCause (s : Seat) (p : Pend) : (s.land p).pendCause = s.pendCause := rfl
@[simp] theorem Seat.land_preempt (s : Seat) (p : Pend) : (s.land p).preempt = s.preempt := rfl
@[simp] theorem Seat.land_ownerHeld (s : Seat) (p : Pend) : (s.land p).ownerHeld = s.ownerHeld := rfl
@[simp] theorem Seat.land_saveKind (s : Seat) (p : Pend) : (s.land p).saveKind = s.saveKind := rfl
@[simp] theorem Seat.land_relTime (s : Seat) (p : Pend) : (s.land p).relTime = s.relTime := rfl
@[simp] theorem Seat.land_raccSeq (s : Seat) (p : Pend) : (s.land p).raccSeq = s.raccSeq := rfl
@[simp] theorem Seat.land_scanRound (s : Seat) (p : Pend) : (s.land p).scanRound = s.scanRound := rfl
@[simp] theorem Seat.land_carrySeq (s : Seat) (p : Pend) : (s.land p).carrySeq = s.carrySeq := rfl
@[simp] theorem Seat.land_issueNo (s : Seat) (p : Pend) : (s.land p).issueNo = s.issueNo := rfl
@[simp] theorem Seat.land_faults (s : Seat) (p : Pend) : (s.land p).faults = s.faults := rfl
@[simp] theorem Seat.land_preReq (s : Seat) (p : Pend) : (s.land p).preReq = s.preReq := rfl
@[simp] theorem Seat.land_claimed (s : Seat) (p : Pend) : (s.land p).claimed = s.claimed := rfl
@[simp] theorem Seat.land_spilled (s : Seat) (p : Pend) : (s.land p).spilled = s.spilled := rfl
@[simp] theorem Seat.land_kept (s : Seat) (p : Pend) : (s.land p).kept = s.kept := rfl

end Sys2Proof.Machine
end

