-- ==== Sys2Proof/Laws/Act.lean ====
section
/-! SUPPORT. Running acts: one after the other, under a condition, and what each change of a unit leaves. -/

namespace Sys2Proof.Machine

theorem Hw.applyAll_append (l m : List Eff) (h : Hw) : h.applyAll (l ++ m) = (h.applyAll l).applyAll m := by
  induction l generalizing h with
  | nil => rfl
  | cons e r ih => exact ih _

@[simp] theorem Hw.run_nil (h : Hw) : h.run Act.nil = h := rfl
@[simp] theorem Hw.run_all_nil (h : Hw) : h.run (Act.all []) = h := rfl

@[simp] theorem Hw.run_all_cons (h : Hw) (a : Act) (r : List Act) : h.run (Act.all (a :: r)) = (h.run a).run (Act.all r) := by
  show h.applyAll (a h ++ Act.all r (h.applyAll (a h))) = _
  rw [Hw.applyAll_append]
  rfl

theorem Hw.run_all_append (l m : List Act) (h : Hw) : h.run (Act.all (l ++ m)) = (h.run (Act.all l)).run (Act.all m) := by
  induction l generalizing h with
  | nil => rfl
  | cons a r ih => simp only [List.cons_append, Hw.run_all_cons, ih]

@[simp] theorem Hw.run_when (h : Hw) (b : Bool) (a : Act) : h.run (Act.when b a) = if b then h.run a else h := by
  cases b <;> rfl

@[simp] theorem Hw.run_look (h : Hw) (f : Hw → Act) : h.run (Act.look f) = h.run (f h) := rfl

@[simp] theorem Hw.run_each_nil {α : Type} (h : Hw) (f : α → Act) : h.run (Act.each [] f) = h := rfl

@[simp] theorem Hw.run_each_cons {α : Type} (h : Hw) (a : α) (r : List α) (f : α → Act) :
    h.run (Act.each (a :: r) f) = (h.run (f a)).run (Act.each r f) := Hw.run_all_cons h (f a) (r.map f)

/-- An act that hands the hardware on to another. -/
theorem Hw.run_fun (h : Hw) (f : Hw → Act) : h.run (fun x => f x x) = h.run (f h) := rfl

/-! ### One unit changes -/

@[simp] theorem Hw.run_modSeat (h : Hw) (k : Nat) (f : Seat → Seat) :
    h.run (modSeat k f) = { h with seats := SMap.insert h.seats k (f (h.seat k)) } := rfl
@[simp] theorem Hw.run_modCore (h : Hw) (k : Nat) (f : Core → Core) :
    h.run (modCore k f) = { h with cores := SMap.insert h.cores k (f (h.core k)) } := rfl
@[simp] theorem Hw.run_modCluster (h : Hw) (k : Nat) (f : Cluster → Cluster) :
    h.run (modCluster k f) = { h with clusters := SMap.insert h.clusters k (f (h.cluster k)) } := rfl
@[simp] theorem Hw.run_modDie (h : Hw) (k : Nat) (f : Die → Die) :
    h.run (modDie k f) = { h with dies := SMap.insert h.dies k (f (h.die k)) } := rfl
@[simp] theorem Hw.run_modPkg (h : Hw) (k : Nat) (f : Pkg → Pkg) :
    h.run (modPkg k f) = { h with pkgs := SMap.insert h.pkgs k (f (h.pkg k)) } := rfl
@[simp] theorem Hw.run_modInst (h : Hw) (k : Nat) (f : Inst → Inst) :
    h.run (modInst k f) = { h with insts := SMap.insert h.insts k (f (h.inst k)) } := rfl
@[simp] theorem Hw.run_modGlob (h : Hw) (f : Glob → Glob) : h.run (modGlob f) = { h with glob := f h.glob } := rfl
@[simp] theorem Hw.run_putAcc (h : Hw) (k : Nat) (a : Access) : h.run (putAcc k a) = { h with accs := SMap.insert h.accs k a } := rfl
@[simp] theorem Hw.run_dropAcc (h : Hw) (k : Nat) : h.run (dropAcc k) = { h with accs := SMap.erase h.accs k } := rfl
@[simp] theorem Hw.run_dropSeat (h : Hw) (k : Nat) : h.run (dropSeat k) = { h with seats := SMap.erase h.seats k } := rfl
@[simp] theorem Hw.run_writeMem (h : Hw) (l : List (Nat × Byte)) : h.run (writeMem l) = { h with mem := Memory.write h.mem l } := rfl
@[simp] theorem Hw.run_schedule (h : Hw) (t : Nat) (e : Event) :
    h.run (schedule t e) = { h with glob := { h.glob with agenda := agendaAdd h.glob.agenda t e } } := rfl
@[simp] theorem Hw.run_after (h : Hw) (d : Nat) (e : Event) :
    h.run (after d e) = { h with glob := { h.glob with agenda := agendaAdd h.glob.agenda (h.glob.now + d) e } } := rfl

/-! ### Reading a unit after a change -/

theorem Hw.seat_insert_self (h : Hw) (k : Nat) (v : Seat) : Hw.seat { h with seats := SMap.insert h.seats k v } k = v :=
  SMap.get_insert_self _ _ _ _
theorem Hw.seat_insert_ne (h : Hw) {k j : Nat} (v : Seat) (hj : j ≠ k) : Hw.seat { h with seats := SMap.insert h.seats k v } j = h.seat j :=
  SMap.get_insert_ne _ _ _ hj
theorem Hw.core_insert_self (h : Hw) (k : Nat) (v : Core) : Hw.core { h with cores := SMap.insert h.cores k v } k = v :=
  SMap.get_insert_self _ _ _ _
theorem Hw.core_insert_ne (h : Hw) {k j : Nat} (v : Core) (hj : j ≠ k) : Hw.core { h with cores := SMap.insert h.cores k v } j = h.core j :=
  SMap.get_insert_ne _ _ _ hj
theorem Hw.cluster_insert_self (h : Hw) (k : Nat) (v : Cluster) : Hw.cluster { h with clusters := SMap.insert h.clusters k v } k = v :=
  SMap.get_insert_self _ _ _ _
theorem Hw.die_insert_self (h : Hw) (k : Nat) (v : Die) : Hw.die { h with dies := SMap.insert h.dies k v } k = v :=
  SMap.get_insert_self _ _ _ _
theorem Hw.pkg_insert_self (h : Hw) (k : Nat) (v : Pkg) : Hw.pkg { h with pkgs := SMap.insert h.pkgs k v } k = v :=
  SMap.get_insert_self _ _ _ _
theorem Hw.pkg_insert_ne (h : Hw) {k j : Nat} (v : Pkg) (hj : j ≠ k) : Hw.pkg { h with pkgs := SMap.insert h.pkgs k v } j = h.pkg j :=
  SMap.get_insert_ne _ _ _ hj
theorem Hw.inst_insert_self (h : Hw) (k : Nat) (v : Inst) : Hw.inst { h with insts := SMap.insert h.insts k v } k = v :=
  SMap.get_insert_self _ _ _ _
theorem Hw.acc_insert_self (h : Hw) (k : Nat) (v : Access) : Hw.acc? { h with accs := SMap.insert h.accs k v } k = some v :=
  SMap.find_insert_self _ _ _
theorem Hw.acc_insert_ne (h : Hw) {k j : Nat} (v : Access) (hj : j ≠ k) : Hw.acc? { h with accs := SMap.insert h.accs k v } j = h.acc? j :=
  SMap.find_insert_ne _ _ hj

end Sys2Proof.Machine
end

