-- ==== Sys2Proof/Laws/Dispatch.lean ====
section
/-! SUPPORT. Which meaning each constructor runs. -/

namespace Sys2Proof.Machine

theorem exec_nop (s : State) : exec (.nop) s = execNop s := rfl
theorem exec_add (f : FSR) (s : State) : exec (.add f) s = execAdd f s := rfl
theorem exec_sub (f : FSR) (s : State) : exec (.sub f) s = execSub f s := rfl
theorem exec_and_ (f : FSR) (s : State) : exec (.and_ f) s = execAnd f s := rfl
theorem exec_or_ (f : FSR) (s : State) : exec (.or_ f) s = execOr f s := rfl
theorem exec_xor_ (f : FSR) (s : State) : exec (.xor_ f) s = execXor f s := rfl
theorem exec_shl (f : FSR) (s : State) : exec (.shl f) s = execShl f s := rfl
theorem exec_shr (f : FSR) (s : State) : exec (.shr f) s = execShr f s := rfl
theorem exec_sra (f : FSR) (s : State) : exec (.sra f) s = execSra f s := rfl
theorem exec_slt (f : FSR) (s : State) : exec (.slt f) s = execSlt f s := rfl
theorem exec_sltu (f : FSR) (s : State) : exec (.sltu f) s = execSltu f s := rfl
theorem exec_min_ (f : FSR) (s : State) : exec (.min_ f) s = execMin f s := rfl
theorem exec_max_ (f : FSR) (s : State) : exec (.max_ f) s = execMax f s := rfl
theorem exec_minu (f : FSR) (s : State) : exec (.minu f) s = execMinu f s := rfl
theorem exec_maxu (f : FSR) (s : State) : exec (.maxu f) s = execMaxu f s := rfl
theorem exec_mul (f : FSR) (s : State) : exec (.mul f) s = execMul f s := rfl
theorem exec_mulh (f : FSR) (s : State) : exec (.mulh f) s = execMulh f s := rfl
theorem exec_mulhu (f : FSR) (s : State) : exec (.mulhu f) s = execMulhu f s := rfl
theorem exec_div (f : FSR) (s : State) : exec (.div f) s = execDiv f s := rfl
theorem exec_divu (f : FSR) (s : State) : exec (.divu f) s = execDivu f s := rfl
theorem exec_rem (f : FSR) (s : State) : exec (.rem f) s = execRem f s := rfl
theorem exec_remu (f : FSR) (s : State) : exec (.remu f) s = execRemu f s := rfl
theorem exec_adds (f : FSR) (s : State) : exec (.adds f) s = execAdds f s := rfl
theorem exec_subs (f : FSR) (s : State) : exec (.subs f) s = execSubs f s := rfl
theorem exec_clz (f : FSR1) (s : State) : exec (.clz f) s = execClz f s := rfl
theorem exec_popc (f : FSR1) (s : State) : exec (.popc f) s = execPopc f s := rfl
theorem exec_seq (f : FSR) (s : State) : exec (.seq f) s = execSeq f s := rfl
theorem exec_sne (f : FSR) (s : State) : exec (.sne f) s = execSne f s := rfl
theorem exec_addx (f : FSR) (s : State) : exec (.addx f) s = execAddx f s := rfl
theorem exec_addi (f : FSI) (s : State) : exec (.addi f) s = execAddi f s := rfl
theorem exec_andi (f : FSI) (s : State) : exec (.andi f) s = execAndi f s := rfl
theorem exec_ori (f : FSI) (s : State) : exec (.ori f) s = execOri f s := rfl
theorem exec_xori (f : FSI) (s : State) : exec (.xori f) s = execXori f s := rfl
theorem exec_shli (f : FSI) (s : State) : exec (.shli f) s = execShli f s := rfl
theorem exec_shri (f : FSI) (s : State) : exec (.shri f) s = execShri f s := rfl
theorem exec_srai (f : FSI) (s : State) : exec (.srai f) s = execSrai f s := rfl
theorem exec_slti (f : FSI) (s : State) : exec (.slti f) s = execSlti f s := rfl
theorem exec_sltiu (f : FSI) (s : State) : exec (.sltiu f) s = execSltiu f s := rfl
theorem exec_li (d : XNum) (imm : Imm 14) (s : State) : exec (.li d imm) s = execLi d imm s := rfl
theorem exec_lih (f : FSI) (s : State) : exec (.lih f) s = execLih f s := rfl
theorem exec_beq (f : FSB) (s : State) : exec (.beq f) s = execBeq f s := rfl
theorem exec_bne (f : FSB) (s : State) : exec (.bne f) s = execBne f s := rfl
theorem exec_blt (f : FSB) (s : State) : exec (.blt f) s = execBlt f s := rfl
theorem exec_bge (f : FSB) (s : State) : exec (.bge f) s = execBge f s := rfl
theorem exec_bltu (f : FSB) (s : State) : exec (.bltu f) s = execBltu f s := rfl
theorem exec_bgeu (f : FSB) (s : State) : exec (.bgeu f) s = execBgeu f s := rfl
theorem exec_j (off : Imm 24) (s : State) : exec (.j off) s = execJ off s := rfl
theorem exec_jal (off : Imm 24) (s : State) : exec (.jal off) s = execJal off s := rfl
theorem exec_jalr (f : FSI) (s : State) : exec (.jalr f) s = execJalr f s := rfl
theorem exec_loop (e : BitVec 16) (count : BitVec 32) (s : State) : exec (.loop e count) s = execLoop e count s := rfl
theorem exec_loopr (a : XNum) (e : BitVec 16) (s : State) : exec (.loopr a e) s = execLoopr a e s := rfl
theorem exec_ld (f : FSM) (s : State) : exec (.ld f) s = execLd f s := rfl
theorem exec_st (f : FSM) (s : State) : exec (.st f) s = execSt f s := rfl
theorem exec_amoadd (f : FSA) (s : State) : exec (.amoadd f) s = execAmoadd f s := rfl
theorem exec_amoand (f : FSA) (s : State) : exec (.amoand f) s = execAmoand f s := rfl
theorem exec_amoor (f : FSA) (s : State) : exec (.amoor f) s = execAmoor f s := rfl
theorem exec_amoxor (f : FSA) (s : State) : exec (.amoxor f) s = execAmoxor f s := rfl
theorem exec_amomin (f : FSA) (s : State) : exec (.amomin f) s = execAmomin f s := rfl
theorem exec_amomax (f : FSA) (s : State) : exec (.amomax f) s = execAmomax f s := rfl
theorem exec_amominu (f : FSA) (s : State) : exec (.amominu f) s = execAmominu f s := rfl
theorem exec_amomaxu (f : FSA) (s : State) : exec (.amomaxu f) s = execAmomaxu f s := rfl
theorem exec_amoswap (f : FSA) (s : State) : exec (.amoswap f) s = execAmoswap f s := rfl
theorem exec_amocas (f : FSA) (s : State) : exec (.amocas f) s = execAmocas f s := rfl
theorem exec_amofadd (f : FSA) (s : State) : exec (.amofadd f) s = execAmofadd f s := rfl
theorem exec_csrr (d : XNum) (csr : BitVec 14) (s : State) : exec (.csrr d csr) s = execCsrr d csr s := rfl
theorem exec_csrw (f : FSC) (s : State) : exec (.csrw f) s = execCsrw f s := rfl
theorem exec_csrs (f : FSC) (s : State) : exec (.csrs f) s = execCsrs f s := rfl
theorem exec_csrc (f : FSC) (s : State) : exec (.csrc f) s = execCsrc f s := rfl
theorem exec_shset (a : XNum) (n : BitVec 4) (s : State) : exec (.shset a n) s = execShset a n s := rfl
theorem exec_shget (d : XNum) (n : BitVec 4) (s : State) : exec (.shget d n) s = execShget d n s := rfl
theorem exec_qpush (f : FSQ) (s : State) : exec (.qpush f) s = execQpush f s := rfl
theorem exec_qpop (f : FSQ) (s : State) : exec (.qpop f) s = execQpop f s := rfl
theorem exec_qpeek (f : FSQ) (s : State) : exec (.qpeek f) s = execQpeek f s := rfl
theorem exec_fadd (f : FFlag) (s : State) : exec (.fadd f) s = execFadd f s := rfl
theorem exec_fset (f : FFlag) (s : State) : exec (.fset f) s = execFset f s := rfl
theorem exec_ftest (d : XNum) (flag : BitVec 9) (s : State) : exec (.ftest d flag) s = execFtest d flag s := rfl
theorem exec_fwait (f : FSQ) (flag : BitVec 9) (s : State) : exec (.fwait f flag) s = execFwait f flag s := rfl
theorem exec_fclr (flag : BitVec 9) (s : State) : exec (.fclr flag) s = execFclr flag s := rfl
theorem exec_signal (a : XNum) (ext : Option RelExt) (s : State) : exec (.signal a ext) s = execSignal a ext s := rfl
theorem exec_yield (s : State) : exec (.yield) s = execYield s := rfl
theorem exec_sleepuntil (a : XNum) (s : State) : exec (.sleepuntil a) s = execSleepuntil a s := rfl
theorem exec_msarm (a b : XNum) (s : State) : exec (.msarm a b) s = execMsarm a b s := rfl
theorem exec_drain (d : XNum) (scope : BitVec 2) (s : State) : exec (.drain d scope) s = execDrain d scope s := rfl
theorem exec_trap (n : BitVec 5) (s : State) : exec (.trap n) s = execTrap n s := rfl
theorem exec_eret (s : State) : exec (.eret) s = execEret s := rfl
theorem exec_exit (s : State) : exec (.exit) s = execExit s := rfl
theorem exec_brk (s : State) : exec (.brk) s = execBrk s := rfl
theorem exec_tlbinv (a b : XNum) (s : State) : exec (.tlbinv a b) s = execTlbinv a b s := rfl
theorem exec_ttinv (s : State) : exec (.ttinv) s = execTtinv s := rfl
theorem exec_wipe (d a : XNum) (s : State) : exec (.wipe d a) s = execWipe d a s := rfl
theorem exec_vnop (ext : Option VExt) (s : State) : exec (.vnop ext) s = execVnop ext s := rfl
theorem exec_vadd (f : FVR) (s : State) : exec (.vadd f) s = execVadd f s := rfl
theorem exec_vsub (f : FVR) (s : State) : exec (.vsub f) s = execVsub f s := rfl
theorem exec_vmul (f : FVR) (s : State) : exec (.vmul f) s = execVmul f s := rfl
theorem exec_vmulh (f : FVR) (s : State) : exec (.vmulh f) s = execVmulh f s := rfl
theorem exec_vand (f : FVR) (s : State) : exec (.vand f) s = execVand f s := rfl
theorem exec_vor (f : FVR) (s : State) : exec (.vor f) s = execVor f s := rfl
theorem exec_vxor (f : FVR) (s : State) : exec (.vxor f) s = execVxor f s := rfl
theorem exec_vshl (f : FVR) (s : State) : exec (.vshl f) s = execVshl f s := rfl
theorem exec_vshr (f : FVR) (s : State) : exec (.vshr f) s = execVshr f s := rfl
theorem exec_vsra (f : FVR) (s : State) : exec (.vsra f) s = execVsra f s := rfl
theorem exec_vmin (f : FVR) (s : State) : exec (.vmin f) s = execVmin f s := rfl
theorem exec_vmax (f : FVR) (s : State) : exec (.vmax f) s = execVmax f s := rfl
theorem exec_vabs (f : FVR) (s : State) : exec (.vabs f) s = execVabs f s := rfl
theorem exec_vmad (f : FVR) (s : State) : exec (.vmad f) s = execVmad f s := rfl
theorem exec_vfadd (f : FVR) (s : State) : exec (.vfadd f) s = execVfadd f s := rfl
theorem exec_vfsub (f : FVR) (s : State) : exec (.vfsub f) s = execVfsub f s := rfl
theorem exec_vfmul (f : FVR) (s : State) : exec (.vfmul f) s = execVfmul f s := rfl
theorem exec_vfma (f : FVR) (s : State) : exec (.vfma f) s = execVfma f s := rfl
theorem exec_vfmin (f : FVR) (s : State) : exec (.vfmin f) s = execVfmin f s := rfl
theorem exec_vfmax (f : FVR) (s : State) : exec (.vfmax f) s = execVfmax f s := rfl
theorem exec_vfneg (f : FVR) (s : State) : exec (.vfneg f) s = execVfneg f s := rfl
theorem exec_vfrcp (f : FVR) (s : State) : exec (.vfrcp f) s = execVfrcp f s := rfl
theorem exec_vfrsq (f : FVR) (s : State) : exec (.vfrsq f) s = execVfrsq f s := rfl
theorem exec_vfexp2 (f : FVR) (s : State) : exec (.vfexp2 f) s = execVfexp2 f s := rfl
theorem exec_vflog2 (f : FVR) (s : State) : exec (.vflog2 f) s = execVflog2 f s := rfl
theorem exec_vfdiv (f : FVR) (s : State) : exec (.vfdiv f) s = execVfdiv f s := rfl
theorem exec_vfsqrt (f : FVR) (s : State) : exec (.vfsqrt f) s = execVfsqrt f s := rfl
theorem exec_vcmp (f : FVR) (s : State) : exec (.vcmp f) s = execVcmp f s := rfl
theorem exec_vfcmp (f : FVR) (s : State) : exec (.vfcmp f) s = execVfcmp f s := rfl
theorem exec_kand (f : FVR) (s : State) : exec (.kand f) s = execKand f s := rfl
theorem exec_kor (f : FVR) (s : State) : exec (.kor f) s = execKor f s := rfl
theorem exec_kxor (f : FVR) (s : State) : exec (.kxor f) s = execKxor f s := rfl
theorem exec_knot (f : FVR) (s : State) : exec (.knot f) s = execKnot f s := rfl
theorem exec_kpopc (f : FVR) (s : State) : exec (.kpopc f) s = execKpopc f s := rfl
theorem exec_vselk (f : FVR) (s : State) : exec (.vselk f) s = execVselk f s := rfl
theorem exec_vcvt (f : FVR) (s : State) : exec (.vcvt f) s = execVcvt f s := rfl
theorem exec_vpack (f : FVR) (s : State) : exec (.vpack f) s = execVpack f s := rfl
theorem exec_vunpack (f : FVR) (s : State) : exec (.vunpack f) s = execVunpack f s := rfl
theorem exec_vshuf (f : FVR) (s : State) : exec (.vshuf f) s = execVshuf f s := rfl
theorem exec_vbcast (f : FVR) (s : State) : exec (.vbcast f) s = execVbcast f s := rfl
theorem exec_vslide (f : FVR) (s : State) : exec (.vslide f) s = execVslide f s := rfl
theorem exec_vradd (f : FVR) (s : State) : exec (.vradd f) s = execVradd f s := rfl
theorem exec_vrmax (f : FVR) (s : State) : exec (.vrmax f) s = execVrmax f s := rfl
theorem exec_vrmin (f : FVR) (s : State) : exec (.vrmin f) s = execVrmin f s := rfl
theorem exec_vrfadd (f : FVR) (s : State) : exec (.vrfadd f) s = execVrfadd f s := rfl
theorem exec_vpushc (f : FVR) (s : State) : exec (.vpushc f) s = execVpushc f s := rfl
theorem exec_vpopc (f : FVR) (s : State) : exec (.vpopc f) s = execVpopc f s := rfl
theorem exec_vrebal (f : FVR) (s : State) : exec (.vrebal f) s = execVrebal f s := rfl
theorem exec_vscnt (f : FVR) (s : State) : exec (.vscnt f) s = execVscnt f s := rfl
theorem exec_vld (f : FVM) (s : State) : exec (.vld f) s = execVld f s := rfl
theorem exec_vldTs (f : FVM) (s : State) : exec (.vldTs f) s = execVldTs f s := rfl
theorem exec_vldSc (f : FVM) (s : State) : exec (.vldSc f) s = execVldSc f s := rfl
theorem exec_vst (f : FVM) (s : State) : exec (.vst f) s = execVst f s := rfl
theorem exec_vstTs (f : FVM) (s : State) : exec (.vstTs f) s = execVstTs f s := rfl
theorem exec_vstSc (f : FVM) (s : State) : exec (.vstSc f) s = execVstSc f s := rfl
theorem exec_vldg (f : FVM) (s : State) : exec (.vldg f) s = execVldg f s := rfl
theorem exec_vldgTs (f : FVM) (s : State) : exec (.vldgTs f) s = execVldgTs f s := rfl
theorem exec_vsts (f : FVM) (s : State) : exec (.vsts f) s = execVsts f s := rfl
theorem exec_vstsTs (f : FVM) (s : State) : exec (.vstsTs f) s = execVstsTs f s := rfl
theorem exec_vplane (f : FVM) (s : State) : exec (.vplane f) s = execVplane f s := rfl
theorem exec_vdeplane (f : FVM) (s : State) : exec (.vdeplane f) s = execVdeplane f s := rfl
theorem exec_vmov (f : FVR) (s : State) : exec (.vmov f) s = execVmov f s := rfl
theorem exec_vext (f : FVR) (s : State) : exec (.vext f) s = execVext f s := rfl
theorem exec_mnop (ext : Option MAExt) (s : State) : exec (.mnop ext) s = execMnop ext s := rfl
theorem exec_mma (f : FMMA) (s : State) : exec (.mma f) s = execMma f s := rfl
theorem exec_mmas (f : FMMA) (s : State) : exec (.mmas f) s = execMmas f s := rfl
theorem exec_latch (f : FLatch) (s : State) : exec (.latch f) s = execLatch f s := rfl
theorem exec_azero (f : FMA) (s : State) : exec (.azero f) s = execAzero f s := rfl
theorem exec_amov (f : FMA) (s : State) : exec (.amov f) s = execAmov f s := rfl
theorem exec_anorm (f : FMA) (s : State) : exec (.anorm f) s = execAnorm f s := rfl
theorem exec_agetx (f : FMA) (s : State) : exec (.agetx f) s = execAgetx f s := rfl
theorem exec_ascl (f : FMA) (s : State) : exec (.ascl f) s = execAscl f s := rfl
theorem exec_aaddt (f : FMA) (s : State) : exec (.aaddt f) s = execAaddt f s := rfl
theorem exec_epi (f : FEpi) (s : State) : exec (.epi f) s = execEpi f s := rfl
theorem exec_epix (f : FEpi) (s : State) : exec (.epix f) s = execEpix f s := rfl
theorem exec_awin (f : FMA) (s : State) : exec (.awin f) s = execAwin f s := rfl
theorem exec_acommit (f : FMA) (s : State) : exec (.acommit f) s = execAcommit f s := rfl
theorem exec_scan (f : FScan) (s : State) : exec (.scan f) s = execScan f s := rfl
theorem exec_scanl (f : FScan) (s : State) : exec (.scanl f) s = execScanl f s := rfl
theorem exec_scant (f : FScan) (s : State) : exec (.scant f) s = execScant f s := rfl
theorem exec_scanc (f : FScan) (s : State) : exec (.scanc f) s = execScanc f s := rfl
theorem exec_qset (f : FScan) (s : State) : exec (.qset f) s = execQset f s := rfl
theorem exec_step (f : FScan) (s : State) : exec (.step f) s = execStep f s := rfl
theorem exec_stepy (f : FScan) (s : State) : exec (.stepy f) s = execStepy f s := rfl
theorem exec_hld (f : FScan) (s : State) : exec (.hld f) s = execHld f s := rfl
theorem exec_hst (f : FScan) (s : State) : exec (.hst f) s = execHst f s := rfl
theorem exec_hzero (f : FScan) (s : State) : exec (.hzero f) s = execHzero f s := rfl
theorem exec_cnop (s : State) : exec (.cnop) s = execCnop s := rfl
theorem exec_tld (f : FCT) (s : State) : exec (.tld f) s = execTld f s := rfl
theorem exec_tldm (f : FCT) (s : State) : exec (.tldm f) s = execTldm f s := rfl
theorem exec_tldd (f : FCT) (s : State) : exec (.tldd f) s = execTldd f s := rfl
theorem exec_tldg (f : FCT) (s : State) : exec (.tldg f) s = execTldg f s := rfl
theorem exec_tst (f : FCT) (s : State) : exec (.tst f) s = execTst f s := rfl
theorem exec_tsts (f : FCT) (s : State) : exec (.tsts f) s = execTsts f s := rfl
theorem exec_tcpy (f : FCT) (s : State) : exec (.tcpy f) s = execTcpy f s := rfl
theorem exec_racc (f : FCT) (s : State) : exec (.racc f) s = execRacc f s := rfl
theorem exec_tpf (f : FCT) (s : State) : exec (.tpf f) s = execTpf f s := rfl
theorem exec_nsend (f : FCN) (s : State) : exec (.nsend f) s = execNsend f s := rfl
theorem exec_nrecv (f : FCN) (s : State) : exec (.nrecv f) s = execNrecv f s := rfl
theorem exec_lacq (a : XNum) (s : State) : exec (.lacq a) s = execLacq a s := rfl
theorem exec_lrel (a : XNum) (s : State) : exec (.lrel a) s = execLrel a s := rfl
theorem exec_lhint (a b : XNum) (s : State) : exec (.lhint a b) s = execLhint a b s := rfl
theorem exec_creq (f : FCX) (s : State) : exec (.creq f) s = execCreq f s := rfl
theorem exec_cpoll (d a : XNum) (s : State) : exec (.cpoll d a) s = execCpoll d a s := rfl
theorem exec_xplan (d a : XNum) (comm : BitVec 4) (s : State) : exec (.xplan d a comm) s = execXplan d a comm s := rfl
theorem exec_xstep (d a : XNum) (s : State) : exec (.xstep d a) s = execXstep d a s := rfl
theorem exec_xstatStatus (d a b : XNum) (s : State) : exec (.xstatStatus d a b) s = execXstatStatus d a b s := rfl
theorem exec_xstatTake (d a b : XNum) (s : State) : exec (.xstatTake d a b) s = execXstatTake d a b s := rfl
theorem exec_xstatReadA (d a b : XNum) (s : State) : exec (.xstatReadA d a b) s = execXstatReadA d a b s := rfl
theorem exec_xstatReadB (d a b : XNum) (s : State) : exec (.xstatReadB d a b) s = execXstatReadB d a b s := rfl
theorem exec_xstatComplete (d a b : XNum) (s : State) : exec (.xstatComplete d a b) s = execXstatComplete d a b s := rfl
theorem exec_xstatFail (d a b : XNum) (s : State) : exec (.xstatFail d a b) s = execXstatFail d a b s := rfl
theorem exec_xstatPlanStatus (d a b : XNum) (s : State) : exec (.xstatPlanStatus d a b) s = execXstatPlanStatus d a b s := rfl
theorem exec_xabort (d a : XNum) (s : State) : exec (.xabort d a) s = execXabort d a s := rfl
theorem exec_cysnd (f : FCY) (s : State) : exec (.cysnd f) s = execCysnd f s := rfl
theorem exec_cyrcv (f : FCY) (s : State) : exec (.cyrcv f) s = execCyrcv f s := rfl
theorem exec_kick (pkg node : Nat) (hdr : BitVec 64) (patches : List (BitVec 64 × BitVec 64)) (s : State) : exec (.kick pkg node hdr patches) s = execKick pkg node hdr patches s := rfl
theorem exec_ownerPreempt (pkg node : Nat) (target : OwnerTarget) (s : State) : exec (.ownerPreempt pkg node target) s = execOwnerPreempt pkg node target s := rfl
theorem exec_ownerReleaseSeat (pkg node seat : Nat) (s : State) : exec (.ownerReleaseSeat pkg node seat) s = execOwnerReleaseSeat pkg node seat s := rfl
theorem exec_patrolScrub (site : FaultSite) (uncorrectable : Bool) (s : State) : exec (.patrolScrub site uncorrectable) s = execPatrolScrub site uncorrectable s := rfl
theorem exec_arrivalFailure (pkg layer reason : Nat) (s : State) : exec (.arrivalFailure pkg layer reason) s = execArrivalFailure pkg layer reason s := rfl
theorem exec_writeBackFailure (pkg layer : Nat) (s : State) : exec (.writeBackFailure pkg layer) s = execWriteBackFailure pkg layer s := rfl
theorem exec_poolParameterWrite (pkg node : Nat) (base : BitVec 64) (kns : BitVec 64) (s : State) : exec (.poolParameterWrite pkg node base kns) s = execPoolParameterWrite pkg node base kns s := rfl
theorem exec_resumeCommand (seat : Nat) (s : State) : exec (.resumeCommand seat) s = execResumeCommand seat s := rfl
theorem exec_seatRetireCommand (seat : Nat) (s : State) : exec (.seatRetireCommand seat) s = execSeatRetireCommand seat s := rfl
theorem exec_instanceAbort (inst : Nat) (status : BitVec 64) (s : State) : exec (.instanceAbort inst status) s = execInstanceAbort inst status s := rfl
theorem exec_linkRetryRequest (link : LinkId) (acc : Nat) (s : State) : exec (.linkRetryRequest link acc) s = execLinkRetryRequest link acc s := rfl
theorem exec_routerAckTimeout (cluster : Nat) (s : State) : exec (.routerAckTimeout cluster) s = execRouterAckTimeout cluster s := rfl
theorem exec_linkTrainingLoss (link : LinkId) (s : State) : exec (.linkTrainingLoss link) s = execLinkTrainingLoss link s := rfl
theorem exec_partitionResume (pkg : Nat) (s : State) : exec (.partitionResume pkg) s = execPartitionResume pkg s := rfl
theorem exec_stehaythLinkFailure (pkg port : Nat) (s : State) : exec (.stehaythLinkFailure pkg port) s = execStehaythLinkFailure pkg port s := rfl
theorem exec_claim (pkg port node : Nat) (valid : Bool) (s : State) : exec (.claim pkg port node valid) s = execClaim pkg port node valid s := rfl
theorem exec_ownershipHandover (pkg node succ : Nat) (s : State) : exec (.ownershipHandover pkg node succ) s = execOwnershipHandover pkg node succ s := rfl
theorem exec_portLinkLoss (pkg port : Nat) (s : State) : exec (.portLinkLoss pkg port) s = execPortLinkLoss pkg port s := rfl
theorem exec_imageUpload (pkg node handle : Nat) (bytes : List (Nat × BitVec 8)) (words : List (BitVec 64)) (s : State) : exec (.imageUpload pkg node handle bytes words) s = execImageUpload pkg node handle bytes words s := rfl
theorem exec_completionReportPop (pkg : Nat) (s : State) : exec (.completionReportPop pkg) s = execCompletionReportPop pkg s := rfl
theorem exec_windowRegisterWrite (pkg node off : Nat) (data : BitVec 64) (s : State) : exec (.windowRegisterWrite pkg node off data) s = execWindowRegisterWrite pkg node off data s := rfl
theorem exec_ptimeSync (pkg : Nat) (ns : BitVec 64) (s : State) : exec (.ptimeSync pkg ns) s = execPtimeSync pkg ns s := rfl
theorem exec_attestationRequest (pkg : Nat) (nonce : BitVec 384) (s : State) : exec (.attestationRequest pkg nonce) s = execAttestationRequest pkg nonce s := rfl
theorem exec_provisioningCommand (pkg : Nat) (valid : Bool) (s : State) : exec (.provisioningCommand pkg valid) s = execProvisioningCommand pkg valid s := rfl
theorem exec_deploymentCommand (pkg node : Nat) (s : State) : exec (.deploymentCommand pkg node) s = execDeploymentCommand pkg node s := rfl
theorem exec_returnCommand (pkg node : Nat) (s : State) : exec (.returnCommand pkg node) s = execReturnCommand pkg node s := rfl
theorem exec_temperatureWarning (pkg die : Nat) (s : State) : exec (.temperatureWarning pkg die) s = execTemperatureWarning pkg die s := rfl
theorem exec_temperatureTrip (pkg die : Nat) (s : State) : exec (.temperatureTrip pkg die) s = execTemperatureTrip pkg die s := rfl
theorem exec_powerStageFault (pkg die : Nat) (s : State) : exec (.powerStageFault pkg die) s = execPowerStageFault pkg die s := rfl
theorem exec_coolantFlowLow (pkg : Nat) (s : State) : exec (.coolantFlowLow pkg) s = execCoolantFlowLow pkg s := rfl
theorem exec_coolantTemperatureHigh (pkg : Nat) (s : State) : exec (.coolantTemperatureHigh pkg) s = execCoolantTemperatureHigh pkg s := rfl
theorem exec_inputUndervoltage (pkg : Nat) (s : State) : exec (.inputUndervoltage pkg) s = execInputUndervoltage pkg s := rfl
theorem exec_inputOvercurrent (pkg : Nat) (s : State) : exec (.inputOvercurrent pkg) s = execInputOvercurrent pkg s := rfl
theorem exec_modulePowerDown (pkg : Nat) (s : State) : exec (.modulePowerDown pkg) s = execModulePowerDown pkg s := rfl
theorem exec_portLinkUp (pkg port : Nat) (s : State) : exec (.portLinkUp pkg port) s = execPortLinkUp pkg port s := rfl
theorem exec_carryInputLoss (pkg : Nat) (s : State) : exec (.carryInputLoss pkg) s = execCarryInputLoss pkg s := rfl
theorem exec_moduleEventCleared (pkg cause : Nat) (s : State) : exec (.moduleEventCleared pkg cause) s = execModuleEventCleared pkg cause s := rfl
theorem exec_emptyBundle (s : State) : exec (.emptyBundle) s = execEmptyBundle s := rfl
theorem exec_instanceStart (s : State) : exec (.instanceStart) s = execInstanceStart s := rfl
theorem exec_dispatchRound (s : State) : exec (.dispatchRound) s = execDispatchRound s := rfl
theorem exec_preemptionRequest (s : State) : exec (.preemptionRequest) s = execPreemptionRequest s := rfl
theorem exec_seatPlacement (s : State) : exec (.seatPlacement) s = execSeatPlacement s := rfl
theorem exec_spillStart (s : State) : exec (.spillStart) s = execSpillStart s := rfl
theorem exec_spillDone (s : State) : exec (.spillDone) s = execSpillDone s := rfl
theorem exec_restoreDone (s : State) : exec (.restoreDone) s = execRestoreDone s := rfl
theorem exec_seatRetired (s : State) : exec (.seatRetired) s = execSeatRetired s := rfl
theorem exec_nodeComplete (s : State) : exec (.nodeComplete) s = execNodeComplete s := rfl
theorem exec_completionReportAppend (s : State) : exec (.completionReportAppend) s = execCompletionReportAppend s := rfl
theorem exec_signalCounted (s : State) : exec (.signalCounted) s = execSignalCounted s := rfl
theorem exec_milestoneWheelTick (s : State) : exec (.milestoneWheelTick) s = execMilestoneWheelTick s := rfl
theorem exec_sleepWake (s : State) : exec (.sleepWake) s = execSleepWake s := rfl
theorem exec_fwaitSatisfied (s : State) : exec (.fwaitSatisfied) s = execFwaitSatisfied s := rfl
theorem exec_fwaitTimeout (s : State) : exec (.fwaitTimeout) s = execFwaitTimeout s := rfl
theorem exec_drainComplete (s : State) : exec (.drainComplete) s = execDrainComplete s := rfl
theorem exec_releaseDrainComplete (s : State) : exec (.releaseDrainComplete) s = execReleaseDrainComplete s := rfl
theorem exec_remoteFlagArrival (s : State) : exec (.remoteFlagArrival) s = execRemoteFlagArrival s := rfl
theorem exec_lateDataArrival (s : State) : exec (.lateDataArrival) s = execLateDataArrival s := rfl
theorem exec_pageWalkComplete (s : State) : exec (.pageWalkComplete) s = execPageWalkComplete s := rfl
theorem exec_deferredCauseCharge (s : State) : exec (.deferredCauseCharge) s = execDeferredCauseCharge s := rfl
theorem exec_inboundRemoteWrite (s : State) : exec (.inboundRemoteWrite) s = execInboundRemoteWrite s := rfl
theorem exec_accumulateArrival (s : State) : exec (.accumulateArrival) s = execAccumulateArrival s := rfl
theorem exec_neighbourMessageArrival (s : State) : exec (.neighbourMessageArrival) s = execNeighbourMessageArrival s := rfl
theorem exec_carryMessageArrival (s : State) : exec (.carryMessageArrival) s = execCarryMessageArrival s := rfl
theorem exec_granuleDecode (s : State) : exec (.granuleDecode) s = execGranuleDecode s := rfl
theorem exec_sliceRequest (s : State) : exec (.sliceRequest) s = execSliceRequest s := rfl
theorem exec_atomicExecution (s : State) : exec (.atomicExecution) s = execAtomicExecution s := rfl
theorem exec_memoryControllerIssue (s : State) : exec (.memoryControllerIssue) s = execMemoryControllerIssue s := rfl
theorem exec_packetRoute (s : State) : exec (.packetRoute) s = execPacketRoute s := rfl
theorem exec_goldenEpoch (s : State) : exec (.goldenEpoch) s = execGoldenEpoch s := rfl
theorem exec_multicastAck (s : State) : exec (.multicastAck) s = execMulticastAck s := rfl
theorem exec_multicastAckTimeout (s : State) : exec (.multicastAckTimeout) s = execMulticastAckTimeout s := rfl
theorem exec_reductionPacketArrival (s : State) : exec (.reductionPacketArrival) s = execReductionPacketArrival s := rfl
theorem exec_contributorTimeout (s : State) : exec (.contributorTimeout) s = execContributorTimeout s := rfl
theorem exec_abortNotice (s : State) : exec (.abortNotice) s = execAbortNotice s := rfl
theorem exec_creditGrant (s : State) : exec (.creditGrant) s = execCreditGrant s := rfl
theorem exec_chunkArrival (s : State) : exec (.chunkArrival) s = execChunkArrival s := rfl
theorem exec_chunkComplete (s : State) : exec (.chunkComplete) s = execChunkComplete s := rfl
theorem exec_xplanDerivationComplete (s : State) : exec (.xplanDerivationComplete) s = execXplanDerivationComplete s := rfl
theorem exec_collectiveCreditTimeout (s : State) : exec (.collectiveCreditTimeout) s = execCollectiveCreditTimeout s := rfl
theorem exec_collectivePeerTimeout (s : State) : exec (.collectivePeerTimeout) s = execCollectivePeerTimeout s := rfl
theorem exec_scanSubmission (s : State) : exec (.scanSubmission) s = execScanSubmission s := rfl
theorem exec_blockCarryArrival (s : State) : exec (.blockCarryArrival) s = execBlockCarryArrival s := rfl
theorem exec_scanRoundTimeout (s : State) : exec (.scanRoundTimeout) s = execScanRoundTimeout s := rfl
theorem exec_arrivalStart (s : State) : exec (.arrivalStart) s = execArrivalStart s := rfl
theorem exec_arrivalComplete (s : State) : exec (.arrivalComplete) s = execArrivalComplete s := rfl
theorem exec_evictionComplete (s : State) : exec (.evictionComplete) s = execEvictionComplete s := rfl
theorem exec_lacqTimeout (s : State) : exec (.lacqTimeout) s = execLacqTimeout s := rfl
theorem exec_poolChangeComplete (s : State) : exec (.poolChangeComplete) s = execPoolChangeComplete s := rfl
theorem exec_landingOverdue (s : State) : exec (.landingOverdue) s = execLandingOverdue s := rfl
theorem exec_freezeWatchdog (s : State) : exec (.freezeWatchdog) s = execFreezeWatchdog s := rfl
theorem exec_drainLimit (s : State) : exec (.drainLimit) s = execDrainLimit s := rfl
theorem exec_holdWatchdog (s : State) : exec (.holdWatchdog) s = execHoldWatchdog s := rfl
theorem exec_acommitArrivalTimeout (s : State) : exec (.acommitArrivalTimeout) s = execAcommitArrivalTimeout s := rfl
theorem exec_phaseBoundExceeded (s : State) : exec (.phaseBoundExceeded) s = execPhaseBoundExceeded s := rfl
theorem exec_ownerLapse (s : State) : exec (.ownerLapse) s = execOwnerLapse s := rfl
theorem exec_reset (s : State) : exec .reset s = execReset s := rfl
theorem exec_wipeComplete (s : State) : exec (.wipeComplete) s = execWipeComplete s := rfl
theorem exec_invalidateAcknowledged (s : State) : exec (.invalidateAcknowledged) s = execInvalidateAcknowledged s := rfl

end Sys2Proof.Machine
end

