-- ==== Sys2Proof/Laws/Memory.lean ====
section
/-! SUPPORT. Memory: reading after a write (R111), and the canonical form that every operation keeps. -/

namespace Sys2Proof.Machine

/-- A byte list writes nothing at an address none of its pairs names. -/
theorem Memory.read_write_other (l : List (Nat × Byte)) (m : List Host.Cell) (a : Nat)
    (h : ∀ p ∈ l, p.1 % 2 ^ 52 ≠ a) : Memory.read (Memory.write m l) a = Memory.read m a := by
  induction l generalizing m with
  | nil => rfl
  | cons p r ih =>
    have h1 : p.1 % 2 ^ 52 ≠ a := h p (List.mem_cons_self ..)
    show Memory.read (Memory.write (SMap.set 0 m (p.1 % 2 ^ 52) p.2) r) a = _
    rw [ih _ (fun q hq => h q (List.mem_cons_of_mem _ hq))]
    exact SMap.get_set_ne 0 m p.2 (Ne.symm h1)

/-- A byte written last is read back. -/
theorem Memory.read_write_last (l : List (Nat × Byte)) (m : List Host.Cell) (a : Nat) (b : Byte) :
    Memory.read (Memory.write m (l ++ [(a, b)])) (a % 2 ^ 52) = b := by
  unfold Memory.write
  rw [List.foldl_append]
  exact SMap.get_set_self 0 _ _ b

/-- One byte written. -/
theorem Memory.read_write_one (m : List Host.Cell) (a : Nat) (b : Byte) :
    Memory.read (Memory.write m [(a, b)]) (a % 2 ^ 52) = b := Memory.read_write_last [] m a b

theorem Memory.wf_write (l : List (Nat × Byte)) (m : List Host.Cell) (h : Memory.wf m = true) : Memory.wf (Memory.write m l) = true := by
  induction l generalizing m with
  | nil => exact h
  | cons p r ih => exact ih _ (SMap.wf_set 0 m _ p.2 h)

theorem Memory.wf_drop (m : List Host.Cell) (lo hi : Nat) (h : Memory.wf m = true) : Memory.wf (Memory.drop m lo hi) = true :=
  SMap.wf_keep 0 m _ h

/-- Every effect keeps the canonical form. -/
theorem Hw.apply_wf (h : Hw) (e : Eff) (hw : Memory.wf h.mem = true) : Memory.wf (h.apply e).mem = true := by
  cases e <;> first | exact hw | exact Memory.wf_write _ _ hw | exact Memory.wf_drop _ _ _ hw

theorem Hw.applyAll_wf (l : List Eff) (h : Hw) (hw : Memory.wf h.mem = true) : Memory.wf (h.applyAll l).mem = true := by
  induction l generalizing h with
  | nil => exact hw
  | cons e r ih => exact ih _ (Hw.apply_wf h e hw)

/-- So does every act. -/
theorem Hw.run_wf (h : Hw) (a : Act) (hw : Memory.wf h.mem = true) : Memory.wf (h.run a).mem = true :=
  Hw.applyAll_wf _ h hw

/-- Reset memory lists nothing. -/
theorem reset_mem_wf : Memory.wf State.reset.hw.mem = true := rfl

end Sys2Proof.Machine
end

