-- ==== Sys2Proof/Laws/Slot.lean ====
section
/-! SUPPORT. Issuing a slot: what a repetition of one clean slot leaves, results that land, and the canonical form of memory. -/

namespace Sys2Proof.Machine

/-! ### Results on their way (R142) -/

theorem mem_pendAdd (l : List Pend) (p q : Pend) : q ∈ pendAdd l p ↔ q = p ∨ q ∈ l := by
  induction l with
  | nil => simp [pendAdd]
  | cons a r ih =>
    unfold pendAdd
    split
    · simp
    · simp only [List.mem_cons, ih]
      constructor
      · rintro (h | h | h) <;> simp [h]
      · rintro (h | h | h) <;> simp [h]

theorem Seat.setX_xr_self (s : Seat) (n : Nat) (v : W64) (hn : n ≠ 0) : (s.setX n v).xr n = v := by
  simp only [Seat.xr, hn, if_false, Seat.setX, SMap.get_set_self]

theorem Seat.setX_xr_ne (s : Seat) {n r : Nat} (v : W64) (h : r ≠ n) : (s.setX n v).xr r = s.xr r := by
  by_cases hn : n = 0
  · simp [Seat.setX, hn, Seat.xr]
  · simp only [Seat.xr, Seat.setX, hn, if_false, SMap.get_set_ne 0 s.x v h]

theorem Seat.setK_kr_ne (s : Seat) {n r : Nat} (v : W64) (h : r ≠ n) : (s.setK n v).kr r = s.kr r := by
  by_cases hn : n = 0
  · simp [Seat.setK, hn, Seat.kr]
  · simp only [Seat.kr, Seat.setK, hn, if_false, SMap.get_set_ne 0 s.k v h]

/-- x0 reads zero whatever is written to it (R56). -/
theorem Seat.xr_zero (s : Seat) : s.xr 0 = 0 := rfl

theorem Seat.land_xr_self (s : Seat) (p : Pend) (hp : p.port = .x) (hr : p.reg ≠ 0) : (s.land p).xr p.reg = oOf p.val := by
  have : (s.land p).xr p.reg = (s.setX p.reg (oOf p.val)).xr p.reg := by simp [Seat.xr, Seat.land, hp]
  rw [this, Seat.setX_xr_self _ _ _ hr]

theorem Pend.hits_ne {p : Pend} {q : Port} {r : Nat} (h : p.hits (q, r) = false) (hq : q ≠ .y) (h0 : q = .x → r ≠ 0) :
    p.port = q → r ≠ p.reg := by
  intro hp e
  subst hp; subst e
  cases hport : p.port <;> simp_all [Pend.hits]

/-- A result writes only the registers that it hits. -/
theorem Seat.land_reg (s : Seat) (p : Pend) (q : Port × Nat) (h : p.hits q = false) : (s.land p).reg q = s.reg q := by
  obtain ⟨q, r⟩ := q
  cases q with
  | x =>
    by_cases h0 : r = 0
    · subst h0; rfl
    · have hn := Pend.hits_ne h (by simp) (fun _ => h0)
      have : (s.land p).xr r = s.xr r := by
        by_cases hp : p.port = .x
        · have : (s.land p).xr r = (s.setX p.reg (oOf p.val)).xr r := by simp [Seat.xr, Seat.land, hp]
          rw [this, Seat.setX_xr_ne _ _ (hn hp)]
        · simp [Seat.xr, Seat.land, hp]
      simp [Seat.reg, this]
  | v =>
    have hn := Pend.hits_ne h (by simp) (by simp)
    simp only [Seat.reg, Seat.vr, Seat.land, Seat.landV]
    split
    · rename_i hp; exact SMap.get_set_ne 0 s.v _ (hn hp)
    · rfl
  | o =>
    have hn := Pend.hits_ne h (by simp) (by simp)
    simp only [Seat.reg, Seat.or, Seat.land, Seat.landO]
    split
    · rename_i hp; rw [SMap.get_set_ne 0 s.o _ (hn hp)]
    · rfl
  | k =>
    have hn := Pend.hits_ne h (by simp) (by simp)
    have : (s.land p).kr r = s.kr r := by
      by_cases hp : p.port = .k
      · have : (s.land p).kr r = (s.setK p.reg (oOf p.val)).kr r := by simp [Seat.kr, Seat.land, hp]
        rw [this, Seat.setK_kr_ne _ _ (hn hp)]
      · simp [Seat.kr, Seat.land, hp]
    simp [Seat.reg, this]
  | y =>
    simp only [Seat.reg, Seat.yr, Seat.land]
    cases hy : p.yu with
    | none => rfl
    | some u =>
      have : u ≠ r := by
        simp [Pend.hits, hy] at h
        exact h.2
      exact SMap.get_set_ne 0 s.y _ (Ne.symm this)

theorem foldl_land_reg (l : List Pend) (s : Seat) (q : Port × Nat) (h : ∀ p ∈ l, p.hits q = false) :
    (l.foldl (fun acc p => acc.land p) s).reg q = s.reg q := by
  induction l generalizing s with
  | nil => rfl
  | cons p r ih =>
    rw [List.foldl_cons, ih _ (fun x hx => h x (List.mem_cons_of_mem _ hx)), Seat.land_reg _ _ _ (h p (List.mem_cons_self ..))]

theorem Seat.reg_x (s t : Seat) (r : Nat) : s.reg (.x, r) = t.reg (.x, r) ↔ s.xr r = t.xr r := by
  constructor
  · intro h
    apply BitVec.eq_of_toNat_eq
    have := congrArg BitVec.toNat h
    simp only [Seat.reg, BitVec.toNat_setWidth] at this
    have h1 := (s.xr r).isLt
    have h2 := (t.xr r).isLt
    omega
  · intro h
    simp [Seat.reg, h]

theorem Pend.hits_x (p : Pend) (r : Nat) : p.hits (.x, r) = false ↔ ¬(p.port = .x ∧ p.reg = r ∧ r ≠ 0) := by
  cases hp : p.port <;> simp [Pend.hits, hp]
  constructor
  · intro h e
    exact e ▸ h e
  · intro h e
    exact e ▸ h e

theorem foldl_land_xr_one (l : List Pend) (s : Seat) (p : Pend) (hp : p ∈ l) (hx : p.port = .x) (hr : p.reg ≠ 0)
    (h : ∀ q ∈ l, q ≠ p → q.hits (.x, p.reg) = false) :
    (l.foldl (fun acc p => acc.land p) s).xr p.reg = oOf p.val := by
  induction l generalizing s with
  | nil => cases hp
  | cons q r ih =>
    rw [List.foldl_cons]
    by_cases hin : p ∈ r
    · exact ih _ hin (fun x hx' => h x (List.mem_cons_of_mem _ hx'))
    · have hq : q = p := by
        cases hp with
        | head => rfl
        | tail _ h' => exact absurd h' hin
      rw [(Seat.reg_x _ _ _).mp (foldl_land_reg r (s.land q) (.x, p.reg)
        (fun x hx' => h x (List.mem_cons_of_mem _ hx') (fun e => hin (e ▸ hx')))), hq, Seat.land_xr_self _ _ hx hr]

/-- A register that no pending result names keeps its value through a flush. -/
theorem Seat.flush_reg (s : Seat) (t : Nat) (q : Port × Nat) (h : s.Idle q) : (s.flush t).reg q = s.reg q := by
  unfold Seat.flush
  exact foldl_land_reg _ _ _ (fun p hp => h p ((List.mem_filter.mp hp).1))

/-- The result of this ck stands in its register after the flush. -/
theorem Seat.flush_xr_one (s : Seat) (t : Nat) (p : Pend) (hp : p ∈ s.pend) (hd : p.due ≤ t) (ha : p.acc = none)
    (hx : p.port = .x) (hr : p.reg ≠ 0) (h : ∀ q ∈ s.pend, q ≠ p → q.hits (.x, p.reg) = false) :
    (s.flush t).xr p.reg = oOf p.val := by
  unfold Seat.flush
  apply foldl_land_xr_one _ _ p _ hx hr
  · exact fun q hq hne => h q ((List.mem_filter.mp hq).1) hne
  · exact List.mem_filter.mpr ⟨hp, by simp [hd, ha]⟩

/-- A later result comes after the flush still: what lands in it is of the others. -/
theorem Seat.flush_reg_later (s : Seat) (t : Nat) (q : Port × Nat) (h : ∀ p ∈ s.pend, p.due ≤ t → p.acc = none → p.hits q = false) :
    (s.flush t).reg q = s.reg q := by
  unfold Seat.flush
  refine foldl_land_reg _ _ _ (fun p hp => ?_)
  have := List.mem_filter.mp hp
  simp only [Bool.and_eq_true, decide_eq_true_eq, Option.isNone_iff_eq_none] at this
  exact h p this.1 this.2.1 this.2.2

/-- The results left after a flush. -/
theorem Seat.flush_pend (s : Seat) (t : Nat) :
    (s.flush t).pend = s.pend.filter (fun p => !(decide (p.due ≤ t) && p.acc.isNone)) := by
  have : ∀ (l : List Pend) (x : Seat), (l.foldl (fun acc p => acc.land p) x).pend = x.pend := by
    intro l
    induction l with
    | nil => intro x; rfl
    | cons q r ih => intro x; rw [List.foldl_cons, ih]; rfl
  unfold Seat.flush
  rw [this]

/-- A later result is still on its way after the flush. -/
theorem Seat.mem_flush_pend (s : Seat) (t : Nat) (p : Pend) (hp : p ∈ s.pend) (hd : t < p.due ∨ p.acc ≠ none) :
    p ∈ (s.flush t).pend := by
  rw [Seat.flush_pend]
  refine List.mem_filter.mpr ⟨hp, ?_⟩
  rcases hd with hd | hd
  · have : ¬ p.due ≤ t := by omega
    simp [this]
  · cases h : p.acc with
    | none => exact absurd h hd
    | some _ => simp

/-- What a flush leaves of the fields that are no register file. -/
theorem foldl_land_frame (l : List Pend) (s : Seat) :
    l.foldl (fun acc p => acc.land p) s = { s with
      x := (l.foldl (fun acc p => acc.land p) s).x, v := (l.foldl (fun acc p => acc.land p) s).v,
      o := (l.foldl (fun acc p => acc.land p) s).o, k := (l.foldl (fun acc p => acc.land p) s).k,
      y := (l.foldl (fun acc p => acc.land p) s).y } := by
  induction l generalizing s with
  | nil => rfl
  | cons p r ih =>
    rw [List.foldl_cons, ih]
    rfl

/-- A flush leaves everything but the register files and the results on their way. -/
theorem Seat.flush_frame (s : Seat) (t : Nat) : s.flush t = { s with
    x := (s.flush t).x, v := (s.flush t).v, o := (s.flush t).o, k := (s.flush t).k, y := (s.flush t).y, pend := (s.flush t).pend } := by
  have h := foldl_land_frame (s.pend.filter (fun p => decide (p.due ≤ t) && p.acc.isNone))
    { s with pend := s.pend.filter (fun p => !(decide (p.due ≤ t) && p.acc.isNone)) }
  have hp := Seat.flush_pend s t
  unfold Seat.flush at hp ⊢
  simp only at hp ⊢
  rw [hp]
  exact h

/-! ### One clean slot -/

/-- The sequencer's part of a repetition that ends as i says. -/
def State.after1 (s : State) (h : Hw) (i : Issue) : Hw :=
  h.run (modSeat s.cur.seat (fun x => ({ x with brk := x.brk && !i.last }.flush (h.coreT (coreOf s.cur.seat))).advance
    i (h.coreT (coreOf s.cur.seat)) h.glob.now))

/-- The issue in flight with its one operation taken out. -/
def State.rest (s : State) : Issue := { s.cur with slots := [], causes := [] }

theorem State.Clean.drop {s : State} {sl : Slot} (hc : s.Clean sl) : s.cur.slots.drop 1 = [] := by
  have h := hc.one
  match hm : s.cur.slots with
  | [] => rfl
  | [a] => rfl
  | a :: b :: r => rw [hm] at h; simp at h

/-- A clean repetition of one operation that raises no cause: its effects, the sticky record, then the results of this ck and the
sequencer as the operation told it. -/
theorem slotOp_next (i : Instr) (s : State) (sl : Slot) (m : Ctx → Out) (j : Issue) (hc : s.Clean sl)
    (ho : (m (ctxOf s)).causes = []) (hi : (m (ctxOf s)).issue s.rest = j)
    (hj : j.slots = [] ∧ j.causes = [] ∧ j.stallPin = none ∧ j.seat = s.cur.seat)
    (hb : ((s.hw.run (Act.all [(m (ctxOf s)).act, stickyAct (ctxOf s) s.cur.head i])).seat s.cur.seat).brk = false) :
    slotOp i s m = .next { s with
      hw := (s.after1 (s.hw.run (Act.all [(m (ctxOf s)).act, stickyAct (ctxOf s) s.cur.head i])) j).run
        (afterBundle j ((s.hw.run (Act.all [(m (ctxOf s)).act, stickyAct (ctxOf s) s.cur.head i])).coreT (coreOf s.cur.seat)))
      pre := none, cur := {} } := by
  have hs : (ctxOf s).s = s.me := by
    show (s.before).seat s.cur.seat = s.hw.seat s.cur.seat
    rw [hc.pre]
  have hchk : (ctxOf s).s.chkmode = false := by rw [hs]; exact hc.chk
  have hi' : (m (ctxOf s)).issue { s.cur with slots := [], causes := [] } = j := hi
  unfold slotOp
  simp only [hchk, ho, hc.causes, hc.drop, hi', hj.1, Bool.false_eq_true, if_false, List.append_nil, List.isEmpty_nil, if_true]
  unfold State.commit
  simp only [hj.2.1, hj.2.2.1, hj.2.2.2, hb, Bool.and_false, Bool.false_eq_true, if_false, List.isEmpty_nil, Bool.not_true]
  simp only [Hw.run_all_cons, Hw.run_all_nil]
  rfl

/-- What a plain end adds: nothing. -/
theorem afterBundle_plain (h : Hw) (j : Issue) (t : Nat) (hj : j.after = 0) : h.run (afterBundle j t) = h := by
  unfold Hw.run afterBundle
  simp only [hj]
  rfl

/-- The same for an operation that tells the sequencer nothing that ends the phase or the bundle otherwise. -/
theorem slotOp_plain (i : Instr) (s : State) (sl : Slot) (m : Ctx → Out) (j : Issue) (hc : s.Clean sl)
    (ho : (m (ctxOf s)).causes = []) (hi : (m (ctxOf s)).issue s.rest = j)
    (hj : j.slots = [] ∧ j.causes = [] ∧ j.stallPin = none ∧ j.seat = s.cur.seat) (h0 : j.after = 0)
    (hb : ((s.hw.run (Act.all [(m (ctxOf s)).act, stickyAct (ctxOf s) s.cur.head i])).seat s.cur.seat).brk = false) :
    slotOp i s m = .next { s with
      hw := s.after1 (s.hw.run (Act.all [(m (ctxOf s)).act, stickyAct (ctxOf s) s.cur.head i])) j, pre := none, cur := {} } := by
  rw [slotOp_next i s sl m j hc ho hi hj hb, afterBundle_plain _ _ _ h0]

theorem State.Clean.rest_ok {s : State} {sl : Slot} (hc : s.Clean sl) :
    s.rest.slots = [] ∧ s.rest.causes = [] ∧ s.rest.stallPin = none ∧ s.rest.seat = s.cur.seat := ⟨rfl, rfl, hc.pin, rfl⟩

/-- The same for an operation that only has effects. -/
theorem slotOp_clean (i : Instr) (s : State) (sl : Slot) (m : Ctx → Out) (hc : s.Clean sl) (ho : (m (ctxOf s)).causes = [])
    (hi : (m (ctxOf s)).issue = id)
    (hb : ((s.hw.run (Act.all [(m (ctxOf s)).act, stickyAct (ctxOf s) s.cur.head i])).seat s.cur.seat).brk = false) :
    slotOp i s m = .next { s with
      hw := s.after1 (s.hw.run (Act.all [(m (ctxOf s)).act, stickyAct (ctxOf s) s.cur.head i])) s.rest, pre := none, cur := {} } :=
  slotOp_plain i s sl m s.rest hc ho (by rw [hi]; rfl) hc.rest_ok hc.plain.1 hb

/-- In the scalar slot there is no sticky record. -/
theorem stickyAct_scalar {s : State} (hc : s.Clean .s) (c : Ctx) (i : Instr) : stickyAct c s.cur.head i = Act.nil := by
  unfold stickyAct
  simp [hc.slot]

theorem State.Clean.ctx_s {s : State} {sl : Slot} (hc : s.Clean sl) : (ctxOf s).s = s.me := by
  show (s.before).seat s.cur.seat = s.hw.seat s.cur.seat
  rw [hc.pre]

theorem State.Clean.ctx_h {s : State} {sl : Slot} (hc : s.Clean sl) : (ctxOf s).h = s.hw := hc.pre

theorem State.Clean.ctx_t {s : State} {sl : Slot} (hc : s.Clean sl) : (ctxOf s).t = s.coreTime := by
  show (s.before).coreT _ = s.hw.coreT _
  rw [hc.pre]

theorem State.Clean.ctx_sl {s : State} {sl : Slot} (hc : s.Clean sl) : (ctxOf s).sl = sl := hc.slot

theorem ctx_k (s : State) : (ctxOf s).k = s.cur.seat := rfl

theorem ctx_core (s : State) : (ctxOf s).core = coreOf s.cur.seat := rfl

/-- The sequencer writes no register file. -/
theorem Seat.advance_files (x : Seat) (i : Issue) (t now : Nat) :
    (x.advance i t now).x = x.x ∧ (x.advance i t now).v = x.v ∧ (x.advance i t now).o = x.o ∧ (x.advance i t now).y = x.y ∧
    (x.advance i t now).k = x.k ∧ (x.advance i t now).pend = x.pend := ⟨rfl, rfl, rfl, rfl, rfl, rfl⟩

theorem Seat.advance_xr (x : Seat) (i : Issue) (t now r : Nat) : (x.advance i t now).xr r = x.xr r := rfl

theorem Seat.advance_reg (x : Seat) (i : Issue) (t now : Nat) (q : Port × Nat) : (x.advance i t now).reg q = x.reg q := rfl

/-- The seat of a clean repetition afterwards. -/
theorem State.after1_seat (s : State) (h : Hw) (i : Issue) : (s.after1 h i).seat s.cur.seat =
    ({ (h.seat s.cur.seat) with brk := (h.seat s.cur.seat).brk && !i.last }.flush (h.coreT (coreOf s.cur.seat))).advance
      i (h.coreT (coreOf s.cur.seat)) h.glob.now := by
  unfold State.after1
  rw [Hw.run_modSeat]
  exact SMap.get_insert_self _ _ _ _

theorem State.after1_seat_ne (s : State) (h : Hw) (i : Issue) (k : Nat) (hk : k ≠ s.cur.seat) : (s.after1 h i).seat k = h.seat k := by
  unfold State.after1
  rw [Hw.run_modSeat]
  exact SMap.get_insert_ne _ _ _ hk

theorem State.after1_frame (s : State) (h : Hw) (i : Issue) : s.after1 h i = { h with seats := (s.after1 h i).seats } := rfl

/-- Where the seat goes after a clean repetition. -/
theorem State.after1_pc (s : State) (h : Hw) (i : Issue) : ((s.after1 h i).seat s.cur.seat).pc = (h.seat s.cur.seat).nextPc i ∧
    ((s.after1 h i).seat s.cur.seat).loops = (h.seat s.cur.seat).nextLoops i := by
  rw [State.after1_seat]
  have hf := Seat.flush_frame { (h.seat s.cur.seat) with brk := (h.seat s.cur.seat).brk && !i.last } (h.coreT (coreOf s.cur.seat))
  constructor
  · show Seat.nextPc _ i = _
    rw [hf]; rfl
  · show Seat.nextLoops _ i = _
    rw [hf]; rfl

/-- A later result is on its way after a clean repetition. -/
theorem State.after1_pend (s : State) (h : Hw) (i : Issue) (p : Pend) (hp : p ∈ (h.seat s.cur.seat).pend)
    (hd : h.coreT (coreOf s.cur.seat) < p.due ∨ p.acc ≠ none) : p ∈ ((s.after1 h i).seat s.cur.seat).pend := by
  rw [State.after1_seat]
  exact Seat.mem_flush_pend { (h.seat s.cur.seat) with brk := (h.seat s.cur.seat).brk && !i.last } _ p hp hd

/-- What a clean repetition leaves, from what its effects leave: `a` is the seat after the effects, `w` what they put on its way. -/
theorem leaves_after1 (s : State) (h : Hw) (i : Issue) (a : Seat) (w : List (Port × Nat)) (ev : Event)
    (hs : ∀ k, k ≠ s.cur.seat → h.seat k = s.hw.seat k) (ha : Seat.Rest a (h.seat s.cur.seat))
    (hbrk : (h.seat s.cur.seat).brk = false)
    (hreg : ∀ q, q ∉ w → s.me.Idle q → (h.seat s.cur.seat).reg q = s.me.reg q)
    (hw : ∀ q, q ∉ w → s.me.Idle q → ∀ p ∈ (h.seat s.cur.seat).pend, p.due ≤ h.coreT (coreOf s.cur.seat) → p.acc = none → p.hits q = false)
    (hm : h.mem = s.hw.mem) :
    s.Leaves { hw := s.after1 h i, pre := none, cur := {}, ev := ev } h a w where
  hw := rfl
  seats := fun k hk => (State.after1_seat_ne s h i k hk).trans (hs k hk)
  seat := by
    show Seat.Rest a ((s.after1 h i).seat s.cur.seat)
    rw [State.after1_seat]
    have hf := Seat.flush_frame { (h.seat s.cur.seat) with brk := (h.seat s.cur.seat).brk && !i.last } (h.coreT (coreOf s.cur.seat))
    have e : { (h.seat s.cur.seat) with brk := (h.seat s.cur.seat).brk && !i.last } = h.seat s.cur.seat := by
      rw [hbrk, Bool.false_and, ← hbrk]
    rw [e] at hf ⊢
    rw [hf]
    unfold Seat.Rest at ha ⊢
    rw [ha]
    rfl
  regs := fun q hq hi' => by
    show ((s.after1 h i).seat s.cur.seat).reg q = _
    rw [State.after1_seat, Seat.advance_reg]
    refine (Seat.flush_reg_later _ _ q ?_).trans (hreg q hq hi')
    exact fun p hp hd hacc => hw q hq hi' p hp hd hacc
  bytes := fun x => by
    show Memory.read h.mem x = _
    rw [hm]
  done := ⟨rfl, rfl⟩

/-! ### Scalar results -/

theorem HasX.lim {s : State} {sl : Slot} (hc : s.Clean sl) {rs : List XNum} (h : ∀ r ∈ rs, s.HasX r) : xLim (ctxOf s) rs = [] := by
  unfold xLim
  have : rs.find? (fun r => decide ((ctxOf s).s.lrec.xn ≤ r.toNat)) = none := by
    rw [List.find?_eq_none]
    intro r hr
    have := h r hr
    unfold State.HasX at this
    rw [hc.ctx_s]
    simp only [decide_eq_true_eq]
    omega
  rw [this]

end Sys2Proof.Machine
end

