-- ==== Sys2Proof/Laws/Word.lean ====
section
/-! SUPPORT. The images of R9 as bit vectors: `sextNat` is the signed value, `imageNat` the two's-complement image. -/

namespace Sys2Proof

theorem sextNat_eq (n : Nat) (hn : 0 < n) (x : Nat) : sextNat n x = (BitVec.ofNat n x).toInt := by
  have hp : (2 : Nat) ^ n = 2 * 2 ^ (n - 1) := by
    conv => lhs; rw [show n = (n - 1) + 1 by omega]
    rw [Nat.pow_succ]; omega
  unfold sextNat
  rw [BitVec.toInt_eq_toNat_cond, BitVec.toNat_ofNat]
  have h0 : n ≠ 0 := by omega
  simp only [h0, if_false]
  by_cases h : x % 2 ^ n < 2 ^ (n - 1)
  · have h2 : 2 * (x % 2 ^ n) < 2 ^ n := by omega
    simp only [h, h2, if_true]
  · have h2 : ¬ 2 * (x % 2 ^ n) < 2 ^ n := by omega
    simp only [h, h2, if_false]

theorem imageNat_eq (n : Nat) (x : Int) : imageNat n x = (BitVec.ofInt n x).toNat := by
  unfold imageNat
  rw [BitVec.toNat_ofInt]

/-- The sign extension of a 32-bit image. -/
theorem sext32_eq (r : Nat) : BitVec.ofInt 64 (sextNat 32 r) = (BitVec.ofNat 32 r).signExtend 64 := by
  rw [sextNat_eq 32 (by omega)]
  rfl

theorem sextNat_toNat (n : Nat) (hn : 0 < n) (x : BitVec n) : sextNat n x.toNat = x.toInt := by
  rw [sextNat_eq n hn, BitVec.ofNat_toNat, BitVec.setWidth_eq]

theorem ofNat_imageNat (n : Nat) (x : Int) : BitVec.ofNat n (imageNat n x) = BitVec.ofInt n x := by
  rw [imageNat_eq, BitVec.ofNat_toNat, BitVec.setWidth_eq]

end Sys2Proof
end

