-- ==== Sys2Proof/Laws/Scalar.lean ====
section
/-! SUPPORT. What a scalar operation leaves whose effects are in its own seat: results written in this ck, and results on
their way. -/

namespace Sys2Proof.Machine

/-- Hardware h is the hardware of s but for the seat in flight, which is b. -/
structure SeatIs (s : State) (h : Hw) (b : Seat) : Prop where
  hw : h = { s.hw with seats := h.seats }
  self : h.seat s.cur.seat = b
  ne : ∀ k, k ≠ s.cur.seat → h.seat k = s.hw.seat k

theorem SeatIs.refl (s : State) : SeatIs s s.hw s.me := ⟨rfl, rfl, fun _ _ => rfl⟩

theorem SeatIs.modSeat {s : State} {h : Hw} {b : Seat} (hs : SeatIs s h b) (f : Seat → Seat) :
    SeatIs s (h.run (modSeat s.cur.seat f)) (f b) := by
  rw [Hw.run_modSeat]
  refine ⟨?_, ?_, ?_⟩
  · rw [hs.hw]
  · rw [Hw.seat_insert_self, hs.self]
  · intro k hk
    rw [Hw.seat_insert_ne _ _ hk]
    exact hs.ne k hk

/-- Effects on the seat alone. -/
theorem leaves_seat (s : State) (i : Issue) (h : Hw) (b a : Seat) (w : List (Port × Nat)) (ev : Event) (hh : SeatIs s h b)
    (ha : Seat.Rest a b) (hbrk : b.brk = false)
    (hreg : ∀ q, q ∉ w → s.me.Idle q → b.reg q = s.me.reg q)
    (hw : ∀ q, q ∉ w → s.me.Idle q → ∀ p ∈ b.pend, p.due ≤ s.coreTime → p.acc = none → p.hits q = false) :
    s.Leaves { hw := s.after1 h i, pre := none, cur := {}, ev := ev } s.hw a w := by
  have ht : h.coreT (coreOf s.cur.seat) = s.coreTime := by rw [hh.hw]; rfl
  have hl := leaves_after1 s h i a w ev hh.ne (by rw [hh.self]; exact ha) (by rw [hh.self]; exact hbrk)
    (by rw [hh.self]; exact hreg) (by rw [hh.self, ht]; exact hw) (by rw [hh.hw])
  exact ⟨hl.hw.trans (congrArg (fun (x : Hw) => { x with seats := (s.after1 h i).seats }) hh.hw), hl.seats, hl.seat, hl.regs, hl.bytes,
    hl.done⟩

theorem Seat.Rest.refl (a : Seat) : Seat.Rest a a := rfl

theorem Seat.Rest.addPend (a : Seat) (p : Pend) : Seat.Rest a (a.addPend p) := rfl

/-- The register that a scalar result hits. -/
theorem xPend_hits (d : Nat) (v : W64) (due order : Nat) (q : Port × Nat) (hq : q ≠ (.x, d)) : (xPend d v due order).hits q = false := by
  obtain ⟨q, r⟩ := q
  cases q <;> simp [Pend.hits, xPend]
  intro e
  exact absurd (by rw [e]) hq

/-- One scalar result in a seat whose registers are those of the seat in flight. -/
theorem result_clean (s : State) (i : Issue) (h : Hw) (a : Seat) (d : XNum) (v : W64) (lat order : Nat) (ev : Event)
    (hh : SeatIs s h (if d = 0 then a else a.addPend (xPend d.toNat v (s.coreTime + lat) order))) (hbrk : a.brk = false)
    (hp : a.pend = s.me.pend) (hr : ∀ q, a.reg q = s.me.reg q) :
    let t : State := { hw := s.after1 h i, pre := none, cur := {}, ev := ev }
    s.Leaves t s.hw a [(.x, d.toNat)] ∧
    (lat = 0 → s.me.Idle (.x, d.toNat) → (t.hw.seat s.cur.seat).xr d.toNat = if d = 0 then 0 else v) ∧
    (0 < lat → d ≠ 0 → xPend d.toNat v (s.coreTime + lat) order ∈ (t.hw.seat s.cur.seat).pend) := by
  intro t
  have hd0 : d ≠ 0 → d.toNat ≠ 0 := fun hd h => hd (by apply BitVec.eq_of_toNat_eq; simpa using h)
  have ht : h.coreT (coreOf s.cur.seat) = s.coreTime := by rw [hh.hw]; rfl
  refine ⟨leaves_seat s i h _ a _ ev hh ?_ ?_ ?_ ?_, ?_, ?_⟩
  · split
    · exact Seat.Rest.refl a
    · exact Seat.Rest.addPend a _
  · split <;> exact hbrk
  · intro q _ _
    rw [← hr q]
    split <;> rfl
  · intro q hq hi p hpb _ _
    split at hpb
    · exact hi p (hp ▸ hpb)
    · rcases (mem_pendAdd _ _ _).mp hpb with h | h
      · rw [h]
        exact xPend_hits _ _ _ _ _ (by simpa using hq)
      · exact hi p (hp ▸ h)
  · intro hl hidle
    show ((s.after1 _ i).seat s.cur.seat).xr d.toNat = _
    rw [State.after1_seat, Seat.advance_xr, hh.self]
    by_cases hd : d = 0
    · subst hd; simp [Seat.xr]
    · subst hl
      rw [if_neg hd, if_neg hd, ht]
      refine (Seat.flush_xr_one { a.addPend (xPend d.toNat v (s.coreTime + 0) order) with brk := a.brk && !i.last } s.coreTime
        (xPend d.toNat v (s.coreTime + 0) order) ((mem_pendAdd _ _ _).mpr (.inl rfl)) (by simp [xPend]) rfl rfl (hd0 hd) ?_).trans ?_
      · intro q hq hne
        rcases (mem_pendAdd _ _ _).mp hq with h' | h'
        · exact absurd h' hne
        · exact hidle q (hp ▸ h')
      · apply BitVec.eq_of_toNat_eq
        simp only [xPend, oOf, BitVec.toNat_ofNat]
        have := v.isLt
        omega
  · intro hl hd
    refine State.after1_pend s _ i _ ?_ ?_
    · rw [hh.self, if_neg hd]
      exact (mem_pendAdd _ _ _).mpr (.inl rfl)
    · exact .inl (by
        rw [ht]
        show s.coreTime < s.coreTime + lat
        omega)

/-- A scalar result is an effect on the seat alone. -/
theorem run_wX {s : State} {sl : Slot} (hc : s.Clean sl) {h : Hw} {b : Seat} (hh : SeatIs s h b) (d : XNum) (v : W64) (lat : Nat) :
    SeatIs s (h.run (wX (ctxOf s) d v lat))
      (if d = 0 then b else b.addPend (xPend d.toNat v (s.coreTime + lat) (ctxOf s).order)) := by
  unfold wX
  rw [hc.ctx_t]
  by_cases hd : d = 0
  · simp only [hd, bne_self_eq_false, Hw.run_when, Bool.false_eq_true, if_false, if_true]
    exact hh
  · simp only [hd, bne_iff_ne, ne_eq, not_false_eq_true, Hw.run_when, if_true, if_false, ctx_k]
    exact hh.modSeat _

/-- A scalar operation whose effects are a result and a change of seat fields that are no register. -/
theorem scalar_result (i : Instr) (s : State) (hc : s.Clean .s) (d : XNum) (v : W64) (lat : Nat) (f : Seat → Seat) (m : Ctx → Out) (j : Issue)
    (ho : (m (ctxOf s)).causes = []) (hi : (m (ctxOf s)).issue s.rest = j)
    (hj : j.slots = [] ∧ j.causes = [] ∧ j.stallPin = none ∧ j.seat = s.cur.seat) (h0 : j.after = 0)
    (hact : SeatIs s (s.hw.run (m (ctxOf s)).act)
      (if d = 0 then f s.me else (f s.me).addPend (xPend d.toNat v (s.coreTime + lat) (ctxOf s).order)))
    (hbrk : (f s.me).brk = false) (hp : (f s.me).pend = s.me.pend) (hr : ∀ q, (f s.me).reg q = s.me.reg q) :
    ∃ t, slotOp i s m = .next t ∧ s.Leaves t s.hw (f s.me) [(.x, d.toNat)] ∧
      (lat = 0 → s.me.Idle (.x, d.toNat) → (t.hw.seat s.cur.seat).xr d.toNat = if d = 0 then 0 else v) ∧
      (0 < lat → d ≠ 0 → xPend d.toNat v (s.coreTime + lat) (ctxOf s).order ∈ (t.hw.seat s.cur.seat).pend) ∧
      t.hw = s.after1 (s.hw.run (m (ctxOf s)).act) j := by
  have hst : s.hw.run (Act.all [(m (ctxOf s)).act, stickyAct (ctxOf s) s.cur.head i]) = s.hw.run (m (ctxOf s)).act := by
    rw [stickyAct_scalar hc]
    simp only [Hw.run_all_cons, Hw.run_nil, Hw.run_all_nil]
  have hb : ((s.hw.run (Act.all [(m (ctxOf s)).act, stickyAct (ctxOf s) s.cur.head i])).seat s.cur.seat).brk = false := by
    rw [hst, hact.self]
    split <;> exact hbrk
  refine ⟨_, slotOp_plain i s .s m j hc ho hi hj h0 hb, ?_⟩
  rw [hst]
  have := result_clean s j _ (f s.me) d v lat (ctxOf s).order s.ev hact hbrk hp hr
  exact ⟨this.1, this.2.1, this.2.2, rfl⟩

/-- A scalar operation with one result. -/
theorem wX_clean (i : Instr) (s : State) (hc : s.Clean .s) (d : XNum) (v : W64) (lat : Nat) (m : Ctx → Out) (j : Issue)
    (ho : (m (ctxOf s)).causes = []) (hi : (m (ctxOf s)).issue s.rest = j)
    (hj : j.slots = [] ∧ j.causes = [] ∧ j.stallPin = none ∧ j.seat = s.cur.seat) (h0 : j.after = 0)
    (hact : (m (ctxOf s)).act = wX (ctxOf s) d v lat) :
    ∃ t, slotOp i s m = .next t ∧ s.Leaves t s.hw s.me [(.x, d.toNat)] ∧
      (lat = 0 → s.me.Idle (.x, d.toNat) → (t.hw.seat s.cur.seat).xr d.toNat = if d = 0 then 0 else v) ∧
      (0 < lat → d ≠ 0 → xPend d.toNat v (s.coreTime + lat) (ctxOf s).order ∈ (t.hw.seat s.cur.seat).pend) ∧
      t.hw = s.after1 (s.hw.run (wX (ctxOf s) d v lat)) j := by
  have := scalar_result i s hc d v lat id m j ho hi hj h0 (by rw [hact]; exact run_wX hc (SeatIs.refl s) d v lat) hc.brk rfl (fun _ => rfl)
  rwa [hact] at this

end Sys2Proof.Machine
end

