-- ==== Sys2Proof/Laws/Engine.lean ====
section
/-! SUPPORT. What an operation of a sticky engine leaves whose effects are in its own core and seat. -/

namespace Sys2Proof.Machine

/-- Hardware h is the hardware of s but for the core and the seat in flight, which are c and b. -/
structure EngineIs (s : State) (h : Hw) (c : Core) (b : Seat) : Prop where
  hw : h = { s.hw with seats := h.seats, cores := h.cores }
  core : h.core (coreOf s.cur.seat) = c
  cores : ∀ n, n ≠ coreOf s.cur.seat → h.core n = s.hw.core n
  self : h.seat s.cur.seat = b
  ne : ∀ k, k ≠ s.cur.seat → h.seat k = s.hw.seat k

theorem EngineIs.refl (s : State) : EngineIs s s.hw s.myCore s.me := ⟨rfl, rfl, fun _ _ => rfl, rfl, fun _ _ => rfl⟩

theorem EngineIs.nil {s : State} {h : Hw} {c : Core} {b : Seat} (hs : EngineIs s h c b) : EngineIs s (h.run Act.nil) c b := hs

theorem EngineIs.modSeat {s : State} {h : Hw} {c : Core} {b : Seat} (hs : EngineIs s h c b) (f : Seat → Seat) :
    EngineIs s (h.run (modSeat s.cur.seat f)) c (f b) := by
  rw [Hw.run_modSeat]
  refine ⟨?_, hs.core, hs.cores, ?_, ?_⟩
  · exact congrArg (fun (x : Hw) => { x with seats := SMap.insert h.seats s.cur.seat (f (h.seat s.cur.seat)) }) hs.hw
  · rw [Hw.seat_insert_self, hs.self]
  · intro k hk
    rw [Hw.seat_insert_ne _ _ hk]
    exact hs.ne k hk

theorem EngineIs.modCore {s : State} {h : Hw} {c : Core} {b : Seat} (hs : EngineIs s h c b) (f : Core → Core) :
    EngineIs s (h.run (modCore (coreOf s.cur.seat) f)) (f c) b := by
  rw [Hw.run_modCore]
  refine ⟨?_, ?_, ?_, hs.self, hs.ne⟩
  · exact congrArg (fun (x : Hw) => { x with cores := SMap.insert h.cores (coreOf s.cur.seat) (f (h.core (coreOf s.cur.seat))) }) hs.hw
  · rw [Hw.core_insert_self, hs.core]
  · intro k hk
    rw [Hw.core_insert_ne _ _ hk]
    exact hs.cores k hk

theorem EngineIs.coreT {s : State} {h : Hw} {c : Core} {b : Seat} (hs : EngineIs s h c b) (hl : c.lost = s.myCore.lost ∧
    c.frzTo = s.myCore.frzTo ∧ c.frzFrom = s.myCore.frzFrom) : h.coreT (coreOf s.cur.seat) = s.coreTime := by
  have hg : h.glob = s.hw.glob := by rw [hs.hw]
  unfold Hw.coreT State.coreTime
  show h.glob.now - (h.core (coreOf s.cur.seat)).lost = s.hw.glob.now - (s.hw.core (coreOf s.cur.seat)).lost
  rw [hg, hs.core, hl.1]
  rfl

/-- What an issue of a sticky engine does to its seat. -/
def stickySeat (c : Ctx) (op : SlotOp) (i : Instr) (s : Seat) : Seat :=
  let s := s.setSrec (engOf op.slot) (stickyAfter (s.srec (engOf op.slot)) op i)
  match op.slot, i with
  | .m, .mnop _ => s
  | .m, _ => if c.mpcSet then s else { s with mpc := BitVec.ofNat 64 ((s.mpc.toNat + 8) % 2 ^ 56) }
  | _, _ => s

theorem stickyAct_engine {s : State} {sl : Slot} (hc : s.Clean sl) (hsl : sl ≠ .s) (c : Ctx) (i : Instr) :
    stickyAct c s.cur.head i = modSeat c.k (stickySeat c s.cur.head i) := by
  unfold stickyAct
  rw [if_neg (by rw [hc.slot]; exact hsl)]
  rfl

/-- Where MPC stands after a matrix operation (R170). -/
def nextMpc (x : W64) : W64 := BitVec.ofNat 64 ((x.toNat + 8) % 2 ^ 56)

theorem stickySeat_vec {s : State} {sl : Slot} (hc : s.Clean sl) (hm : sl ≠ .m) (c : Ctx) (i : Instr) (b : Seat) :
    stickySeat c s.cur.head i b = b.setSrec (engOf sl) (stickyAfter (b.srec (engOf sl)) s.cur.head i) := by
  unfold stickySeat
  rw [hc.slot]
  cases sl with
  | m => exact absurd rfl hm
  | s => rfl
  | v0 => rfl
  | v1 => rfl
  | c0 => rfl
  | c1 => rfl

theorem stickySeat_mat {s : State} (hc : s.Clean .m) (i : Instr) (b : Seat) (hi : ∀ e, i ≠ .mnop e) (hb : b.mpc = s.me.mpc) :
    stickySeat (ctxOf s) s.cur.head i b =
      { b.setSrec 2 (stickyAfter (b.srec 2) s.cur.head i) with mpc := nextMpc s.me.mpc } := by
  unfold stickySeat
  rw [hc.slot]
  have h : (ctxOf s).mpcSet = false := hc.mpc
  have hm : (b.setSrec (engOf .m) (stickyAfter (b.srec (engOf .m)) s.cur.head i)).mpc = s.me.mpc := hb
  split
  · rename_i e _ ; exact absurd rfl (hi e)
  · rename_i e _
    simp only [h, hm, Bool.false_eq_true, if_false]
    rfl
  · rename_i h1 _
    exact absurd rfl h1

/-- A clean repetition of an engine's operation that raises no cause: co and b are the core and the seat after its effects. -/
theorem engine_clean (i : Instr) (s : State) (sl : Slot) (m : Ctx → Out) (co : Core) (b a : Seat) (w : List (Port × Nat)) (hc : s.Clean sl)
    (hsl : sl ≠ .s) (ho : (m (ctxOf s)).causes = []) (hi : (m (ctxOf s)).issue = id)
    (hact : EngineIs s (s.hw.run (m (ctxOf s)).act) co b)
    (hl : co.lost = s.myCore.lost ∧ co.frzTo = s.myCore.frzTo ∧ co.frzFrom = s.myCore.frzFrom)
    (ha : Seat.Rest a (stickySeat (ctxOf s) s.cur.head i b)) (hbrk : (stickySeat (ctxOf s) s.cur.head i b).brk = false)
    (hreg : ∀ q, q ∉ w → s.me.Idle q → (stickySeat (ctxOf s) s.cur.head i b).reg q = s.me.reg q)
    (hw : ∀ q, q ∉ w → s.me.Idle q → ∀ p ∈ (stickySeat (ctxOf s) s.cur.head i b).pend, p.due ≤ s.coreTime → p.acc = none → p.hits q = false) :
    ∃ t, slotOp i s m = .next t ∧ s.LeavesCore t co a w ∧
      (∀ p ∈ (stickySeat (ctxOf s) s.cur.head i b).pend, (s.coreTime < p.due ∨ p.acc ≠ none) → p ∈ (t.hw.seat s.cur.seat).pend) := by
  have hst : s.hw.run (Act.all [(m (ctxOf s)).act, stickyAct (ctxOf s) s.cur.head i]) =
      (s.hw.run (m (ctxOf s)).act).run (modSeat s.cur.seat (stickySeat (ctxOf s) s.cur.head i)) := by
    rw [stickyAct_engine hc hsl]
    simp only [Hw.run_all_cons, Hw.run_all_nil]
    rfl
  have hE := hact.modSeat (stickySeat (ctxOf s) s.cur.head i)
  have hT := hE.coreT hl
  refine ⟨_, slotOp_clean i s sl m hc ho hi (by rw [hst, hE.self]; exact hbrk), ?_, ?_⟩
  · rw [hst]
    have h := leaves_after1 s _ s.rest a w s.ev hE.ne (by rw [hE.self]; exact ha) (by rw [hE.self]; exact hbrk)
      (by rw [hE.self]; exact hreg) (by rw [hE.self, hT]; exact hw) (by rw [hE.hw])
    refine ⟨?_, ?_, ?_, h.seats, h.seat, h.regs, h.bytes, h.done⟩
    · exact congrArg (fun (x : Hw) => { x with seats := (s.after1 ((s.hw.run (m (ctxOf s)).act).run
        (modSeat s.cur.seat (stickySeat (ctxOf s) s.cur.head i))) s.rest).seats }) hE.hw
    · exact hE.cores
    · show Core.Rest co (((s.hw.run (m (ctxOf s)).act).run (modSeat s.cur.seat (stickySeat (ctxOf s) s.cur.head i))).core _)
      rw [hE.core]
      rfl
  · intro p hp hd
    rw [hst]
    exact State.after1_pend s _ _ p (by rw [hE.self]; exact hp) (by rw [hT]; exact hd)

end Sys2Proof.Machine
end

