-- ==== Sys2Proof/Laws/Lanes.lean ====
section
/-! SUPPORT. Lanes and elements: what is put together from lanes or elements is read back from them. -/

namespace Sys2Proof.Machine

/-- Digit i of a number put together from digits. -/
theorem digits_get (b : Nat) (hb : 0 < b) (f : Nat → Nat) (l : List Nat) (i : Nat) (hi : i < l.length) :
    l.foldr (fun n acc => acc * b + f n % b) 0 / b ^ i % b = f l[i] % b := by
  induction l generalizing i with
  | nil => simp at hi
  | cons a r ih =>
    have hlt : f a % b < b := Nat.mod_lt _ hb
    cases i with
    | zero =>
      simp only [List.foldr_cons, Nat.pow_zero, Nat.div_one, List.getElem_cons_zero]
      rw [Nat.add_mod, Nat.mul_mod_left, Nat.zero_add, Nat.mod_mod, Nat.mod_mod]
    | succ i =>
      simp only [List.foldr_cons, List.getElem_cons_succ]
      rw [Nat.pow_succ, Nat.mul_comm (b ^ i) b, ← Nat.div_div_eq_div_mul]
      have : (List.foldr (fun n acc => acc * b + f n % b) 0 r * b + f a % b) / b = List.foldr (fun n acc => acc * b + f n % b) 0 r := by
        rw [Nat.mul_comm, Nat.mul_add_div hb, Nat.div_eq_of_lt hlt, Nat.add_zero]
      rw [this]
      exact ih i (by simpa using hi)

theorem digits_lt (b : Nat) (hb : 0 < b) (f : Nat → Nat) (l : List Nat) :
    l.foldr (fun n acc => acc * b + f n % b) 0 < b ^ l.length := by
  induction l with
  | nil => simp
  | cons a r ih =>
    simp only [List.foldr_cons, List.length_cons]
    have hlt : f a % b < b := Nat.mod_lt _ hb
    calc List.foldr (fun n acc => acc * b + f n % b) 0 r * b + f a % b
        < List.foldr (fun n acc => acc * b + f n % b) 0 r * b + b := Nat.add_lt_add_left hlt _
      _ = (List.foldr (fun n acc => acc * b + f n % b) 0 r + 1) * b := by rw [Nat.add_mul, Nat.one_mul]
      _ ≤ b ^ r.length * b := Nat.mul_le_mul_right _ ih
      _ = b ^ (r.length + 1) := (Nat.pow_succ ..).symm

theorem ofLanes_eq (f : Nat → Nat) :
    ofLanes f = BitVec.ofNat 2048 ((List.range 64).foldr (fun n acc => acc * 2 ^ 32 + f n % 2 ^ 32) 0) := by
  have h : (fun (n acc : Nat) => acc <<< 32 ||| f n % 2 ^ 32) = (fun n acc => acc * 2 ^ 32 + f n % 2 ^ 32) := by
    funext n acc
    rw [← Nat.shiftLeft_add_eq_or_of_lt (Nat.mod_lt _ (by decide)), Nat.shiftLeft_eq]
  unfold ofLanes
  rw [h]

/-- A lane of a value put together from lanes. -/
theorem lane_ofLanes (f : Nat → Nat) (n : Nat) (hn : n < 64) : lane (ofLanes f) n = f n % 2 ^ 32 := by
  have hlt := digits_lt (2 ^ 32) (by decide) f (List.range 64)
  have hget := digits_get (2 ^ 32) (by decide) f (List.range 64) n (by simpa using hn)
  have he : (2 ^ 32) ^ (List.range 64).length = 2 ^ 2048 := by
    rw [List.length_range]
    exact (Nat.pow_mul 2 32 64).symm
  rw [he] at hlt
  rw [ofLanes_eq]
  unfold lane
  rw [BitVec.toNat_ofNat, Nat.mod_eq_of_lt hlt, Nat.shiftRight_eq_div_pow, Nat.pow_mul]
  rw [hget]
  simp

theorem lane_splat (x n : Nat) (hn : n < 64) : lane (splat x) n = x % 2 ^ 32 := lane_ofLanes _ n hn

/-- An element of a lane put together from elements. -/
theorem elemOf_laneOf (w : Nat) (f : Nat → Nat) (e : Nat) (he : e < 32 / w) : elemOf w (laneOf w f) e = f e % 2 ^ w := by
  have hget := digits_get (2 ^ w) (Nat.two_pow_pos w) f (List.range (32 / w)) e (by simpa using he)
  unfold elemOf laneOf
  rw [Nat.pow_mul]
  rw [hget]
  simp

theorem laneOf_lt (w : Nat) (f : Nat → Nat) : laneOf w f < 2 ^ 32 := by
  have h := digits_lt (2 ^ w) (Nat.two_pow_pos w) f (List.range (32 / w))
  rw [List.length_range, ← Nat.pow_mul] at h
  have : 2 ^ (w * (32 / w)) ≤ 2 ^ 32 := Nat.pow_le_pow_right (by decide) (Nat.mul_div_le 32 w)
  exact Nat.lt_of_lt_of_le h this

/-- An elementwise result, element by element. -/
theorem elem_mapElems (w : Nat) (f : Nat → Nat → Nat → Nat) (a b d : BitVec 2048) (n e : Nat) (hn : n < 64) (he : e < 32 / w) :
    elemOf w (lane (mapElems w f a b d) n) e =
      f (elemOf w (lane a n) e) (elemOf w (lane b n) e) (elemOf w (lane d n) e) % 2 ^ w := by
  unfold mapElems
  rw [lane_ofLanes _ n hn]
  rw [Nat.mod_eq_of_lt (laneOf_lt _ _), elemOf_laneOf w _ e he]

/-- Bits e·w to e·w + w − 1 of lane n. -/
theorem elem_extract (w : Nat) (x : BitVec 2048) (n e : Nat) (he : e < 32 / w) :
    (x.extractLsb' (32 * n + w * e) w).toNat = elemOf w (lane x n) e := by
  have hk : w * e + w ≤ 32 := by
    have h1 : w * (e + 1) ≤ w * (32 / w) := Nat.mul_le_mul_left _ he
    have h2 := Nat.mul_div_le 32 w
    have h3 : w * (e + 1) = w * e + w := Nat.mul_succ w e
    omega
  rw [BitVec.extractLsb'_toNat, Nat.shiftRight_eq_div_pow]
  unfold elemOf lane
  rw [Nat.shiftRight_eq_div_pow]
  generalize x.toNat = y
  rw [Nat.pow_add, ← Nat.div_div_eq_div_mul]
  generalize y / 2 ^ (32 * n) = z
  have h32 : (2 : Nat) ^ 32 = 2 ^ (w * e) * 2 ^ (32 - w * e) := by
    rw [← Nat.pow_add]
    congr 1
    omega
  rw [h32, Nat.mod_mul_right_div_self]
  exact (Nat.mod_mod_of_dvd _ (Nat.pow_dvd_pow 2 (by omega))).symm

end Sys2Proof.Machine
end

