-- ==== Sys2Proof/Laws/Vector.lean ====
section
/-! SUPPORT. What a vector operation leaves: its warnings, its unit held, and its results on their way. -/

namespace Sys2Proof.Machine

theorem Core.Rest.refl (a : Core) : Core.Rest a a := rfl

theorem State.LeavesCore.core_mono {s t : State} {co co' : Core} {a : Seat} {w : List (Port × Nat)} (h : s.LeavesCore t co a w)
    (hr : Core.Rest co' co) : s.LeavesCore t co' a w := by
  refine ⟨h.hw, h.cores, ?_, h.seats, h.seat, h.regs, h.bytes, h.done⟩
  have h2 := h.core
  unfold Core.Rest at h2 hr ⊢
  rw [h2, hr]

theorem EngineIs.warnBits {s : State} {sl : Slot} (_hc : s.Clean sl) {h : Hw} {c : Core} {b : Seat} (hs : EngineIs s h c b) (v : BitVec 8) :
    EngineIs s (h.run (warnBits (ctxOf s) v)) c (b.warned v) := by
  unfold Machine.warnBits
  rw [Hw.run_when]
  split
  · rename_i hv; exact hs.modSeat _
  · rename_i hv
    have : v = 0 := by simpa using hv
    have e : b.warned v = b := by
      rw [this]
      unfold Seat.warned
      rw [BitVec.ofNat_eq_ofNat, BitVec.or_zero]
    rw [e]
    exact hs

theorem EngineIs.holdPath {s : State} {sl : Slot} (_hc : s.Clean sl) {h : Hw} {c : Core} {b : Seat} (hs : EngineIs s h c b) (p n : Nat) :
    EngineIs s (h.run (holdPath (ctxOf s) p n)) { c with path := busyMax c.path p ((ctxOf s).t + n) } b := hs.modCore _

/-- A vector operation whose effects are warnings, its unit and results on their way. -/
theorem vec_clean (i : Instr) (s : State) (sl : Slot) (m : Ctx → Out) (bits : BitVec 8) (occ : Nat) (ps : List Pend) (f : Seat → Seat)
    (hc : s.Clean sl) (hsl : sl = .v0 ∨ sl = .v1) (ho : (m (ctxOf s)).causes = []) (hi : (m (ctxOf s)).issue = id)
    (hact : EngineIs s (s.hw.run (m (ctxOf s)).act)
      { s.myCore with path := busyMax s.myCore.path (pVec (vUnit (ctxOf s))) ((ctxOf s).t + occ) }
      (ps.foldl (fun x p => x.addPend p) (f (s.me.warned bits))))
    (hf : (f (s.me.warned bits)).pend = s.me.pend ∧ (f (s.me.warned bits)).brk = false ∧ ∀ q, (f (s.me.warned bits)).reg q = s.me.reg q)
    (hps : ∀ p ∈ ps, s.coreTime < p.due) :
    ∃ t, slotOp i s m = .next t ∧ s.LeavesCore t s.myCore (f (s.me.warned bits)) [] ∧ ∀ p ∈ ps, p ∈ (t.hw.seat s.cur.seat).pend := by
  have hm : sl ≠ .m := by rcases hsl with h | h <;> rw [h] <;> decide
  have hs : sl ≠ .s := by rcases hsl with h | h <;> rw [h] <;> decide
  have hfold : ∀ (l : List Pend) (x : Seat), (l.foldl (fun x p => x.addPend p) x) = { x with pend := (l.foldl (fun x p => x.addPend p) x).pend } := by
    intro l
    induction l with
    | nil => intro x; rfl
    | cons p r ih => intro x; rw [List.foldl_cons, ih]; rfl
  have hmem : ∀ (l : List Pend) (x : Seat) (p : Pend), p ∈ (l.foldl (fun x p => x.addPend p) x).pend ↔ p ∈ l ∨ p ∈ x.pend := by
    intro l
    induction l with
    | nil => intro x p; simp
    | cons q r ih =>
      intro x p
      rw [List.foldl_cons, ih]
      show (p ∈ r ∨ p ∈ pendAdd x.pend q) ↔ _
      rw [mem_pendAdd]
      simp only [List.mem_cons]
      constructor
      · rintro (h | h | h) <;> simp [h]
      · rintro ((h | h) | h) <;> simp [h]
  have hst := stickySeat_vec hc hm (ctxOf s) i (ps.foldl (fun x p => x.addPend p) (f (s.me.warned bits)))
  obtain ⟨t, h1, h2, h3⟩ := engine_clean i s sl m _ _ (f (s.me.warned bits)) [] hc hs ho hi hact ⟨rfl, rfl, rfl⟩
    (by
      rw [hst]
      generalize stickyAfter _ _ _ = r
      rw [hfold]
      rfl)
    (by rw [hst, hfold]; exact hf.2.1)
    (by
      intro q _ _
      rw [hst, hfold]
      exact hf.2.2 q)
    (by
      intro q _ hidle p hp hd _
      rw [hst] at hp
      have : p ∈ (ps.foldl (fun x p => x.addPend p) (f (s.me.warned bits))).pend := hp
      rcases (hmem _ _ _).mp this with h | h
      · have := hps p h
        omega
      · rw [hf.1] at h
        exact hidle p h)
  refine ⟨t, h1, h2.core_mono ?_, ?_⟩
  · rfl
  · intro p hp
    refine h3 p ?_ (.inl (hps p hp))
    rw [hst]
    exact (hmem _ _ _).mpr (.inl hp)

/-- A form that writes a vector or o register. -/
theorem vout_clean (i : Instr) (s : State) (sl : Slot) (f : FVR) (no32 : Bool) (k : Ctx → W64) (r : Ctx → BitVec 2048) (hc : s.Clean sl)
    (hsl : sl = .v0 ∨ sl = .v1) (hcau : (vIn (ctxOf s) i f).causes = []) (hlat : 0 < (vuOf i).lat) :
    ∃ t, slotOp i s (fun c => (vIn c i f).out no32 (k c) (r c)) = .next t ∧
      s.LeavesCore t s.myCore (s.me.warned (vrWarn f (vuOf i) false no32)) [] ∧
      vPend (ctxOf s) f.d (ctxOf s).o1 (k (ctxOf s)) (r (ctxOf s)) (vuOf i).lat ∈ (t.hw.seat s.cur.seat).pend := by
  obtain ⟨t, h1, h2, h3⟩ := vec_clean i s sl (fun c => (vIn c i f).out no32 (k c) (r c)) (vrWarn f (vuOf i) false no32) (vuOf i).occ
    [vPend (ctxOf s) f.d (ctxOf s).o1 (k (ctxOf s)) (r (ctxOf s)) (vuOf i).lat] id hc hsl
    (by simp only [VIn.out, hcau, Out.check, List.isEmpty_nil, if_true])
    (by simp only [VIn.out, hcau, Out.check, List.isEmpty_nil, if_true]; rfl)
    (by
      simp only [VIn.out, hcau, Out.check, List.isEmpty_nil, if_true]
      simp only [Hw.run_all_cons, Hw.run_all_nil]
      exact ((EngineIs.refl s).warnBits hc _ |>.holdPath hc _ _).modSeat _)
    ⟨rfl, hc.brk, fun _ => rfl⟩
    (by
      intro p hp
      rw [List.mem_singleton] at hp
      rw [hp]
      show s.coreTime < (ctxOf s).t + _
      rw [hc.ctx_t]
      omega)
  exact ⟨t, h1, h2, h3 _ (List.mem_singleton.mpr rfl)⟩

/-- A form that writes a lane mask. -/
theorem voutK_clean (i : Instr) (s : State) (sl : Slot) (f : FVR) (r : Ctx → W64) (hc : s.Clean sl)
    (hsl : sl = .v0 ∨ sl = .v1) (hcau : (vIn (ctxOf s) i f).causes = []) (hlat : 0 < (vuOf i).lat) :
    ∃ t, slotOp i s (fun c => (vIn c i f).outK (r c)) = .next t ∧
      s.LeavesCore t s.myCore (s.me.warned (vrWarn f (vuOf i) false false)) [] ∧
      (f.d.toNat % 8 ≠ 0 → kPend (ctxOf s) (f.d.toNat % 8) (r (ctxOf s)) (vuOf i).lat ∈ (t.hw.seat s.cur.seat).pend) := by
  obtain ⟨t, h1, h2, h3⟩ := vec_clean i s sl (fun c => (vIn c i f).outK (r c)) (vrWarn f (vuOf i) false false) (vuOf i).occ
    (if f.d.toNat % 8 ≠ 0 then [kPend (ctxOf s) (f.d.toNat % 8) (r (ctxOf s)) (vuOf i).lat] else []) id hc hsl
    (by simp only [VIn.outK, hcau, Out.check, List.isEmpty_nil, if_true])
    (by simp only [VIn.outK, hcau, Out.check, List.isEmpty_nil, if_true]; rfl)
    (by
      simp only [VIn.outK, hcau, Out.check, List.isEmpty_nil, if_true]
      simp only [Hw.run_all_cons, Hw.run_all_nil, wK, Hw.run_when]
      have hE := (EngineIs.refl s).warnBits hc (vrWarn f (vuOf i) false false) |>.holdPath hc (pVec (vUnit (ctxOf s))) (vuOf i).occ
      by_cases hd : f.d.toNat % 8 = 0
      · have hb : ((vIn (ctxOf s) i f).f.d.toNat % 8 != 0) = false := by
          show (f.d.toNat % 8 != 0) = false
          simpa using hd
        rw [hb]
        rw [if_neg Bool.false_ne_true, if_neg (show ¬(f.d.toNat % 8 ≠ 0) from fun h => h hd)]
        exact hE
      · have hb : ((vIn (ctxOf s) i f).f.d.toNat % 8 != 0) = true := by
          show (f.d.toNat % 8 != 0) = true
          simpa using hd
        rw [hb]
        rw [if_pos rfl, if_pos hd]
        exact hE.modSeat _)
    ⟨rfl, hc.brk, fun _ => rfl⟩
    (by
      intro p hp
      split at hp
      · rw [List.mem_singleton] at hp
        rw [hp]
        show s.coreTime < (ctxOf s).t + _
        rw [hc.ctx_t]
        omega
      · cases hp)
  refine ⟨t, h1, h2, fun hd => h3 _ ?_⟩
  rw [if_pos hd]
  exact List.mem_singleton.mpr rfl

end Sys2Proof.Machine
end

