-- ==== Sys2Proof/Tests/Slice0.lean ====
section
/-! SUPPORT. Tests: ill-formed terms, words written out from the formats of R173 to R177, single steps whose results are worked out by hand from
the spec, and for every statement states that meet its hypotheses. -/

namespace Sys2Proof.Tests
open Sys2Proof Sys2Proof.Machine Sys2Proof.Claim
set_option Elab.async false

/-! ### Small states -/

/-- A seat with a whole core's windows. -/
def seat : Seat := { st := .run, inst := 1, pc := 0x1000, lrec := { xn := 32, vn := 64, gn := 64, an := 8, bn := 4, hn := 8, ln := 32, fcnt := 64 } }

/-- The hardware with seat 0 of core 0 alone, at ck 1000. -/
def hw (x : Seat) (c : Core) : Hw := { seats := [(0, x)], cores := [(0, c)], glob := { now := 1000 } }

/-- A bundle of one slot of seat 0 is in flight. -/
def st (x : Seat) (c : Core) (sl : Slot) (i : Instr) : State :=
  { hw := hw x c, pre := none, cur := { seat := 0, slots := [{ slot := sl, instr := i }], on := true, pc := 0x1000, len := 8 }, ev := .ext .nop }

/-- An event is in flight. -/
def ev (h : Hw) (e : Event) : State := { hw := h, pre := none, cur := {}, ev := e }

theorem st_me (x : Seat) (c : Core) (sl : Slot) (i : Instr) : (st x c sl i).me = x := rfl

theorem st_clean (x : Seat) (c : Core) (sl : Slot) (i : Instr) (h : x.chkmode = false) (b : x.brk = false) : (st x c sl i).Clean sl :=
  ⟨Nat.le_refl 1, rfl, rfl, rfl, rfl, ⟨rfl, rfl, rfl⟩, h, b, rfl⟩

theorem st_core (x : Seat) (c : Core) (sl : Slot) (i : Instr) : coreOf (st x c sl i).cur.seat = 0 := by
  show coreOf 0 = 0; decide

theorem st_my_core (x : Seat) (c : Core) (sl : Slot) (i : Instr) : (st x c sl i).myCore = c := by
  simp only [State.myCore, st_core]; rfl

theorem st_reach (x : Seat) (c : Core) (sl : Slot) (i : Instr) : reachable (st x c sl i).hw (pkgOfCore (coreOf (st x c sl i).cur.seat)) 0 = true := by
  simp only [st_core, reachable, show pkgOfCore 0 = 0 from by decide]; rfl

theorem st_healthy (x : Seat) (c : Core) (sl : Slot) (i : Instr) (h : c.tlb = []) : Healthy (st x c sl i) := by
  refine ⟨fun q hq => ?_, fun e he => ?_, fun _ n (hn : n < 1) => ?_, fun _ he => absurd he List.not_mem_nil, fun _ => rfl⟩
  · have e : q = 0 := Nat.lt_one_iff.mp hq
    subst e; exact st_reach x c sl i
  · rw [st_my_core, h] at he; exact absurd he List.not_mem_nil
  · obtain rfl := Nat.lt_one_iff.mp hn
    show ((({} : Img).troot + 8 * 0) / 2 ^ 46) < 1
    decide +kernel

theorem st_quiet (x : Seat) (c : Core) (sl : Slot) (i : Instr) : Quiet (st x c sl i) := fun _ he => absurd he List.not_mem_nil

theorem st_open (x : Seat) (c : Core) (sl : Slot) (i : Instr) (n : Nat) : Open (st x c sl i) 0 n := ⟨st_reach x c sl i, rfl⟩

/-- The result of an instruction: what is read of its next state. -/
def after {α : Type} (o : Host.Outcome State Fault Refusal) (f : State → α) : Option α :=
  match o with
  | .next t => some (f t)
  | _ => none

/-! ### What no well-formed instruction is (R178) -/

theorem ill_sz : WellFormed (.ld ⟨1, 2, 7, false, .short 0⟩) = false := by decide
theorem ill_end : WellFormed (.loop 0 5) = false := by decide
theorem ill_dest : WellFormed (.vadd ⟨72, 1, 2, 0, none⟩) = false := by decide
theorem ill_source : WellFormed (.vadd ⟨1, 76, 2, 0, none⟩) = false := by decide
theorem ill_width : WellFormed (.vadd ⟨1, 2, 3, 0, some ⟨3, 0, false, 0, false, false, 0⟩⟩) = false := by decide
theorem ill_step_immediate : WellFormed (.vadd ⟨1, 2, 0, 0, some ⟨0, 0, false, 0, true, true, 5⟩⟩) = false := by decide
theorem ill_unused : WellFormed (.vadd ⟨1, 2, 3, 0, some ⟨0, 0, false, 0, false, false, 5⟩⟩) = false := by decide
theorem ill_latch_format : WellFormed (.latch ⟨0, 0, 0, 9, none⟩) = false := by decide
theorem ill_scope : WellFormed (.fadd ⟨1, 2, 3, some ⟨false, true, 0⟩⟩) = false := by decide
theorem ill_mod : WellFormed (.tldd ⟨0, 1, 2, 1, none⟩) = false := by decide
theorem ill_slot : WellFormed (.scan ⟨0, 0, 0, false, 0, some ⟨0, 0, 5⟩⟩) = false := by decide
theorem well_formed_forms : WellFormed (.ld ⟨1, 2, 3, true, .long 5 7⟩) = true ∧ WellFormed (.vmov ⟨1, 0, 0, 0, some ⟨0, 0, false, 0, false, true, 9⟩⟩) = true := by
  decide

/-! ### Words written out from the formats (R173 to R177, R180 to R183) -/

theorem word_sub : decodeSlot .s 0b0000010_0_00001_00010_00011_00000000_0 none = .ok (.sub ⟨1, 2, 3, false⟩) := rfl
theorem word_clz : decodeSlot .s 0b0011000_0_00001_00010_00000_00000000_1 none = .ok (.clz ⟨1, 2, true⟩) := rfl
theorem word_li : decodeSlot .s 0b0101001_0_00111_00000_11111111111111 none = .ok (.li 7 (.short 0x3FFF)) := rfl
theorem word_blt : decodeSlot .s 0b0110010_0_00001_00010_00000000000111 none = .ok (.blt ⟨1, 2, .short 7⟩) := rfl
theorem word_jal : decodeSlot .s 0b0110111_1_000000000000000000000000 (some 0x80000000) = .ok (.jal (.long 0x80000000)) := rfl
theorem word_loop : decodeSlot .s 0b0111001_1_00000_000_0000000000000011 (some 9) = .ok (.loop 3 9) := rfl
theorem word_loopr : decodeSlot .s 0b0111010_0_00100_000_0000000000000010 none = .ok (.loopr 4 2) := rfl
theorem word_st_long : decodeSlot .s 0b1000001_1_00001_00010_010_0_0000000000 (some 0b000000000101_00000000000000001000) =
    .ok (.st ⟨1, 2, 2, false, .long 5 8⟩) := rfl
theorem word_amocas : decodeSlot .s 0b1001101_0_00001_00010_00011_1_00000000 none = .ok (.amocas ⟨1, 2, 3, true, none⟩) := rfl
theorem word_csrw : decodeSlot .s 0b1010001_0_00001_00010_00000000010100 none = .ok (.csrw ⟨1, 2, 0x14⟩) := rfl
theorem word_shset : decodeSlot .s 0b1010100_0_00000_00010_0000000000_0011 none = .ok (.shset 2 3) := rfl
theorem word_fadd_release : decodeSlot .s 0b1011011_1_00000_00010_00011_000000101 (some 0b1_1_10_0000000000000000000000000000) =
    .ok (.fadd ⟨2, 3, 5, some ⟨true, true, 2⟩⟩) := rfl
theorem word_fwait : decodeSlot .s 0b1011110_0_00001_00010_00011_111111111 none = .ok (.fwait ⟨1, 2, 3⟩ 511) := rfl
theorem word_trap : decodeSlot .s 0b1110000_0_00000_00000_00000000011111 none = .ok (.trap 31) := rfl
theorem word_trap_32 : decodeSlot .s 0b1110000_0_00000_00000_00000000100000 none = .error ⟨2, false⟩ := rfl
theorem word_vext : decodeSlot .v0 0b1001101_1_1100001_0000101_0000000_000 (some 0b00_00_0_000_0_1_0_000000000000000000111) =
    .ok (.vext ⟨97, 5, 0, 0, some ⟨0, 0, false, 0, false, true, 7⟩⟩) := rfl
theorem word_vld_tile : decodeSlot .v0 0b1000000_0_0000011_00010_0_1_001_0000000 none = .ok (.vldTs ⟨3, 2, false, 1, 0, none⟩) := rfl
theorem word_vst_sidecar : decodeSlot .v1 0b1000001_0_0000011_00010_1_1_000_0000000 none = .ok (.vstSc ⟨3, 2, true, 0, 0, none⟩) := rfl
theorem word_vplane : decodeSlot .v0 0b1001000_0_0000011_00010_0_0_001_0000010 none = .ok (.vplane ⟨3, 2, false, 1, 2, none⟩) := rfl
theorem word_latch : decodeSlot .m 0b0001000_1_10_00000101_0011_1000_000000 (some 0b0000000000000000_11111111_00000000) =
    .ok (.latch ⟨2, 5, 3, 8, some 0xFF⟩) := rfl
theorem word_epi : decodeSlot .m 0b0011000_0_011_00000100_0001_1001_10_000 none = .ok (.epi ⟨3, 4, 1, 9, 2, none⟩) := rfl
theorem word_ascl : decodeSlot .m 0b0010100_1_001_010_00000000_0011_0000_00 (some 0b0000101_1000000_000000_000000000000) =
    .ok (.ascl ⟨1, 2, 0, 3, 0, some ⟨5, 64, 0⟩⟩) := rfl
theorem word_scan : decodeSlot .m 0b0100000_1_001_00001000_010_1_0011_00000 (some 0b000001000000_0000_00000001_01100000) =
    .ok (.scan ⟨1, 8, 2, true, 3, some ⟨64, 1, 96⟩⟩) := rfl
theorem word_nrecv : decodeSlot .c0 0b0010101_1_00000100_01_0010_00000_1_0000 (some 0b00000010_00000000_0000000001100100) =
    .ok (.nrecv ⟨4, 1, 2, 0, true, some ⟨2, 100⟩⟩) := rfl
theorem word_lhint : decodeSlot .c1 0b0011010_0_00001_00010_00000000000000 none = .ok (.lhint 1 2) := rfl
theorem word_creq : decodeSlot .c0 0b0011100_0_00001_00010_00011_000000111 none = .ok (.creq ⟨1, 2, 3, 7⟩) := rfl
theorem word_cysnd : decodeSlot .c0 0b0101000_0_001_00000010_00011_00000000 none = .ok (.cysnd ⟨1, 2, 3, none⟩) := rfl
theorem word_xstat : decodeSlot .c0 0b0100010_0_00001_00010_00011_000000101 none = .ok (.xstatFail 1 2 3) := rfl
theorem header_decodes : decodeHeader 0b1011_000001_1_00111_0101_1_00000000000 = .ok ⟨1, true, 7, 5, true⟩ := rfl
theorem header_mark : decodeHeader 0b1010_000001_0_00000_0000_0_00000000000 = .error ⟨0, false⟩ := rfl
theorem header_reserved : decodeHeader 0b1011_000001_0_00000_0000_0_00000000001 = .error ⟨1, false⟩ := rfl
theorem table_word : decodeTableWord 32 0b0000001_0_00001_00010_00011_00000000_0 = some (.add ⟨1, 2, 3, false⟩) := rfl

/-! ### Words of the worked programs (R237) -/

theorem word_worked_li : decodeSlot .s 0x53B00000 (some 0x33800000) = .ok (.li 22 (.long 0x33800000)) := rfl
theorem word_worked_vcmp : decodeSlot .v0 0x41032C00 (some 0x02400004) = .ok (.vcmp ⟨1, 75, 0, 0, some ⟨0, 0, false, 2, false, true, 4⟩⟩) := rfl
theorem word_worked_vrfadd : decodeSlot .v0 0x6E020001 none = .ok (.vrfadd ⟨1, 0, 0, 1, none⟩) := rfl
theorem word_worked_header : decodeHeader 0xB1C00000 = .ok ⟨7, false, 0, 0, false⟩ := rfl

/-! ### Scalar forms, with the worked values of R193 -/

/-- xa and xb of R193 in x2 and x3. -/
def seatR193 : Seat := { seat with x := [(2, 0xFFFFFFFF80000000), (3, 0x00000000FFFFFFFF)] }

/-- x1 after an instruction. -/
def x1After (x : Seat) (c : Core) (i : Instr) : Option W64 := after (exec i (st x c .s i)) (fun t => (t.hw.seat 0).xr 1)

theorem test_add : x1After seatR193 {} (.add ⟨1, 2, 3, false⟩) = some 0x7FFFFFFF := by decide +kernel
theorem test_add_w : x1After seatR193 {} (.add ⟨1, 2, 3, true⟩) = some 0x7FFFFFFF := by decide +kernel
theorem test_adds_w : x1After seatR193 {} (.adds ⟨1, 2, 3, true⟩) = some 0xFFFFFFFF80000000 := by decide +kernel
theorem test_addx : x1After seatR193 {} (.addx ⟨1, 2, 3, false⟩) = some 0x7FFFFFFF := by decide +kernel
theorem test_clz_w : x1After seatR193 {} (.clz ⟨1, 2, true⟩) = some 0 := by decide +kernel
theorem test_sltu : x1After seatR193 {} (.sltu ⟨1, 2, 3, false⟩) = some 0 := by decide +kernel
theorem test_sra_w : x1After seatR193 {} (.sra ⟨1, 2, 2, true⟩) = some 0xFFFFFFFF80000000 := by decide +kernel
theorem test_x0 : after (exec (.add ⟨0, 2, 3, false⟩) (st seatR193 {} .s .nop)) (fun t => (t.hw.seat 0).xr 0) = some 0 := by decide +kernel
theorem test_lih : x1After seatR193 {} (.lih ⟨1, 2, .short 0x3FFF⟩) = some 0xFFFFFFFF80000000 := by decide +kernel
theorem test_slti : x1After seatR193 {} (.slti ⟨1, 2, .short 0⟩) = some 1 := by decide +kernel
/-- R193: −2^31 divided by −1 stays, seventeen ck later. -/
theorem test_div_w : after (exec (.div ⟨1, 2, 3, true⟩) (st seatR193 {} .s .nop))
    (fun t => (t.hw.seat 0).pend.map (fun p => (p.reg, p.due, oOf p.val))) = some [(1, 1017, 0xFFFFFFFF80000000)] := by decide +kernel
theorem test_mulhu_w : after (exec (.mulhu ⟨1, 2, 3, true⟩) (st seatR193 {} .s .nop))
    (fun t => (t.hw.seat 0).pend.map (fun p => (p.due, oOf p.val))) = some [(1002, 0x7FFFFFFF)] := by decide +kernel
/-- A branch goes back two words, a taken one only. -/
theorem test_blt : after (exec (.blt ⟨2, 3, .short 0x3FFE⟩) (st seatR193 {} .s .nop)) (fun t => (t.hw.seat 0).pc) = some 0xFF8 := by decide +kernel
theorem test_bltu : after (exec (.bltu ⟨2, 3, .short 0x3FFE⟩) (st seatR193 {} .s .nop)) (fun t => (t.hw.seat 0).pc) = some 0x1008 := by decide +kernel
theorem test_jalr_link : after (exec (.jalr ⟨2, 2, .short 4⟩) (st { seatR193 with x := [(2, 0x2000)] } {} .s .nop))
    (fun t => ((t.hw.seat 0).pc, (t.hw.seat 0).xr 2)) = some (0x2004, 0x1008) := by decide +kernel
theorem test_loop_skip : after (exec (.loop 3 1) (st seat {} .s .nop)) (fun t => (t.hw.seat 0).loops.map (fun l => (l.start, l.stop, l.count))) =
    some [(0x1008, 0x100C, 1)] := by decide +kernel
theorem test_csrs : after (exec (.csrs ⟨1, 2, 0x11⟩) (st { seat with x := [(2, 0xFF)] } {} .s .nop))
    (fun t => ((t.hw.seat 0).xr 1, (t.hw.seat 0).chkmode)) = some (0, true) := by decide +kernel
theorem test_warn_clears : after (exec (.csrc ⟨1, 2, 0x12⟩) (st { seat with x := [(2, 0x03)], warn := 0x06 } {} .s .nop))
    (fun t => ((t.hw.seat 0).xr 1, (t.hw.seat 0).warn)) = some (6, 4) := by decide +kernel
theorem test_shset : after (exec (.shset 2 3) (st { seat with x := [(2, 77)] } {} .s .nop)) (fun t => (t.hw.seat 0).dr 3) = some 77 := by decide +kernel
theorem test_ftest : x1After seat { flags := [(5, 9)] } (.ftest 1 5) = some 9 := by decide +kernel
theorem test_fwait_passes : x1After { seat with x := [(3, 9)] } { flags := [(5, 9)] } (.fwait ⟨1, 2, 3⟩ 5) = some 0x10009 := by decide +kernel
theorem test_fwait_waits : after (exec (.fwait ⟨1, 2, 3⟩ 5) (st { seat with x := [(2, 7), (3, 10)] } { flags := [(5, 9)] } .s .nop))
    (fun t => (t.hw.seat 0).wait) = some (.fwait 5 10 1000 7 1 2 3) := by decide +kernel
theorem test_sleep_past : after (exec (.sleepuntil 2) (st { seat with x := [(2, 1000)] } {} .s .nop)) (fun t => (t.hw.seat 0).st) = some .run := by
  decide +kernel
theorem test_sleep : after (exec (.sleepuntil 2) (st { seat with x := [(2, 1001)] } {} .s .nop)) (fun t => (t.hw.seat 0).st) = some .parked := by
  decide +kernel
theorem test_exit : after (exec .exit (st seat {} .s .nop)) (fun t => (t.hw.seat 0).st) = some .retiring := by decide +kernel
theorem test_trap_behind : after (exec (.trap 3) (st seat {} .s .nop)) (fun t => ((t.hw.seat 0).pc, (t.hw.seat 0).pendCause.map (fun c => c.code))) =
    some (0x1008, [0x1E3]) := by decide +kernel
/-- R379 to R382: a divide by zero in a seat with a trap vector goes there, with the bundle's address in TPC. -/
theorem test_trap_taken : after (exec (.div ⟨1, 2, 3, false⟩) (st { seat with tvec := 0x4000, x := [(2, 9)] } {} .s .nop))
    (fun t => ((t.hw.seat 0).pc, (t.hw.seat 0).tpc, (t.hw.seat 0).tcause.toNat % 512, (t.hw.seat 0).tval, (t.hw.seat 0).handler)) =
    some (0x4000, 0x1000, 0x058, 9, true) := by decide +kernel
theorem test_eret : after (exec .eret (st { seat with handler := true, tpc := 0x1010, shadow := { mpc := 0x88 } } {} .s .nop))
    (fun t => ((t.hw.seat 0).pc, (t.hw.seat 0).handler, (t.hw.seat 0).mpc, (t.hw.seat 0).nextIssue)) = some (0x1010, false, 0x88, 1003) := by decide +kernel
/-- R199, R201: eight bytes at 0x3C cross a line: two parts; the result may land LDDEF = 6 ck later (R72). -/
theorem test_ld_splits : after (exec (.ld ⟨1, 2, 3, false, .short 0x3FC⟩) (st { seat with x := [(2, 0x40)] } {} .s .nop))
    (fun t => (t.hw.accs.map (fun a => a.2.parts.map (fun p => (p.va, p.len))), (t.hw.seat 0).pend.map (fun p => p.due))) =
    some ([[(0x3C, 4), (0x40, 4)]], [1006]) := by decide +kernel
theorem test_amo_value : amoNew .min 32 0xFFFFFFFF 5 0 = 0xFFFFFFFF ∧ amoNew .minu 32 0xFFFFFFFF 5 0 = 5 ∧ amoNew .cas 32 7 9 7 = 9 ∧ amoNew .cas 32 8 9 7 = 8 := by
  decide +kernel

/-! ### Worked words of chapters 10 and 11 -/

theorem word_worked_qset : decodeSlot .m 0x48008000 none = .ok (.qset ⟨0, 4, 0, false, 0, none⟩) := rfl
theorem word_worked_hld : decodeSlot .m 0x58000000 none = .ok (.hld ⟨0, 0, 0, false, 0, none⟩) := rfl
theorem word_worked_scanl : decodeSlot .m 0x42010020 none = .ok (.scanl ⟨0, 8, 0, false, 1, none⟩) := rfl
theorem word_worked_tld : decodeSlot .c0 0x0308A540 (some 0x01010028) = .ok (.tld ⟨8, 20, 21, 0, some ⟨1, 0, 1, 40⟩⟩) := rfl
theorem word_worked_tcpy : decodeSlot .c0 0x1808B003 none = .ok (.tcpy ⟨8, 22, 0, 3, none⟩) := rfl

/-! ### Vector forms, with the worked values of R229 -/

/-- An extension word with a width code alone, with SAT. -/
def xw (w : BitVec 2) (sat : Bool) : VExt := ⟨w, 0, sat, 0, false, false, 0⟩

/-- A and B of R229 in lane 0 of v1 and v2. -/
def seatR229 : Seat := { seat with v := [(1, 0x7F800102), (2, 0x0280FF01)] }

/-- Lane 0 of the one vector result on its way, and the ck of its write. -/
def lane0 (x : Seat) (c : Core) (sl : Slot) (i : Instr) : Option (List (Nat × BitVec 32)) :=
  after (exec i (st x c sl i)) (fun t => (t.hw.seat 0).pend.map (fun p => (p.due, ln p.val 0)))

theorem test_vadd_x4 : lane0 seatR229 {} .v0 (.vadd ⟨3, 1, 2, 0, some (xw 2 false)⟩) = some [(1001, 0x81000003)] := by decide +kernel
/-- R229: its table gives element 1 of these two, 1 + (−1) and max(1, −1); the worked rows beside it take 0 for 1. -/
theorem test_vadd_x4_sat : lane0 seatR229 {} .v1 (.vadd ⟨3, 1, 2, 0, some (xw 2 true)⟩) = some [(1001, 0x7F800003)] := by decide +kernel
theorem test_vmax_x4 : lane0 seatR229 {} .v0 (.vmax ⟨3, 1, 2, 0, some (xw 2 false)⟩) = some [(1001, 0x7F800102)] := by decide +kernel
/-- R228: an addition of FP32 elements is written three ck later: 1.0 + 2.0. -/
theorem test_vfadd : lane0 { seat with v := [(1, 0x3F800000), (2, 0x40000000)] } {} .v0 (.vfadd ⟨3, 1, 2, 0, none⟩) = some [(1003, 0x40400000)] := by
  decide +kernel
theorem test_vslide : lane0 { seat with v := [(1, 7 * 2 ^ 32), (2, 1)] } {} .v0 (.vslide ⟨3, 1, 2, 0, none⟩) = some [(1002, 7)] := by decide +kernel
theorem test_vpushc : after (exec (.vpushc ⟨0, 1, 1, 1, none⟩) (st { seat with v := [(1, 7 * 2 ^ 32 + 5)], k := [(1, 3)] } {} .v0 .nop))
    (fun t => (t.hw.seat 0).stream 1) = some [5, 7] := by decide +kernel
/-- R240: lane 0 of a tile-store load at byte 8 of granule 1. -/
theorem test_vld_ts : lane0 { seat with x := [(2, 4104)] } { tile := [(513, 0xAABBCCDD11223344)] } .v0 (.vldTs ⟨3, 2, false, 0, 0, none⟩) =
    some [(1003, 0x11223344)] := by decide +kernel

/-! ### Matrix and scan forms -/

/-- A shape record of window M × K × N at the first row and column (R61). -/
def shape (m k n : Nat) : W64 := BitVec.ofNat 64 (m + k * 2 ^ 7 + n * 2 ^ 14 + 2 ^ 37 + 2 ^ 43)

/-- R83's worked tile image at granule 1: INT8, with −3 in row 2, column 5. -/
def coreR83 : Core := {
  tile := [(514, 0x20), (578, 0x20), (642, 0x20), (706, 0x20), (770, 0x20), (834, 0x20), (962, 0x20)], latch := [(0, { fmt := 2, el := [(320, 7)] })] }

theorem test_shape_record : shape 4 1 1 = 0x0000082000004084 := by decide
theorem test_latch : after (exec (.latch ⟨1, 1, 1, 2, none⟩) (st { seat with d := [(1, shape 3 3 6)] } coreR83 .m .nop))
    (fun t => (SMap.get {} (t.hw.core 0).latch 1).el) = some [(133, 0xFD)] := by decide +kernel
/-- R249: −3 in A's row 2, column 5, times 7 in B's row 5, column 0. -/
theorem test_mma : after (exec (.mma ⟨1, 1, 0, 1, false, true, 1, none⟩) (st { seat with d := [(1, shape 3 6 1)] } coreR83 .m .nop))
    (fun t => [0, 1, 2].map (fun r => let a := (t.hw.core 0).accRow 1 r; (a.e, (a.at_ 0).m))) = some [(0, 0), (0, 0), (0, -21)] := by decide +kernel

/-- The operands of the worked rows of R94: A as FP16 at granule 1, row 0, and B as FP16 in latch 0. -/
def coreR94 (a b : Nat × Nat) (acc : ARow) : Core := {
  tile := SMap.setAll 0 [] ((List.range 16).map (fun p => (512 + 64 * p, BitVec.ofNat 64 ((a.1 / 2 ^ (15 - p)) % 2 + (a.2 / 2 ^ (15 - p)) % 2 * 2))))
  latch := [(0, { fmt := 7, el := [(0, b.1), (64, b.2)] })], acc := if acc = {} then [] else [(0, acc)] }

theorem test_mma_truncates : after (exec (.mma ⟨0, 1, 0, 1, false, true, 6, none⟩)
      (st { seat with d := [(1, shape 1 2 1)] } (coreR94 (0x3C00, 1) (0x3C00, 0x8001) {}) .m .nop))
    (fun t => let r := (t.hw.core 0).accRow 0 0; (r.e, (r.at_ 0).m, r.headroom)) = some (-43, 0x7FFFFFFFFFF, 4) := by decide +kernel
theorem test_mma_renormalises : after (exec (.mma ⟨0, 1, 0, 1, false, false, 6, none⟩)
      (st { seat with d := [(1, shape 1 2 1)] } (coreR94 (0x6400, 0) (0x6400, 0) { e := -43, el := [(0, mkElem 0 0x7FFFFFFFFFF)], start := false }) .m .nop))
    (fun t => let r := (t.hw.core 0).accRow 0 0; (r.e, (r.at_ 0).m, SMap.get 0 (t.hw.seat 0).accev 0)) = some (-23, 0x80000800000, 1) := by decide +kernel
theorem test_azero : after (exec (.azero ⟨1, 0, 0, 0, 0, none⟩) (st seat { acc := [(64, { e := 3, start := false })] } .m .nop))
    (fun t => ((t.hw.core 0).accRow 1 0, (t.hw.seat 0).mpc)) = some ({}, 8) := by decide +kernel

/-- The worked AFFINE tile of chapter 10, at its SCANL. -/
def coreScan4 : Core := {
  tile := SMap.setAll 0 [] [(4096, 0x40000000), (4128, 0x40400000), (4160, 0x3F000000), (4192, 0x40000000), (6144, 0x3F800000), (6176, 0x3F800000),
    (6208, 0x40800000), (6240, 0xBF800000)]
  ht := [(0, 0x3F800000), (64, 0x41200000)] }

/-- Its seat, in flight. -/
def atScan4 : State :=
  st { seat with lrec := { seat.lrec with gn := 16, hn := 1 }, d := [(1, shape 4 1 1)], q := [(0, 0x01016517)] } coreScan4 .m .nop

theorem test_scanl_carry : after (exec (.scanl ⟨0, 8, 0, false, 1, none⟩) atScan4) (fun t => ((t.hw.core 0).ht, (t.hw.seat 0).mpc)) =
    some ([(0, 0x40C00000), (64, 0x428E0000)], 8) := by decide +kernel
theorem test_scanl_a : after (exec (.scanl ⟨0, 8, 0, false, 1, none⟩) atScan4) (fun t => [0, 1, 2, 3].map (fun r => SMap.get 0 (t.hw.core 0).tile (4096 + 32 * r))) =
    some [0x40000000, 0x40C00000, 0x40400000, 0x40C00000] := by decide +kernel
theorem test_scanl_b : after (exec (.scanl ⟨0, 8, 0, false, 1, none⟩) atScan4) (fun t => [0, 1, 2, 3].map (fun r => SMap.get 0 (t.hw.core 0).tile (6144 + 32 * r))) =
    some [0x41A80000, 0x42800000, 0x42100000, 0x428E0000] := by decide +kernel

/-! ### Copy forms -/

/-- A packet's remote write: its core, seat, granule and number of granules, and whether it adds 1 to flag f20. -/
def writeOf (p : Packet) : List (List Nat × Bool) :=
  match p.deliver with
  | .event (.inboundRemoteWrite m) => [([p.dst, m.core, m.granule, m.grans], !m.seat && m.flag == some (20, .add 1))]
  | _ => []

/-- R287, R297: chapter 11's destination word, with one granule: it goes to core 41, t16, with 1 to add to f20. -/
theorem test_tcpy : after (exec (.tcpy ⟨8, 22, 0, 0, none⟩) (st { seat with x := [(22, 0xA4400029)] } { tile := [(4096, 9)] } .c0 .nop))
    (fun t => let l := t.hw.clusters.flatMap (fun c => c.2.inj)
      (l.length, uniq (l.map (fun p => p.len)), (l.take 1).flatMap writeOf)) = some (32, [128], [([5, 41, 16, 1], true)]) := by decide +kernel
theorem test_cpoll_none : after (exec (.cpoll 1 2) (st { seat with x := [(1, 5)] } {} .c0 .nop)) (fun t => (t.hw.seat 0).xr 1) = some 0 := by decide +kernel
theorem test_creq : after (exec (.creq ⟨1, 2, 3, 7⟩) (st { seat with x := [(2, 4), (3, 6)] } {} .c0 .nop))
    (fun t => ((t.hw.seat 0).xr 1, (t.hw.cluster 0).mbox.map (fun e => (e.fn, e.a, e.b, e.st)))) = some (1, [(7, 4, 6, 1)]) := by decide +kernel

/-! ### For every statement, states that meet its hypotheses -/

/-- Hardware h with a bundle of one slot of seat 0 in flight. -/
def fl (h : Hw) (sl : Slot) : State :=
  { hw := h, pre := none, cur := { seat := 0, slots := [{ slot := sl, instr := .nop }], on := true, pc := 0x1000, len := 8 }, ev := .ext .nop }

theorem fl_clean (h : Hw) (sl : Slot) (a : (h.seat 0).chkmode = false) (b : (h.seat 0).brk = false) : (fl h sl).Clean sl :=
  ⟨Nat.le_refl 1, rfl, rfl, rfl, rfl, ⟨rfl, rfl, rfl⟩, a, b, rfl⟩

theorem idle_of_empty (x : Seat) (q : Port × Nat) (h : x.pend = []) : x.Idle q := fun _ hp => absurd (h ▸ hp) List.not_mem_nil

/-- xa and xb of R193 at a scalar slot. -/
def atS : State := st seatR193 {} .s .nop

theorem atS_clean : atS.Clean .s := st_clean _ _ _ _ rfl rfl
theorem atS_idle (q : Port × Nat) : atS.me.Idle q := idle_of_empty _ q rfl
theorem atS_hasX (r : XNum) : atS.HasX r := r.isLt

theorem witness_AluResult : ∃ (s : State) (d a b : XNum) (w : Bool) (f : Instr × (W64 → W64 → W64)),
    f ∈ aluForms d a b w ∧ s.Clean .s ∧ s.HasX d ∧ s.HasX a ∧ s.HasX b ∧ s.me.Idle (.x, d.toNat) :=
  ⟨atS, 1, 2, 3, true, _, .head _, atS_clean, atS_hasX _, atS_hasX _, atS_hasX _, atS_idle _⟩
theorem witness_MultiplyResult : ∃ (s : State) (d a b : XNum) (w : Bool) (f : Instr × (W64 → W64 → W64)),
    f ∈ mulForms d a b w ∧ s.Clean .s ∧ s.HasX d ∧ s.HasX a ∧ s.HasX b ∧ d ≠ 0 :=
  ⟨atS, 1, 2, 3, true, _, .head _, atS_clean, atS_hasX _, atS_hasX _, atS_hasX _, by decide⟩
theorem witness_DivideResult : ∃ (s : State) (d a b : XNum) (w : Bool) (f : Instr × (W64 → W64 → W64)),
    f ∈ divForms d a b w ∧ s.Clean .s ∧ s.HasX d ∧ s.HasX a ∧ s.HasX b ∧ divPart w (s.me.xr b.toNat) ≠ 0 ∧ d ≠ 0 :=
  ⟨atS, 1, 2, 3, true, _, .head _, atS_clean, atS_hasX _, atS_hasX _, atS_hasX _, by decide +kernel, by decide⟩
theorem witness_ImmediateResult : ∃ (s : State) (d a : XNum) (i : Imm 14) (f : Instr × (W64 → W64)),
    f ∈ immForms d a i ∧ s.Clean .s ∧ s.HasX d ∧ s.HasX a ∧ s.me.Idle (.x, d.toNat) :=
  ⟨atS, 1, 2, .short 5, _, .head _, atS_clean, atS_hasX _, atS_hasX _, atS_idle _⟩
theorem witness_BranchGoes : ∃ (s : State) (a b : XNum) (off : Imm 14) (f : Instr × (W64 → W64 → Bool)),
    f ∈ branchForms a b off ∧ s.Clean .s ∧ s.HasX a ∧ s.HasX b ∧ s.cur.last = true ∧ s.me.loops = [] ∧ s.HasX 1 ∧ s.me.Idle (.x, 1) :=
  ⟨atS, 2, 3, .short 5, _, .head _, atS_clean, atS_hasX _, atS_hasX _, rfl, rfl, atS_hasX _, atS_idle _⟩
theorem witness_JumpGoes : ∃ (s : State) (d a : XNum) (i : Imm 14), s.Clean .s ∧ s.cur.last = true ∧ s.HasX d ∧ s.HasX a ∧ s.me.Idle (.x, d.toNat) ∧
    (s.me.xr a.toNat + immVal i).toNat % 4 = 0 :=
  ⟨atS, 1, 2, .short 4, atS_clean, rfl, atS_hasX _, atS_hasX _, atS_idle _, by decide +kernel⟩
/-- LOOPR with the count in x3, one level inside another. -/
theorem witness_LoopOpens : ∃ (s : State) (a : XNum) (e : BitVec 16) (count : BitVec 32) (f : Instr),
    (f = .loopr a e ∧ s.HasX a ∧ count = (s.me.xr a.toNat).setWidth 32) ∧
    s.Clean .s ∧ s.cur.last = true ∧ count ≠ 0 ∧ s.me.loops.length < 4 ∧ (∀ l ∈ s.me.loops, l.stop ≠ s.cur.pc) :=
  ⟨st { seatR193 with loops := [⟨0x0FF0, 0x1004, 3⟩] } {} .s .nop, 3, 1, _, _, ⟨rfl, by show (3 : Nat) < 32; decide, rfl⟩, st_clean _ _ _ _ rfl rfl, rfl,
    by decide +kernel, by decide +kernel, by decide +kernel⟩
/-- The last and the last but one passes of a level. -/
theorem witness_LoopEnds : ∀ n ∈ [1, 2], ∃ (s : State) (l : LoopLvl) (r : List LoopLvl), s.Clean .s ∧ s.cur.last = true ∧
    s.me.loops = l :: r ∧ l.stop = s.cur.pc ∧ (∀ q ∈ r, q.stop ≠ s.cur.pc) ∧ l.count = n :=
  fun n _ => ⟨st { seat with loops := [⟨0x0FF0, 0x1000, n⟩, ⟨0x0F00, 0x1004, 9⟩] } {} .s .nop, _, _, st_clean _ _ _ _ rfl rfl, rfl, rfl, rfl,
    fun q hq => by rw [List.mem_singleton.mp hq]; show 0x1004 ≠ 0x1000; decide, rfl⟩
theorem witness_ControlRead : ∃ (s : State) (d : XNum) (n : BitVec 14) (v : W64),
    s.Clean .s ∧ s.HasX d ∧ s.me.Idle (.x, d.toNat) ∧ n.toNat < 0x3000 ∧ csrRead s.hw s.cur.seat n.toNat = some v :=
  ⟨st { seat with warn := 5 } {} .s .nop, 1, 0x12, 5, st_clean _ _ _ _ rfl rfl, by show (1 : Nat) < 32; decide, idle_of_empty _ _ rfl, by decide,
    by decide +kernel⟩
/-- Every register of the clauses can be read. -/
theorem witness_ControlWrite : ∀ n ∈ csrBits.map (·.1) ++ csrCounts ++ [0x12, 0x13, 0x00, 0x01, 0x02, 0x19], ∃ (s : State) (d a : XNum) (old : W64),
    s.Clean .s ∧ s.HasX d ∧ s.HasX a ∧ s.me.Idle (.x, d.toNat) ∧ csrRead s.hw s.cur.seat n = some old := by
  intro n hn
  have h : (csrRead atS.hw 0 n).isSome = true := by revert n; decide +kernel
  obtain ⟨v, hv⟩ := Option.isSome_iff_exists.mp h
  exact ⟨atS, 1, 2, v, atS_clean, atS_hasX _, atS_hasX _, atS_idle _, hv⟩
theorem witness_ShapeRegisters : ∃ (s : State) (x : XNum), s.Clean .s ∧ s.HasX x ∧ s.me.Idle (.x, x.toNat) :=
  ⟨atS, 2, atS_clean, atS_hasX _, atS_idle _⟩

/-- Seat 0 of instance 1 alone, in a cluster. -/
def inCluster (x : Seat) (c : Cluster) : Hw := { hw { x with inst := 1 } {} with clusters := [(0, c)] }

/-- A seat at queue 1, which has room for two records. -/
def qs (p : List Place) : State := fl (inCluster { seat with x := [(2, 1)] } { queues := [(1, ⟨1, 2, p, 3⟩)] }) .s

/-- The queue full, with one record, empty, and with a record that is not ready. -/
theorem witness_QueueForms : ∀ p ∈ [[⟨1, true, []⟩, ⟨2, true, []⟩], [⟨1, true, List.replicate 8 7⟩], [], [(⟨1, false, []⟩ : Place)]],
    ∃ (s : State) (f : FSQ), s.Clean .s ∧ s.HasX f.d ∧ s.HasX f.a ∧ HasRecord s f.b ∧ s.me.Idle (.x, f.d.toNat) ∧
      Quiet s ∧ (queue s.hw s f.a).inst = s.me.inst ∧ s.me.inst ≠ 0 ∧ (queue s.hw s f.a).cap = 2 ∧ (queue s.hw s f.a).places = p ∧
      (queue s.hw s f.a).places.all (fun q => q.id != (queue s.hw s f.a).next) = true := by
  intro p hp
  have key : ∀ p ∈ [[⟨1, true, []⟩, ⟨2, true, []⟩], [⟨1, true, List.replicate 8 7⟩], [], [(⟨1, false, []⟩ : Place)]],
    (queue (qs p).hw (qs p) 2).inst = (qs p).me.inst ∧ (qs p).me.inst ≠ 0 ∧ (queue (qs p).hw (qs p) 2).cap = 2 ∧ (queue (qs p).hw (qs p) 2).places = p ∧
      (queue (qs p).hw (qs p) 2).places.all (fun q => q.id != (queue (qs p).hw (qs p) 2).next) = true := by decide +kernel
  refine ⟨qs p, ⟨1, 2, 3⟩, fl_clean _ _ rfl rfl, ?_, ?_, ?_, idle_of_empty _ _ rfl, fun _ h => absurd h List.not_mem_nil, key p hp⟩
  · show (1 : Nat) < 32; decide
  · show (2 : Nat) < 32; decide
  · show 3 + 7 < min 32 32; decide
/-- A flag of value 9: an FWAIT for 9 passes and one for 10 waits. -/
theorem witness_LocalFlags : ∀ b ∈ [(9 : W64), 10], ∃ (s : State) (d a b' : XNum) (n : BitVec 9), s.Clean .s ∧ s.HasX d ∧ s.HasX a ∧ s.HasX b' ∧
    s.me.Idle (.x, d.toNat) ∧ HasFlag s n ∧ s.myCore.flagOps = [] ∧ (s.me.xr a.toNat).getLsbD 63 = true ∧ s.me.xr b'.toNat = b ∧
    SMap.get 0 s.myCore.flags n.toNat = 9 := by
  intro b _
  refine ⟨st { seat with x := [(2, 1 <<< 63), (3, b)] } { flags := [(5, 9)] } .s .nop, 1, 2, 3, 5, st_clean _ _ _ _ rfl rfl, ?_, ?_, ?_, idle_of_empty _ _ rfl,
    ?_, ?_, ?_, rfl, ?_⟩
  · show (1 : Nat) < 32; decide
  · show (2 : Nat) < 32; decide
  · show (3 : Nat) < 32; decide
  · show (0 : Nat) ≤ 5 ∧ 5 < 0 + 64; decide
  · rw [st_my_core]
  · show ((1 : W64) <<< 63).getLsbD 63 = true; decide
  · rw [st_my_core]; rfl
/-- An FADD to a flag of core 9, of its own core, and an FSET to all cores of a cluster. -/
theorem witness_RemoteFlags : ∀ c ∈ [0, 9], ∃ (s : State) (a b : XNum), s.Clean .s ∧ s.HasX a ∧ s.HasX b ∧ (s.me.xr a.toNat).getLsbD 63 = false ∧
    (s.me.xr a.toNat).toNat % 2 ^ 17 = c ∧ coreInDomain s.hw c = true ∧ Open s (pkgOfCore c) (domCl c) ∧
    (s.me.xr a.toNat).toNat / 2 ^ 16 % 64 < s.hw.glob.npkg := by
  intro c hc
  simp only [List.mem_cons, List.not_mem_nil, or_false] at hc
  obtain rfl | rfl := hc
  · exact ⟨atS, 1, 3, atS_clean, atS_hasX _, atS_hasX _, by decide +kernel, by decide +kernel, by decide +kernel, st_open _ _ _ _ _, by decide +kernel⟩
  · exact ⟨st { seat with x := [(1, 9)] } {} .s .nop, 1, 3, st_clean _ _ _ _ rfl rfl, by show (1 : Nat) < 32; decide, by show (3 : Nat) < 32; decide,
      by decide +kernel, by decide +kernel, by decide +kernel, st_open _ _ _ _ _, by decide +kernel⟩

/-- An image with one node, bound to handle 1 of package 0, and instance 1 of it. -/
def withImage (h : Hw) : Hw := { h with
  mem := Memory.write [] (writeNat 0x100018 8 1), insts := [(1, { img := 1, st := 1, nodes := [(0, { count := 2 })] })]
  pkgs := [(0, { images := [(1, { valid := true, words := [(0, 0x100000)] })] })] }

/-- An access of seat 0 that is on its way to its own cluster. -/
def onTheWay : Access := { seat := 0, kind := .store, scCluster := some 0, parts := [{ st := 1 }] }

/-- A seat with nothing outstanding, at a node with a count. -/
theorem witness_SyncForms : ∃ (s : State) (d a b : XNum), s.Clean .s ∧ s.HasX d ∧ s.HasX a ∧ s.HasX b ∧ s.me.Idle (.x, d.toNat) ∧
    (let node := (s.me.xr a.toNat).toNat % 2 ^ 16
      let i := s.hw.inst s.me.inst
      node < imgNodes s.hw i.pkg i.img ∧ (SMap.get {} i.nodes node).count ≠ 0 ∧ (s.hw.die (4 * i.pkg)).wheel.length < 4096) ∧
    Open s 0 0 ∧ Quiet s ∧ s.me.handler = false ∧ hasWindow s.hw s.cur.seat = false ∧ s.me.pend = [] ∧ s.me.pendCause = [] :=
  ⟨fl (withImage (hw seat {})) .s, 1, 2, 3, fl_clean _ _ rfl rfl, by show (1 : Nat) < 32; decide, by show (2 : Nat) < 32; decide,
    by show (3 : Nat) < 32; decide, idle_of_empty _ _ rfl, by decide +kernel, by unfold Open; decide +kernel, fun _ h => absurd h List.not_mem_nil, rfl, by decide +kernel, rfl, rfl⟩
/-- A seat with an access on its way. -/
theorem witness_SyncForms_busy : ∃ (s : State) (d : XNum), s.Clean .s ∧ s.HasX d ∧ s.me.Idle (.x, d.toNat) ∧
    drained s.hw s.cur.seat 0 s.hw.glob.nextId = false :=
  ⟨fl { hw seat {} with accs := [(7, onTheWay)], glob := { now := 1000, nextId := 8 } } .s, 1, fl_clean _ _ rfl rfl, by show (1 : Nat) < 32; decide,
    idle_of_empty _ _ rfl, by decide +kernel⟩
theorem witness_EndingForms : ∃ s : State, s.Clean .s ∧ s.cur.last = true ∧ s.me.handler = true ∧ Quiet s :=
  ⟨st { seat with handler := true, tpc := 0x2000 } {} .s .nop, st_clean _ _ _ _ rfl rfl, rfl, rfl, st_quiet _ _ _ _⟩

/-- A seat of system core 0 in flight. -/
def sysState : State :=
  let s := fl { seats := [(147456, seat)], glob := { now := 1000 } } .s;
  { s with cur := { s.cur with seat := 147456 } }

theorem witness_SupervisorForms : ∃ (s : State) (d a b : XNum), s.Clean .s ∧ s.HasX d ∧ s.HasX a ∧ s.HasX b ∧ isSys (coreOf s.cur.seat) = true ∧
    dieFree s.hw (domDie (coreOf s.cur.seat)) = true :=
  ⟨sysState, 1, 2, 3, ⟨Nat.le_refl 1, rfl, rfl, rfl, rfl, ⟨rfl, rfl, rfl⟩, by decide +kernel, by decide +kernel, rfl⟩, by unfold State.HasX; decide +kernel,
    by unfold State.HasX; decide +kernel, by unfold State.HasX; decide +kernel, by decide +kernel, by decide +kernel⟩

/-- A seat with a trap vector: each form of the table finds its cause at some operands. -/
def trapping (v : W64) : State := st { seat with tvec := 0x4000, x := [(2, v)], lrec := { seat.lrec with xn := 8 } } {} .s .nop

/-- Hypotheses of `TrapTaken` at the i-th form of its table. -/
def Trapping (i : Nat) : Prop := ∃ (s : State) (d a b : XNum) (w : Bool) (o : Imm 14) (n : BitVec 14) (g : Instr × Prop × Nat × W64),
  (causeForms s d a b w o n)[i]? = some g ∧ g.2.1 ∧ s.Clean .s ∧ s.me.tvec ≠ 0 ∧ s.me.handler = false

theorem trapping_has (v : W64) (r : XNum) (h : r.toNat < 8) : (trapping v).HasX r := h
theorem witness_TrapTaken_div : Trapping 0 ∧ Trapping 3 :=
  ⟨⟨trapping 9, 1, 2, 3, false, .short 0, 0, _, rfl, ⟨trapping_has _ _ (by decide), trapping_has _ _ (by decide), trapping_has _ _ (by decide), by decide +kernel⟩, st_clean _ _ _ _ rfl rfl, by decide, rfl⟩,
    ⟨trapping 9, 1, 2, 3, true, .short 0, 0, _, rfl, ⟨trapping_has _ _ (by decide), trapping_has _ _ (by decide), trapping_has _ _ (by decide), by decide +kernel⟩, st_clean _ _ _ _ rfl rfl, by decide, rfl⟩⟩
theorem witness_TrapTaken_jalr : Trapping 4 :=
  ⟨trapping 8, 1, 2, 3, false, .short 2, 0, _, rfl, ⟨trapping_has _ _ (by decide), trapping_has _ _ (by decide), by decide +kernel, by decide +kernel⟩, st_clean _ _ _ _ rfl rfl, by decide, rfl⟩
theorem witness_TrapTaken_csr : Trapping 5 ∧ Trapping 6 ∧ Trapping 7 :=
  ⟨⟨trapping 0, 1, 2, 3, false, .short 0, 0x2000, _, rfl, ⟨trapping_has _ _ (by decide), by decide, by decide +kernel⟩, st_clean _ _ _ _ rfl rfl, by decide, rfl⟩,
    ⟨trapping 0, 1, 2, 3, false, .short 0, 0x3000, _, rfl, ⟨trapping_has _ _ (by decide), by decide, by decide +kernel⟩, st_clean _ _ _ _ rfl rfl, by decide, rfl⟩,
    ⟨trapping 0, 1, 2, 3, false, .short 0, 0x3FFF, _, rfl, ⟨trapping_has _ _ (by decide), trapping_has _ _ (by decide), by decide, by decide +kernel⟩, st_clean _ _ _ _ rfl rfl, by decide, rfl⟩⟩
theorem witness_TrapTaken_rights : Trapping 8 ∧ Trapping 9 ∧ Trapping 10 ∧ Trapping 11 :=
  ⟨⟨trapping 0, 1, 2, 3, false, .short 0, 0, _, rfl, trivial, st_clean _ _ _ _ rfl rfl, by decide, rfl⟩,
    ⟨trapping 0, 1, 2, 3, false, .short 0, 0, _, rfl, ⟨trapping_has _ _ (by decide), trapping_has _ _ (by decide), by decide +kernel⟩, st_clean _ _ _ _ rfl rfl, by decide, rfl⟩,
    ⟨trapping 0, 1, 2, 3, false, .short 0, 0, _, rfl, by decide +kernel, st_clean _ _ _ _ rfl rfl, by decide, rfl⟩,
    ⟨trapping 0, 1, 2, 3, false, .short 0, 0, _, rfl, ⟨trapping_has _ _ (by decide), trapping_has _ _ (by decide), by decide +kernel⟩, st_clean _ _ _ _ rfl rfl, by decide, rfl⟩⟩
/-- XN is 8 here, so x8 and x9 are not there. -/
theorem witness_TrapTaken_registers : Trapping 12 ∧ Trapping 13 :=
  ⟨⟨trapping 0, 8, 2, 3, false, .short 0, 0, _, rfl, by show ¬(8 : Nat) < 8; decide, st_clean _ _ _ _ rfl rfl, by decide, rfl⟩,
    ⟨trapping 0, 1, 9, 3, false, .short 0, 0, _, rfl, ⟨by show (1 : Nat) < 8; decide, by show ¬(9 : Nat) < 8; decide, by rw [trapping, st_my_core]⟩,
      st_clean _ _ _ _ rfl rfl, by decide, rfl⟩⟩

/-- A YIELD with accumulate window 2 open. -/
theorem witness_TrapTaken_window : Trapping 14 :=
  ⟨st { seat with tvec := 0x4000 } { windows := [⟨false, 2, 1, 0, [], 0, 0⟩] } .s .nop, 1, 2, 3, false, .short 0, 0, _, rfl, by decide +kernel,
    st_clean _ _ _ _ rfl rfl, by decide, rfl⟩

/-- Addresses in x2: eight bytes across a line, of size code 3. -/
def atLoad : State := st { seat with x := [(2, 0x3C)] } {} .s .nop

theorem witness_ScalarMemory : ∃ (s : State) (f : FSM), s.Clean .s ∧ s.HasX f.d ∧ s.HasX f.a ∧ Healthy s ∧
    flatCauses s.myCore s.me.img 2 false .s (lineParts 2 (scalarVa s f) (2 ^ (f.sz.toNat % 4)) 0) = [] ∧
    flatCauses s.myCore s.me.img 3 true .s (lineParts 2 (scalarVa s f) (2 ^ (f.sz.toNat % 4)) 0) = [] :=
  ⟨atLoad, ⟨1, 2, 3, false, .short 0⟩, st_clean _ _ _ _ rfl rfl, by show (1 : Nat) < 32; decide, by show (2 : Nat) < 32; decide,
    st_healthy _ _ _ _ rfl, by decide +kernel, by decide +kernel⟩
/-- R203: AMOFADD, the last of the table, takes four bytes. -/
theorem witness_Atomics : ∃ (s : State) (f : FSA) (g : Instr × AmoOp), (atomicForms f)[10]? = some g ∧ s.Clean .s ∧ s.HasX f.d ∧ s.HasX f.a ∧ s.HasX f.b ∧
    Healthy s ∧ (let n := if f.w || g.2 == .fadd then 4 else 8
      let va := (s.me.xr f.a.toNat).toNat % 2 ^ 56
      va % n = 0 ∧ flatCauses s.myCore s.me.img 4 true .s (lineParts 1 va n 0) = []) :=
  ⟨atLoad, ⟨1, 2, 3, false, none⟩, _, rfl, st_clean _ _ _ _ rfl rfl, by show (1 : Nat) < 32; decide, by show (2 : Nat) < 32; decide,
    by show (3 : Nat) < 32; decide, st_healthy _ _ _ _ rfl, by decide +kernel, by decide +kernel⟩
/-- All lanes from 0x40 on, and with an index vector of zeros. -/
theorem witness_VectorMemory : ∀ idx : Bool, ∃ (s : State) (f : FVM), s.Clean .v1 ∧ Healthy s ∧ vmCauses (ctxOf s) f idx = [] ∧
    (let l := vecLanes s f idx
      let p := vecParts (linesOf l) l 0
      l ≠ [] ∧ (∀ e ∈ l, e.2 % 4 = 0) ∧ (s.me.xr f.a.toNat + BitVec.ofInt 64 (match f.ext with | none => 0 | some x => x.off.toInt)).toNat % 4 = 0 ∧
      flatCauses s.myCore s.me.img (if idx then 7 else 5) false .v1 p.1 = [] ∧ flatCauses s.myCore s.me.img (if idx then 7 else 6) true .v1 p.1 = []) :=
  fun idx => ⟨st { seat with x := [(2, 0x40)], k := [(1, 5)] } {} .v1 .nop, ⟨1, 2, false, 1, 3, none⟩, st_clean _ _ _ _ rfl rfl, st_healthy _ _ _ _ rfl,
    by revert idx; decide +kernel, by revert idx; decide +kernel⟩

/-- Vector operands v1 and v2, a full mask. -/
def atV : State := st seatR229 {} .v0 .nop
theorem atV_clean : atV.Clean .v0 := st_clean _ _ _ _ rfl rfl

theorem witness_VectorInteger : ∃ (s : State) (f : FVR) (g : Instr × Nat × ((w : Nat) → Bool → BitVec w → BitVec w → BitVec w → BitVec w)),
    (intForms f)[13]? = some g ∧ s.Clean .v0 ∧ (vIn (ctxOf s) g.1 f).causes = [] :=
  ⟨atV, ⟨3, 1, 2, 0, some (xw 2 true)⟩, _, rfl, atV_clean, by decide +kernel⟩
theorem witness_VectorFloat : ∃ (s : State) (f : FVR) (g : Instr × Nat × (FFmt → RM → Nat → Nat → Nat → Nat)),
    (floatForms f)[12]? = some g ∧ s.Clean .v0 ∧ (vIn (ctxOf s) g.1 f).causes = [] :=
  ⟨atV, ⟨3, 1, 2, 0, some (xw 1 true)⟩, _, rfl, atV_clean, by decide +kernel⟩
theorem witness_VectorMask : ∃ (s : State) (f : FVR) (g : Instr × (VIn → Nat → Bool)),
    (maskForms f)[0]? = some g ∧ s.Clean .v0 ∧ (vIn (ctxOf s) g.1 f).causes = [] ∧ f.d.toNat % 8 ≠ 0 :=
  ⟨atV, ⟨1, 1, 2, 0, none⟩, _, rfl, atV_clean, by decide +kernel, by decide⟩
theorem witness_VectorLanes : ∃ (s : State) (f : FVR) (g : Instr × Nat × (VIn → W64) × (VIn → Nat → BitVec 32)),
    (laneForms f)[2]? = some g ∧ s.Clean .v0 ∧ (vIn (ctxOf s) g.1 f).causes = [] ∧ specCauses (ctxOf s) f.d (ctxOf s).o1 = [] ∧
    (FVR.x f).im = false ∧ specCauses (ctxOf s) f.a (ctxOf s).o2 = [] :=
  ⟨atV, ⟨3, 1, 2, 0, none⟩, _, rfl, atV_clean, by decide +kernel, by decide +kernel, rfl, by decide +kernel⟩
theorem witness_VectorLanes_packs : ∃ (s : State) (f : FVR), s.Clean .v0 ∧ (vIn (ctxOf s) (.vpack f) f).causes = [] ∧
    (vIn (ctxOf s) (.vunpack { f with b := 1 }) { f with b := 1 }).causes = [] :=
  ⟨atV, ⟨3, 1, 2, 0, some (xw 1 false)⟩, atV_clean, by decide +kernel, by decide +kernel⟩
theorem witness_VectorLanes_immediate : ∃ (s : State) (f : FVR), s.Clean .v0 ∧ specCauses (ctxOf s) f.d (ctxOf s).o1 = [] ∧ (FVR.x f).im = true :=
  ⟨atV, ⟨3, 0, 0, 0, some ⟨0, 0, false, 0, false, true, 9⟩⟩, atV_clean, by decide +kernel, rfl⟩
theorem witness_VectorReduce : ∃ (s : State) (f : FVR) (g : Instr × (VIn → Nat) × (VIn → Nat → Nat → Nat)),
    (reduceForms f)[3]? = some g ∧ s.Clean .v0 ∧ (vIn (ctxOf s) g.1 f).causes = [] :=
  ⟨atV, ⟨3, 1, 0, 1, none⟩, _, rfl, atV_clean, by decide +kernel⟩
theorem witness_VectorExtract : ∃ (s : State) (f : FVR), s.Clean .v0 ∧ (vIn (ctxOf s) (.vext f) f).causes = [] ∧ 96 < f.d.toNat :=
  ⟨atV, ⟨97, 1, 2, 0, none⟩, atV_clean, by decide +kernel, by decide⟩
/-- Stream 1 with three records. -/
theorem witness_VectorStreams : ∃ (s : State) (f : FVR), s.Clean .v0 ∧ (vIn (ctxOf s) (.vpushc { f with d := 0 }) { f with d := 0 }).causes = [] ∧
    (s.me.stream (f.b.toNat % 4)).length + 64 ≤ 512 ∧ (vIn (ctxOf s) (.vpopc { f with a := 0 }) { f with a := 0 }).causes = [] ∧
    f.d.toNat < 64 ∧ f.k.toNat ≠ 0 ∧ (vIn (ctxOf s) (.vscnt { f with a := 0 }) { f with a := 0 }).causes = [] :=
  ⟨st { seatR229 with streams := [(1, [4, 5, 6])] } {} .v0 .nop, ⟨3, 1, 1, 1, none⟩, st_clean _ _ _ _ rfl rfl, by decide +kernel, by decide +kernel,
    by decide +kernel, by decide, by decide, by decide +kernel⟩
theorem witness_VectorTile : ∀ idx : Bool, ∃ (s : State) (f : FVM), s.Clean .v0 ∧ vmCauses (ctxOf s) f idx = [] ∧
    tsCauses (ctxOf s) (tsBase (ctxOf s) f) (laneAddrs (ctxOf s) f idx (tsBase (ctxOf s) f) (if idx then 20 else 0)) = [] ∧
    vmCauses (ctxOf s) f false = [] ∧ scCauses (ctxOf s) (tsBase (ctxOf s) f) = [] :=
  fun idx => ⟨st { seat with x := [(2, 4096)] } {} .v0 .nop, ⟨1, 2, false, 0, 3, none⟩, st_clean _ _ _ _ rfl rfl, by revert idx; decide +kernel,
    by revert idx; decide +kernel, by decide +kernel, by decide +kernel⟩
/-- Row 5 of an INT8 image at granule 1. -/
theorem witness_VectorPlanes : ∃ (s : State) (f : FVM), s.Clean .v0 ∧ vmCauses (ctxOf s) f false = [] ∧
    planeCauses (ctxOf s) (tsBase (ctxOf s) f) (tsBase (ctxOf s) f - 8 * (tsBase (ctxOf s) f / 8 % 64)) (512 * fmtPlanes (f.vi.toNat % 16)) = [] :=
  ⟨st { seat with x := [(2, 4136)] } {} .v0 .nop, ⟨1, 2, false, 0, 2, none⟩, st_clean _ _ _ _ rfl rfl, by decide +kernel, by decide +kernel⟩

/-- A seat at R83's image. -/
def atM : State := st { seat with d := [(1, shape 3 6 1)], x := [(1, 4096), (30, 0)] } coreR83 .m .nop
theorem atM_clean : atM.Clean .m := st_clean _ _ _ _ rfl rfl

theorem ok_of {ε α : Type} (e : Except ε α) (h : e.isOk = true) : ∃ w, e = .ok w := by
  cases e with
  | ok w => exact ⟨w, rfl⟩
  | error _ => exact absurd h Bool.noConfusion
theorem witness_MatrixProduct : ∃ (s : State) (f : FMMA), s.Clean .m ∧ (useMma (ctxOf s) f).causes = [] ∧
    (let c := ctxOf s
      let l := SMap.get {} s.myCore.latch (latPhys c f.lb)
      let sh := shpArg c f.shp
      let b := latchRows l (keptPlanes l.fmt (pbOf f)) sh.k sh.n
      ∀ p ∈ productRows c f s.myCore b (maxBound l.fmt b.flatten) l.fmt (fun a => a), p.2.sat = none) ∧
    ∃ w, metaWord (ctxOf s) = .ok w :=
  ⟨st { atM.me with mpc := 0x10000 } { coreR83 with tlb := [placedPage] } .m .nop, ⟨1, 1, 0, 1, false, false, 1, none⟩, st_clean _ _ _ _ rfl rfl,
    by decide +kernel, by decide +kernel, ok_of _ (by decide +kernel)⟩
theorem witness_IntegerProductExact : ∃ (s : State) (f : FMMA), s.Clean .m ∧ (useMma (ctxOf s) f).causes = [] ∧ f.z = true ∧ f.n = false ∧ f.ext = none ∧
    aFmt f < 5 ∧ (SMap.get {} s.myCore.latch (latPhys (ctxOf s) f.lb)).fmt < 5 ∧
    ∀ k, SMap.get 0 (SMap.get {} s.myCore.latch (latPhys (ctxOf s) f.lb)).el k <
      2 ^ fmtPlanes (SMap.get {} s.myCore.latch (latPhys (ctxOf s) f.lb)).fmt := by
  refine ⟨atM, ⟨1, 1, 0, 1, false, true, 1, none⟩, atM_clean, by decide +kernel, rfl, rfl, rfl, by decide, by decide +kernel, fun k => ?_⟩
  have h : SMap.get {} atM.myCore.latch (latPhys (ctxOf atM) 0) = { fmt := 2, el := [(320, 7)] } := by decide +kernel
  rw [h]
  by_cases e : k = 320
  · subst e; decide
  · have : SMap.get 0 [(320, 7)] k = 0 := by simp [SMap.get, Ne.symm e]
    rw [this]; decide
theorem witness_LatchFills : ∃ (s : State) (f : FLatch), s.Clean .m ∧ (useLatch (ctxOf s) f).causes = [] :=
  ⟨atM, ⟨1, 1, 1, 2, none⟩, atM_clean, by decide +kernel⟩
theorem witness_AccumulatorForms : ∃ (s : State) (f : FMA), s.Clean .m ∧ accCauses (ctxOf s) f.acc = [] ∧ accCauses (ctxOf s) f.acs = [] ∧
    s.myCore.accBad (accPhys (ctxOf s) f.acs) 64 = false ∧ (useAgetx (ctxOf s) f).causes = [] ∧ s.myCore.accBad (accPhys (ctxOf s) f.acc) 64 = false :=
  ⟨atM, ⟨1, 2, 0, 0, 0, some ⟨1, 2, 7⟩⟩, atM_clean, by decide +kernel, by decide +kernel, by decide +kernel, by decide +kernel, by decide +kernel⟩

/-- A seat with a window on its accumulator 1 that has what it waits for. -/
def atWindow : State :=
  st { seat with d := [(1, shape 3 6 1)] } { windows := [⟨false, 1, 1, 8, [(5, 0, 0)], 1, 0⟩] } .m .nop

theorem witness_AccumulatorAdds : ∃ (s : State) (f : FMA), s.Clean .m ∧ (useAscl (ctxOf s) f).causes = [] ∧
    s.myCore.accBad (accPhys (ctxOf s) f.acs) (shpArg (ctxOf s) f.shp).m = false ∧
    (let c := ctxOf s
      let sh := shpArg c f.shp
      ∀ i < sh.m, (contribute (s.myCore.accRow (accPhys c f.acc) i)
        (fun n => if n < sh.n then [((tileRow s.myCore (imgWord (tilePhys c f.t) sh) f.f.toNat sh i sh.n).map (mElem f.f.toNat (fullCount f.f.toNat))).getD n {}].filter
          (fun t => !t.idle) else []) (maxBound f.f.toNat ((tileRow s.myCore (imgWord (tilePhys c f.t) sh) f.f.toNat sh i sh.n).map
            (mElem f.f.toNat (fullCount f.f.toNat))) + 1) (fmtInt f.f.toNat)).sat = none) ∧
    (useAaddt (ctxOf s) { f with ext := none }).causes = [] ∧ (useAwin (ctxOf s) { f with ext := none }).causes = [] :=
  ⟨atM, ⟨1, 2, 1, 1, 2, some ⟨1, 2, 7⟩⟩, atM_clean, by decide +kernel, by decide +kernel, by decide +kernel, by decide +kernel, by decide +kernel⟩
theorem witness_AccumulatorAdds_commit : ∃ (s : State) (f : FMA) (w : Window), s.Clean .m ∧ openWindow (ctxOf s) f.acc = some w ∧
    (useAcommit (ctxOf s) f).causes = [] ∧ (w.sorted.map (fun a => w.rows s.myCore a.2.2)).any (fun l => l.any (fun r => r.bad)) = false :=
  ⟨atWindow, ⟨1, 0, 0, 0, 0, none⟩, _, st_clean _ _ _ _ rfl rfl, rfl, by decide +kernel, by decide +kernel⟩
theorem witness_Epilogue : ∃ (s : State) (f : FEpi), s.Clean .m ∧ (useEpi (ctxOf s) f).causes = [] ∧
    (∀ i < (shpArg (ctxOf s) f.shp).m, (s.myCore.accRow (accPhys (ctxOf s) f.acc) i).bad = false) ∧
    (useEpix (ctxOf s) f).causes = [] ∧ s.myCore.accBad (accPhys (ctxOf s) f.acc) 64 = false :=
  ⟨atM, ⟨1, 4, 1, 2, 0, none⟩, atM_clean, by decide +kernel, by decide +kernel, by decide +kernel, by decide +kernel⟩

/-- R270's AFFINE over the worked tile, by the second of four members of a group. -/
theorem witness_ScanForms : ∃ (s : State) (f : FScan), s.Clean .m ∧ (useScan (ctxOf s) f false true).causes = [] ∧ NoneReplaced s f ∧
    (useScan (ctxOf s) f true true).causes = [] ∧ (useScant (ctxOf s) f).causes = [] :=
  ⟨st { seat with lrec := { seat.lrec with gn := 16 }, d := [(1, shape 4 1 1)], q := [(0, 0x01016517)], scangrp := 0x0001000001000004 } coreScan4 .m .nop,
    ⟨0, 8, 0, false, 1, none⟩, st_clean _ _ _ _ rfl rfl, by decide +kernel, by unfold NoneReplaced; decide +kernel, by decide +kernel, by decide +kernel⟩
theorem witness_StateForms : ∃ (s : State) (f : FScan), s.Clean .m ∧ (useScan (ctxOf s) f false false).causes = [] ∧ (useQset (ctxOf s) f).causes = [] ∧
    (useStep (ctxOf s) f false).causes = [] ∧ (useStep (ctxOf s) f true).causes = [] ∧
    (∀ i < (shpArg (ctxOf s) f.shp).m, ∀ j < (shpArg (ctxOf s) f.shp).n, (stepped2 s f i j).rep = false) ∧
    (useHmove (ctxOf s) f true).causes = [] ∧ (useHmove (ctxOf s) f false).causes = [] ∧ (useHzero (ctxOf s) f).causes = [] :=
  ⟨st { seat with lrec := { seat.lrec with gn := 16 }, d := [(1, shape 4 1 1)], q := [(0, 0x01016517)] } coreScan4 .m .nop, ⟨0, 8, 0, false, 1, none⟩,
    st_clean _ _ _ _ rfl rfl, by decide +kernel, by decide +kernel, by decide +kernel, by decide +kernel, by decide +kernel, by decide +kernel,
    by decide +kernel, by decide +kernel⟩

/-! Copies. The table of package 0 has tensor 1 (INT8), tensor 2 (compressed) and their table entries cached. -/

/-- Word 0 of a tensor record (R121). -/
def tensorWord (rows cols fmt lay flags : Nat) : W64 := BitVec.ofNat 64 (rows * 2 ^ 40 + cols * 2 ^ 16 + fmt * 2 ^ 12 + lay * 2 ^ 10 + flags)

/-- A core that has cached the records and the entries; its list of row names for TLDG and TSTS is at granule 30. -/
def copyCore : Core := {
  tile := SMap.setAll 0 [] [(15360, 0x0000000100000002)]
  tens := [{ img := 1, key := 1, words := [tensorWord 200 130 2 2 3, 0x200000, 0, 0] },
    { img := 1, key := 2, words := [tensorWord 200 130 2 0 9, 0x210000, 0x220000, 0] }]
  tabs := [{ img := 0, key := 0x200000, words := [0x5000000001] }, { img := 0, key := 0x210000, words := [0x700001] }] }

/-- Its hardware: tensor id and coordinates in x5 and x6, x7 the pair register's odd word. -/
def copyHw (id coords odd : W64) : Hw := { hw { seat with img := 1, x := [(5, id), (6, coords), (7, odd)] } copyCore with
  mem := Memory.write [] (writeNat 0x100038 8 (8 + 0x1000 * 2 ^ 32))
  pkgs := [(0, { images := [(1, { valid := true, words := [(0, 0x100000)] })] })] }

theorem fl_healthy (h : Hw) (sl : Slot) (p : Pkg) (n : h.glob.npkg = 1) (q : h.pkgs = [(0, p)]) (f : p.fenced = []) (a : h.accs = [])
    (t : (h.core 0).tlb = []) (w : ∀ img, SMap.get 0 (SMap.get {} p.images img).words 2 = 0) : Healthy (fl h sl) := by
  have z : coreOf (fl h sl).cur.seat = 0 := by show coreOf 0 = 0; decide
  refine ⟨fun k hk => ?_, fun e he => ?_, fun img => ?_, fun e he => ?_, fun k => ?_⟩
  · have k0 : k = 0 := Nat.lt_one_iff.mp (n ▸ hk)
    subst k0
    simp only [z, reachable, show pkgOfCore 0 = 0 from by decide]; rfl
  · simp only [State.myCore, z] at he
    exact absurd (t ▸ he) List.not_mem_nil
  · have e : (fl h sl).hw.pkg (pkgOfCore (coreOf (fl h sl).cur.seat)) = p := by rw [z, show pkgOfCore 0 = 0 from by decide]; show h.pkg 0 = p; rw [Hw.pkg, q]; rfl
    intro im k hk
    have w2 : SMap.get 0 im.words 2 = 0 := by simp only [im, e]; exact w img
    simp only [Img.rootn, Img.troot, w2] at hk ⊢
    obtain rfl := Nat.lt_one_iff.mp hk
    rw [show (fl h sl).hw.glob.npkg = 1 from n]; decide
  · exact absurd (a ▸ he) List.not_mem_nil
  · show (h.pkg k).fenced = []
    by_cases e : k = 0
    · subst e; rw [Hw.pkg, q]; exact f
    · rw [Hw.pkg, q]; simp [SMap.get, Ne.symm e]

theorem copy_healthy (id coords odd : W64) (sl : Slot) : Healthy (fl (copyHw id coords odd) sl) :=
  fl_healthy _ _ _ rfl rfl rfl rfl rfl (fun img => by by_cases e : 1 = img <;> simp [SMap.get, e])

theorem ready_of (u : CUse) (h : (decide (u.causes = [] ∧ u.res.causes = [] ∧ u.res.bad = []) && u.res.need.isEmpty) = true) : Ready u := by
  simp only [Bool.and_eq_true, decide_eq_true_eq, List.isEmpty_iff] at h
  exact ⟨h.1.1, h.1.2.1, h.2, h.1.2.2⟩

/-- A tile load of tensor 1, and a TLDM of it; a list of rows of it. -/
theorem witness_TileLoads : ∃ (s : State) (f : FCT), s.Clean .c0 ∧ Healthy s ∧
    (let r := useTile (ctxOf s) f false;
      Ready r.1 ∧ InDomain s (tileParts r.2.2 r.2.1.fb 0 r.2.1.msf)) ∧ f.md.toNat % 16 < 8 ∧ pairCauses (ctxOf s) f.xc = [] :=
  ⟨fl (copyHw 1 (2 ^ 32) 0) .c0, ⟨3, 5, 6, 0, none⟩, fl_clean _ _ rfl rfl, copy_healthy _ _ _ _, ⟨ready_of _ (by decide +kernel), by unfold InDomain; decide +kernel⟩,
    by decide, by decide +kernel⟩
/-- A decoding load of tensor 2, whose one granule is there. -/
theorem witness_TileLoads_decode : ∃ (s : State) (f : FCT), s.Clean .c0 ∧ Healthy s ∧
    (let r := useDec (ctxOf s) f;
      Ready r.1 ∧ InDomain s (headers s r.2.2)) ∧ 8 ≤ f.md.toNat % 16 ∧ pairCauses (ctxOf s) f.xc = [] :=
  ⟨fl (copyHw 2 0 0) .c0, ⟨3, 5, 6, 8, none⟩, fl_clean _ _ rfl rfl, copy_healthy _ _ _ _, ⟨ready_of _ (by decide +kernel), by unfold InDomain; decide +kernel⟩,
    by decide, by decide +kernel⟩
theorem witness_TileLoads_rows : ∃ (s : State) (f : FCT), s.Clean .c0 ∧ Healthy s ∧
    (let r := useRows (ctxOf s) f false;
      Ready r.1 ∧ InDomain s (rowParts (ctxOf s) r.2.1 r.2.2.1 r.2.2.2 none)) ∧ Ready (useTpf (ctxOf s) f) :=
  ⟨fl (copyHw 1 (2 ^ 32) 0x1E) .c0, ⟨3, 5, 6, 0, none⟩, fl_clean _ _ rfl rfl, copy_healthy _ _ _ _,
    ⟨ready_of _ (by decide +kernel), by unfold InDomain; decide +kernel⟩, ready_of _ (by decide +kernel)⟩
theorem witness_TileStores : ∃ (s : State) (f : FCT), s.Clean .c0 ∧ Healthy s ∧
    (let r := useTst (ctxOf s) f;
      Ready r.1 ∧ InDomain s (tileParts r.2.2 r.2.1.fb 0 r.2.1.msf)) ∧
    (let r := useRows (ctxOf s) f true;
      Ready r.1 ∧ InDomain s (rowParts (ctxOf s) r.2.1 r.2.2.1 r.2.2.2 none)) :=
  ⟨fl (copyHw 1 (2 ^ 32) 0x1E) .c0, ⟨3, 5, 6, 0, none⟩, fl_clean _ _ rfl rfl, copy_healthy _ _ _ _,
    ⟨ready_of _ (by decide +kernel), by unfold InDomain; decide +kernel⟩, ready_of _ (by decide +kernel), by unfold InDomain; decide +kernel⟩
theorem witness_CoreCopies : ∃ (s : State) (f : FCT), s.Clean .c1 ∧ coreExists s.hw (nameWord s f.xh % 2 ^ 17) = true ∧
    Open s (pkgOfCore (nameWord s f.xh % 2 ^ 17)) (domCl (nameWord s f.xh % 2 ^ 17)) ∧ Ready (useTcpy (ctxOf s) f) ∧
    Ready (useRacc (ctxOf s) { f with md := 0 }) ∧ s.myCore.accBad (phys (ctxOf s) .acc (f.t.toNat % 8)) 64 = false :=
  ⟨st { seat with x := [(22, 0xA4400029)] } {} .c1 .nop, ⟨1, 22, 0, 3, none⟩, st_clean _ _ _ _ rfl rfl, by decide +kernel,
    by unfold Open; decide +kernel, ready_of _ (by decide +kernel), ready_of _ (by decide +kernel), by decide +kernel⟩
/-- To the east, three rows; a carry to the next die. -/
theorem witness_NeighbourForms : ∃ (s : State) (f : FCN) (y : FCY) (n : Nat), s.Clean .c0 ∧ nbrWorks s.hw (domCl (coreOf s.cur.seat)) f.dir.toNat = some n ∧
    Ready (useNsend (ctxOf s) f) ∧ Ready (useNrecv (ctxOf s) f) ∧ Ready (useCysnd (ctxOf s) y) ∧ Ready (useCyrcv (ctxOf s) y) ∧
    (let die := domDie (coreOf s.cur.seat);
      carryDown s.hw die (die % 4 == 3 && (nameWord s y.a).testBit 26) = false) := by
  refine ⟨st { seat with d := [(1, shape 3 1 1)], x := [(5, 3)] } {} .c0 .nop, ⟨3, 1, 1, 5, false, none⟩, ⟨0, 2, 5, none⟩, ?_, st_clean _ _ _ _ rfl rfl, ?_,
    ready_of _ (by decide +kernel), ready_of _ (by decide +kernel), ready_of _ (by decide +kernel), ready_of _ (by decide +kernel), by decide +kernel⟩
  · exact 1
  · decide +kernel

/-- A package with model 2's layer 1 resident and pinned by seat 0, and its layer 0 absent. -/
def layerHw (m : List (Nat × Nat)) : Hw := { hw { seat with inst := 1, x := [(5, 0x0801), (6, 0x0800)] } {} with
  pkgs := [(0, { models := [(2, { win := 2, nl := 9 })], layers := [(2048, {}), (2049, { st := .resident, pins := m, size := 3 })] })]
  insts := [(1, { models := [2] })] }

theorem witness_ResidencyForms : ∃ (s : State) (a b : XNum), s.Clean .c0 ∧ s.HasX a ∧ s.HasX b ∧ s.me.stalledPin = none ∧
    (∀ x ∈ [a, b], let m := (layerArg (ctxOf s) x).1
      let l := (layerArg (ctxOf s) x).2
      layerDefined (ctxOf s) m l = true ∧ hasPin (ctxOf s) m l = false ∧ quotaCauses (ctxOf s) m l = [] ∧
        (layerOf s.hw s m l).st = if x = a then .resident else .absent) :=
  ⟨fl (layerHw []) .c0, 5, 6, fl_clean _ _ rfl rfl, by show (5 : Nat) < 32; decide, by show (6 : Nat) < 32; decide, rfl, by decide +kernel⟩
theorem witness_ResidencyForms_release : ∃ (s : State) (a : XNum), s.Clean .c0 ∧ s.HasX a ∧
    (let m := (layerArg (ctxOf s) a).1
      let l := (layerArg (ctxOf s) a).2
      layerDefined (ctxOf s) m l = true ∧ (layerOf s.hw s m l).pins.filter (fun q => q.1 == s.cur.seat) = [(s.cur.seat, 2)]) :=
  ⟨fl (layerHw [(0, 2), (4, 1)]) .c0, 5, fl_clean _ _ rfl rfl, by show (5 : Nat) < 32; decide, by decide +kernel⟩

/-- A mailbox with a posted entry, an entry that has ended and one that is taken. -/
def someEntries : List MEntry := [⟨3, 5, false, 1, 7, 11, 12, 1, 0⟩, ⟨4, 0, false, 1, 9, 21, 22, 3, 55⟩, ⟨5, 0, false, 1, 9, 31, 32, 2, 0⟩]

/-- A seat of instance 1 at a mailbox. -/
def boxHw (tk : W64) (m : List MEntry) (a : SMap Access) : Hw :=
  { inCluster { seat with x := [(5, tk)] } { mbox := m, ticket := 7 } with accs := a, glob := { now := 1000, nextId := 8 } }

/-- The seat's entry that has ended, no entry of it, and a full mailbox. -/
theorem witness_MailboxForms : ∀ x ∈ [((4 : W64), someEntries), (9, someEntries), (9, List.replicate 16 ⟨1, 1, true, 1, 1, 0, 0, 1, 0⟩)],
    ∃ (s : State) (f : FCX), s.Clean .c0 ∧ s.HasX f.d ∧ s.HasX f.a ∧ s.HasX f.b ∧ s.me.Idle (.x, f.d.toNat) ∧ Quiet s ∧
      mailbox s.hw s = x.2 ∧ s.me.xr f.a.toNat = x.1 ∧ (s.hw.cluster (domCl (coreOf s.cur.seat))).ticket = 7 := by
  intro x hx
  have key : ∀ x ∈ [((4 : W64), someEntries), (9, someEntries), (9, List.replicate 16 ⟨1, 1, true, 1, 1, 0, 0, 1, 0⟩)],
    mailbox (boxHw x.1 x.2 []) (fl (boxHw x.1 x.2 []) .c0) = x.2 ∧ ((boxHw x.1 x.2 []).seat 0).xr 5 = x.1 ∧
      ((boxHw x.1 x.2 []).cluster (domCl (coreOf 0))).ticket = 7 := by decide +kernel
  exact ⟨fl (boxHw x.1 x.2 []) .c0, ⟨3, 5, 6, 9⟩, fl_clean _ _ rfl rfl, by show (3 : Nat) < 32; decide, by show (5 : Nat) < 32; decide,
    by show (6 : Nat) < 32; decide, idle_of_empty _ _ rfl, fun _ h => absurd h List.not_mem_nil, key x hx⟩
theorem witness_MailboxForms_busy : ∃ s : State, s.Clean .c0 ∧ drained s.hw s.cur.seat 0 s.hw.glob.nextId = false ∧ (mailbox s.hw s).length < 16 :=
  ⟨fl (boxHw 0 [] [(7, onTheWay)]) .c0, fl_clean _ _ rfl rfl, by decide +kernel, by decide +kernel⟩
/-- Core 0 is its cluster's junction core. -/
theorem witness_JunctionForms : ∃ (s : State) (d a b : XNum), s.Clean .c0 ∧ s.HasX d ∧ s.HasX a ∧ s.HasX b ∧ s.me.Idle (.x, d.toNat) ∧ Quiet s ∧
    isJct s.hw (coreOf s.cur.seat) = true ∧
    (let m := (s.hw.cluster (domCl (coreOf s.cur.seat))).mbox;
      m.any (fun e => e.ticket == (s.me.xr a.toNat).toNat % 2 ^ 16 && e.st == 2) = true ∧ (m.find? (fun e => e.st == 1)).isSome = true) :=
  ⟨fl (boxHw 5 someEntries []) .c0, 3, 5, 6, fl_clean _ _ rfl rfl, by show (3 : Nat) < 32; decide, by show (5 : Nat) < 32; decide,
    by show (6 : Nat) < 32; decide, idle_of_empty _ _ rfl, fun _ h => absurd h List.not_mem_nil, by decide +kernel, by decide +kernel⟩

/-- A plan between two engines, one of whose two phases has completed. -/
def somePlan : Plan := {
  comm := 0, seq := 4, inst := 1, img := 1, phases := [⟨[1, 0], 0, [0, 1], 0⟩, ⟨[0, 1], 0, [0, 1], 0⟩], done := 1, total := 7
  block := { fmt := 7, srct := 1, dstt := 2, ax := [2], ext := [4, 6], flay := [1, 0], tlay := [0, 1], chunk := 256 } }

/-- Plans 1 (which may start its phase) and 2 (which sends a chunk) at the seat's engine. -/
def planHw (i : W64) : Hw := inCluster { seat with x := [(5, i)] } {
  plans := [(1, somePlan), (2, { somePlan with comm := 1, running := true, out := [[(0, 1)]] })], tx := [(1, ⟨2, 2000⟩)]
  comms := [(0, { bound := true, inst := 1, members := [0, 5] }), (1, { bound := true, inst := 1, members := [0, 5] })] }

/-- Plan 1 of a cluster may start a phase, plan 2 sends a chunk, plan 3 is not there. -/
def planIs (h : Hw) (cl i : Nat) : Bool :=
  match SMap.find (h.cluster cl).plans i with
  | none => i == 3
  | some p => decide (p.done < p.phases.length) && canStep h cl p == (i == 1) && (h.cluster cl).tx.any (fun e => e.2.plan == i) == (i == 2)

theorem witness_PlanForms : ∀ i ∈ [1, 2, 3], ∃ (s : State) (d a : XNum), s.Clean .c0 ∧ s.HasX d ∧ s.HasX a ∧ s.me.Idle (.x, d.toNat) ∧
    isJct s.hw (coreOf s.cur.seat) = true ∧ (s.me.xr a.toNat).toNat % 256 = i ∧
    planIs s.hw (domCl (coreOf s.cur.seat)) i = true := by
  intro i hi
  have key : ∀ i ∈ [1, 2, 3], isJct (planHw (BitVec.ofNat 64 i)) (coreOf 0) = true ∧ (((planHw (BitVec.ofNat 64 i)).seat 0).xr 5).toNat % 256 = i ∧
    planIs (planHw (BitVec.ofNat 64 i)) (domCl (coreOf 0)) i = true := by decide +kernel
  exact ⟨fl (planHw (BitVec.ofNat 64 i)) .c0, 3, 5, fl_clean _ _ rfl rfl, by show (3 : Nat) < 32; decide, by show (5 : Nat) < 32; decide,
    idle_of_empty _ _ rfl, key i hi⟩

/-! Events. -/

/-- An event with seat 0 of core 0 alone. -/
def evs (x : Seat) (e : Event) : State := ev (hw x {}) e

/-- An event with seat 0 of core 0 and an access of number 7. -/
def eva (x : Seat) (a : Access) (e : Event) : State := ev { hw x {} with accs := [(7, a)] } e

theorem witness_SeatEvents_waits :
    (∃ (s : State) (k : Nat), (s.hw.seat k).wait = .fwait 5 9 900 70 1 2 3 ∧ s.ev = .fwaitSatisfied k) ∧
    (∃ (s : State) (k : Nat), (s.hw.seat k).wait = .fwait 5 9 900 70 1 2 3 ∧ s.ev = .fwaitTimeout k) ∧
    (∃ (s : State) (k : Nat), (s.hw.seat k).wait = .drain 1 0 900 8 ∧ s.ev = .drainComplete k) ∧
    (∃ (s : State) (k : Nat), (s.hw.seat k).wait = .drain 1 0 900 8 ∧ s.ev = .drainLimit k ∧ (s.hw.die (domDie (coreOf k))).prod < 1023) ∧
    ∃ (s : State) (k : Nat), s.ev = .sleepWake k ∧ (s.hw.seat k).wait = .sleep 1000 :=
  ⟨⟨evs { seat with wait := .fwait 5 9 900 70 1 2 3 } (.fwaitSatisfied 0), 0, by decide +kernel⟩,
    ⟨evs { seat with wait := .fwait 5 9 900 70 1 2 3 } (.fwaitTimeout 0), 0, by decide +kernel⟩,
    ⟨evs { seat with wait := .drain 1 0 900 8 } (.drainComplete 0), 0, by decide +kernel⟩,
    ⟨evs { seat with wait := .drain 1 0 900 8 } (.drainLimit 0), 0, by decide +kernel⟩,
    ⟨evs { seat with wait := .sleep 1000 } (.sleepWake 0), 0, by decide +kernel⟩⟩
theorem witness_SeatEvents_releases : ∀ o ∈ [RelOp.creq 0 65543 1, .queuePush 0 1 3], ∃ (s : State) (k : Nat) (r : Rel), s.ev = .releaseDrainComplete k ∧ relReady s.hw k = some r ∧
    r.op = o ∧ drained s.hw k r.scope r.before = true ∧ drainStatus s.hw k r.scope r.before false = 0 := by
  intro o ho
  have key : ∀ o ∈ [RelOp.creq 0 65543 1, .queuePush 0 1 3],
      let h := hw { seat with wait := .release 990, rels := [{ scope := 0, start := 990, before := 8, op := o }] } {}
      relReady h 0 = some { scope := 0, start := 990, before := 8, op := o } ∧ drained h 0 0 8 = true ∧ drainStatus h 0 0 8 false = 0 := by decide +kernel
  exact ⟨evs { seat with wait := .release 990, rels := [{ scope := 0, start := 990, before := 8, op := o }] } (.releaseDrainComplete 0), 0, _, rfl,
    (key o ho).1, rfl, (key o ho).2.1, (key o ho).2.2⟩
theorem witness_SeatEvents_post : ∃ (s : State) (e : MEntry), s.ev = .releaseDrainComplete 0 ∧
    (relReady s.hw 0).map (fun r => r.op) = some (.creq 0 65543 1) ∧ drained s.hw 0 0 8 = true ∧ drainStatus s.hw 0 0 8 false = 0 ∧
    (s.hw.cluster 0).mbox.find? (fun e => e.waitsFor 0 65543) = some e :=
  ⟨ev { hw { seat with wait := .release 990, rels := [{ scope := 0, start := 990, before := 8, op := .creq 0 65543 1 }] } {} with
      clusters := [(0, { mbox := [⟨65543, 0, false, 1, 7, 4, 6, 0, 0⟩] })] } (.releaseDrainComplete 0), _, rfl, by decide +kernel, by decide +kernel,
    by decide +kernel, rfl⟩
theorem witness_SeatEvents_flag : ∃ (s : State) (m : FlagMsg), s.ev = .remoteFlagArrival m ∧ m.byTag = none ∧ (s.hw.core m.core).flagOps = [] :=
  ⟨evs seat (.remoteFlagArrival ⟨9, 0, 5, .add 1, 3, none⟩), _, rfl, rfl, by decide +kernel⟩
/-- A supervisor in its TLBINV, and one in its WIPE of a die with the stacks. -/
theorem witness_SeatEvents_supervisor :
    (∃ (s : State) (k c : Nat), supSeat s.hw c = some k ∧ coreOf k = c ∧ (s.hw.seat k).wait = .sup 0 false ∧ s.ev = .invalidateAcknowledged c) ∧
    ∃ (s : State) (k c die : Nat), supSeat s.hw c = some k ∧ coreOf k = c ∧ (s.hw.seat k).wait = .sup 1 true ∧ c = sysBase + die ∧ s.ev = .wipeComplete die ∧
      (s.hw.die die).supWait = 1 :=
  ⟨⟨ev { seats := [(147456, { seat with wait := .sup 0 false })] } (.invalidateAcknowledged 73728), 147456, 73728, by decide +kernel⟩,
    ⟨ev { seats := [(147456, { seat with wait := .sup 1 true })], dies := [(0, { supWait := 1 })] } (.wipeComplete 0), 147456, 73728, 0, by decide +kernel⟩⟩
theorem witness_SeatEvents_empty : ∃ s : State, s.cur.slots = [] ∧ s.Clean .s ∧ s.cur.on = true :=
  ⟨{ hw := hw seat {}, pre := none, cur := { seat := 0, on := true, pc := 0x1000, len := 4 }, ev := .ext .nop }, rfl,
    ⟨Nat.zero_le 1, rfl, rfl, rfl, rfl, ⟨rfl, rfl, rfl⟩, rfl, rfl, rfl⟩, rfl⟩
theorem witness_SeatEvents_resume : ∃ (s : State) (k : Nat), canResume (s.hw.seat k) = true ∧ (s.hw.seat k).st = .run ∧ (s.hw.seat k).handler = false ∧
    (s.hw.seat k).frozen.toOwner = false ∧ seatAccs s.hw k = [] :=
  ⟨evs { seat with frozen := { on := true, cause := { code := 0x70, tval := 0, slots := 0 } } } (.ext .nop), 0, by decide +kernel⟩
theorem witness_SeatEvents_charges :
    (∃ (s : State) (k : Nat), Chargeable s k ∧ s.ev = .holdWatchdog k ∧ (s.hw.seat k).holdWhy < 9) ∧
    (∃ (s : State) (k : Nat), Chargeable s k ∧ s.ev = .acommitArrivalTimeout k ∧ 16 ≤ (s.hw.seat k).holdWhy) ∧
    ∃ (s : State) (k : Nat), Chargeable s k ∧ s.ev = .phaseBoundExceeded k ∧ (s.hw.seat k).tvec ≠ 0 := by
  refine ⟨⟨evs { seat with holdWhy := 8 } (.holdWatchdog 0), 0, ?_⟩, ⟨evs { seat with holdWhy := 16 } (.acommitArrivalTimeout 0), 0, ?_⟩,
    ⟨evs { seat with tvec := 0x4000 } (.phaseBoundExceeded 0), 0, ?_⟩⟩ <;> unfold Chargeable <;> decide +kernel

/-- A request of a part at address 64 in bank 1 of the slice of cluster 0, which holds `l` of the line's set. -/
def sliceState (a : Access) (l : List SliceLine) : State :=
  ev { hw seat {} with accs := [(7, a)], clusters := [(0, { sliceQ := [⟨0, 900, 0, false, 7, 0, 1⟩], slice := [(1, l)] })] } (.sliceRequest 0 1)

theorem witness_UnitEvents_slice : ∀ x ∈ [(AccKind.store, ([] : List SliceLine)), (.store, [⟨1, false, [], false⟩]), (.load 3 8 false, [⟨1, false, [], false⟩])],
    ∃ (s : State) (a : Access) (r : SliceReq), s.hw.acc? 7 = some a ∧ 0 < a.parts.length ∧ a.parts.length ≤ walkPartNo ∧ s.ev = .sliceRequest 0 1 ∧
      slicePick s.hw 0 1 = some r ∧ r.acc = 7 ∧ r.part = 0 ∧ a.seat ≠ resSeat ∧ sliceHas s.hw 0 r.line = !x.2.isEmpty ∧ a.kind = x.1 ∧
      (a.parts.getD 0 {}).fill = false ∧ (s.hw.pkg (pkgOfCore (coreOf a.seat))).fenced = [] ∧
      reachable s.hw (partHome s.hw (a.parts.getD 0 {}) / 144) (pkgOfCore (coreOf a.seat)) = true := by
  intro x hx
  have key : ∀ x ∈ [(AccKind.store, ([] : List SliceLine)), (.store, [⟨1, false, [], false⟩]), (.load 3 8 false, [⟨1, false, [], false⟩])],
      let s := sliceState { seat := 0, kind := x.1, parts := [{ pa := 64, len := 8, st := 1 }] } x.2
      slicePick s.hw 0 1 = some ⟨0, 900, 0, false, 7, 0, 1⟩ ∧ sliceHas s.hw 0 1 = !x.2.isEmpty ∧
        reachable s.hw (partHome s.hw { pa := 64, len := 8, st := 1 } / 144) (pkgOfCore (coreOf 0)) = true := by decide +kernel
  exact ⟨sliceState { seat := 0, kind := x.1, parts := [{ pa := 64, len := 8, st := 1 }] } x.2, _, _, rfl, Nat.one_pos, (by decide : 1 ≤ walkPartNo), rfl, (key x hx).1,
    rfl, rfl, (by decide : 0 ≠ resSeat), (key x hx).2.1, rfl, rfl, rfl, (key x hx).2.2⟩
theorem witness_UnitEvents_memory : ∃ (s : State) (a : Access) (r : MemReq), s.hw.acc? 7 = some a ∧ 0 < a.parts.length ∧ s.ev = .memoryControllerIssue 0 3 ∧
    mcPick s.hw 3 = some r ∧ r.acc = 7 ∧ r.part = 0 ∧ SMap.get [] s.hw.glob.mcWait 3 = [] :=
  ⟨ev { hw seat {} with accs := [(7, onTheWay)], glob := { now := 1000, mcq := [(3, [⟨2, 7, 0, 1, 0, 900⟩])] } } (.memoryControllerIssue 0 3), _, ⟨2, 7, 0, 1, 0, 900⟩,
    rfl, Nat.one_pos, rfl, by decide +kernel, rfl, rfl, rfl⟩
theorem witness_UnitEvents_data :
    (∃ (s : State) (a : Access), s.hw.acc? 7 = some a ∧ s.ev = .lateDataArrival 7 0 ∧ a.seat ≠ resSeat ∧ (a.parts.getD 0 {}).st = 1 ∧
      mcFull s.hw (a.parts.getD 0 {}).pa = false) ∧
    ∃ (s : State) (a : Access) (o n : Nat) (sg : Bool), s.hw.acc? 7 = some a ∧ s.ev = .lateDataArrival 7 0 ∧ a.seat ≠ resSeat ∧ (a.parts.getD 0 {}).st = 4 ∧
      a.kind = .load o n sg ∧ a.parts.length = 1 ∧ a.fail = 0 ∧ a.left = 0 ∧ (a.parts.getD 0 {}).poison = false ∧ SMap.has s.hw.seats a.seat = true :=
  ⟨⟨eva seat onTheWay (.lateDataArrival 7 0), onTheWay, by decide +kernel⟩,
    ⟨eva seat { seat := 0, kind := .load 3 8 false, parts := [{ pa := 64, len := 8, st := 4 }] } (.lateDataArrival 7 0), _, 3, 8, false, rfl,
      by decide +kernel⟩⟩
/-- A two-level table at 0x200000: its entry 0 names the table at 0x300000, whose entry 0 is a leaf of 2 MiB at 0x400000. -/
theorem witness_UnitEvents_walk : ∃ (s : State) (a : Access) (p : Part) (e : TlbEnt), s.hw.acc? 7 = some a ∧ s.ev = .pageWalkComplete 7 0 ∧ a.parts = [p] ∧
    p.st = 0 ∧ p.redo = false ∧ a.kind.writes = false ∧ a.cls ≠ 6 ∧ walk s.hw (pkgOfCore (coreOf a.seat)) a.img p.va = .leaf e ∧
    leafAllows e.leaf a.cls false = true ∧ memOk s.hw (paUnder e p.va) = true :=
  ⟨ev { hw seat {} with
      mem := Memory.write [] (writeNat 0x200000 8 0x300001 ++ writeNat 0x300000 8 0x40001F)
      pkgs := [(0, { images := [(1, { valid := true, words := [(0, 0x100000), (2, 0x200000)] })] })]
      accs := [(7, { seat := 0, kind := .load 3 8 false, img := 1, parts := [{ va := 64, len := 8 }] })] } (.pageWalkComplete 7 0),
    _, _, { img := 1, base := 0, bits := 21, leaf := 0x40001F, ent := 0x300000 }, rfl, rfl, rfl, rfl, rfl, rfl, by decide, by decide +kernel, by decide +kernel,
    by decide +kernel⟩
theorem witness_UnitEvents_atomic : ∃ (s : State) (a : Access) (p : Part), s.hw.acc? 7 = some a ∧ a.parts = [p] ∧ s.ev = .atomicExecution 7 0 ∧
    a.kind = .amo .add 3 false 5 0 ∧ (s.hw.pkg (p.pa / 2 ^ 46)).fenced = [] ∧ (s.hw.pkg (pkgOfCore (coreOf a.seat))).fenced = [] ∧
    s.hw.glob.poison.contains (lineOf p.pa) = false ∧ p.len = 8 ∧ p.pa + 8 ≤ 2 ^ 52 :=
  ⟨eva seat { seat := 0, kind := .amo .add 3 false 5 0, parts := [{ pa := 64, len := 8, st := 1 }] } (.atomicExecution 7 0), _, _, rfl, rfl,
    by decide +kernel⟩
/-- A header without its magic fails the decode. -/
theorem witness_UnitEvents_decode : ∃ (s : State) (a : Access) (j : DecJob), s.hw.acc? 7 = some a ∧ 0 < a.parts.length ∧ s.ev = .granuleDecode 0 ∧
    (s.hw.cluster 0).decBusy ≠ 0 ∧ (s.hw.cluster 0).dec = [j] ∧ j.acc = 7 ∧ a.kind = .tdec 3 [0x2000] 0x3000 none ∧ j.gran < a.gst.length ∧
    decodeBlock s.hw a j.gran 0x3000 = .error 0xB0 :=
  ⟨ev { hw seat {} with
      accs := [(7, { seat := 0, kind := .tdec 3 [0x2000] 0x3000 none, gst := [2], parts := [{ pa := 64, len := 64, rdata := [1, 2], st := 4 }] })]
      clusters := [(0, { dec := [⟨7, 0, 900, true, 0⟩], decBusy := 1000 })] } (.granuleDecode 0), _, ⟨7, 0, 900, true, 0⟩, rfl, by decide +kernel, rfl,
    by decide +kernel, rfl, rfl, rfl, by decide +kernel, rfl⟩

/-- A packet at router 0 of package 0. -/
def packetAt (dst : Nat) : State :=
  ev { hw seat {} with clusters := [(0, { pkts := [{ dst := dst, du := 0, src := 5, su := 0, icyc := 900, seq := 1, deliver := .event (.ext .nop), delay := 3, ready := 1000 }] })] }
    (.packetRoute 0)

theorem witness_UnitEvents_route : ∀ dst ∈ [0, 1], ∃ (s : State) (x : Packet) (e : Event), s.ev = .packetRoute 0 ∧ (s.hw.cluster 0).pkts = [x] ∧
    (s.hw.cluster 0).inj = [] ∧ (s.hw.cluster 0).held = [] ∧ x.ready ≤ s.hw.glob.now ∧ x.deliver = .event e ∧ x.line = none ∧ x.subs = [] ∧ x.out = [] ∧
    x.beats ≤ 1 ∧ x.dst = dst :=
  fun dst _ => ⟨packetAt dst, _, _, rfl, rfl, rfl, rfl, Nat.le_refl 1000, rfl, rfl, rfl, rfl, Nat.le_refl 1, rfl⟩
theorem witness_UnitEvents_route_on : (distOf ((packetAt 1).hw.pkg 0) 0 1).isSome = true ∧
    (productive ((packetAt 1).hw.pkg 0) 0 1).all (fun d => portWorks ((packetAt 1).hw.pkg 0) 0 d && (nbrCl 0 d).any (fun n => n != 0)) = true ∧
    productive ((packetAt 1).hw.pkg 0) 0 1 ≠ [] := by decide +kernel

/-- A remote write of one granule whose end is the end of the window, and one past it. -/
theorem witness_ArrivalEvents_write : ∀ g ∈ [63, 64], ∃ (s : State) (m : InMsg), s.ev = .inboundRemoteWrite m ∧ coreExists s.hw m.core = true ∧
    (s.hw.seat (seatKey m.core m.seat)).st = .run ∧ (s.hw.seat (seatKey m.core m.seat)).lrec.gn = 64 ∧ m.granule + m.grans = g + 1 ∧
    (s.hw.core m.core).inbound = [] ∧ (s.hw.die (domDie m.core)).prod < 1023 ∧ isFenced s.hw (domCl m.src) = false := by
  intro g hg
  have key : ∀ g ∈ [63, 64], let s := evs seat (.inboundRemoteWrite ⟨9, 3, 0, false, g, 1, 4096, [], [], false, some (5, .add 1)⟩)
    coreExists s.hw 0 = true ∧ (s.hw.seat (seatKey 0 false)).st = .run ∧ (s.hw.seat (seatKey 0 false)).lrec.gn = 64 ∧ g + 1 = g + 1 ∧
    (s.hw.core 0).inbound = [] ∧ (s.hw.die (domDie 0)).prod < 1023 ∧ isFenced s.hw (domCl 9) = false := by decide +kernel
  exact ⟨evs seat (.inboundRemoteWrite ⟨9, 3, 0, false, g, 1, 4096, [], [], false, some (5, .add 1)⟩), _, rfl, key g hg⟩
/-- A remote write to a core that is not there. -/
theorem witness_ArrivalEvents_no_core : ∃ (s : State) (m : InMsg), s.ev = .inboundRemoteWrite m ∧ coreExists s.hw m.core = false ∧
    (s.hw.die (domDie m.core)).prod < 1023 ∧ isFenced s.hw (domCl m.src) = false :=
  ⟨evs seat (.inboundRemoteWrite ⟨9, 3, 5000, false, 0, 1, 4096, [], [], false, none⟩), _, rfl, by decide +kernel⟩
theorem witness_ArrivalEvents_accumulate : ∃ (s : State) (m : AccMsg) (w : Window), s.ev = .accumulateArrival m ∧
    (s.hw.seat (seatKey m.core m.seat)).st ≠ .free ∧ (s.hw.core m.core).windows = [w] ∧ w.seat = m.seat ∧ w.acc = m.win ∧ w.opens ≤ s.hw.glob.now ∧
    w.arr.length < w.e ∧ (s.hw.core m.core).inbound = [] :=
  ⟨ev (hw seat { windows := [⟨false, 1, 2, 8, [], 0, 0⟩] }) (.accumulateArrival ⟨9, 0, 3, 0, false, 1, [], none⟩), _, _, rfl, by decide +kernel, rfl, rfl, rfl,
    Nat.zero_le _, by decide, rfl⟩
/-- A message of one row to a seat that has no NRECV, and to one that has. -/
theorem witness_ArrivalEvents_neighbour :
    (∃ (s : State) (m : NeighMsg), s.ev = .neighbourMessageArrival m ∧ seatAccs s.hw (seatKey m.core m.seat) = []) ∧
    ∃ (s : State) (m : NeighMsg) (a : Access), s.ev = .neighbourMessageArrival m ∧ seatAccs s.hw (seatKey m.core m.seat) = [(7, a)] ∧ s.hw.acc? 7 = some a ∧
      7 ≠ m.acc ∧ a.arrived = false ∧ a.kind = .nrecv 3 m.dir (some m.tag) [5] ∧ m.rows.length = 1 ∧ (s.hw.cluster (domCl m.core)).nbuf = [] :=
  ⟨⟨evs seat (.neighbourMessageArrival ⟨9, 3, 0, false, 2, 4, [1]⟩), _, rfl, by decide +kernel⟩,
    ⟨eva seat { seat := 0, kind := .nrecv 3 2 (some 4) [5] } (.neighbourMessageArrival ⟨9, 3, 0, false, 2, 4, [1]⟩), _, _, rfl, by decide +kernel, rfl,
      by decide, rfl, rfl, rfl, by decide +kernel⟩⟩
theorem witness_ArrivalEvents_carry : ∃ (s : State) (m : CarryMsg), s.ev = .carryMessageArrival m ∧ coreExists s.hw m.core = true ∧
    (s.hw.die (domDie m.core)).chanQ = [] ∧ (s.hw.core m.core).carry.length < 8 ∧
    SMap.get 0 (s.hw.core m.core).carryExp (m.src * 2 ^ 16 + m.tag) = m.seq ∧ seatAccs s.hw (seatKey m.core m.seat) = [] :=
  ⟨evs seat (.carryMessageArrival ⟨9, 0, false, 4, 0, 1, 2, 3⟩), ⟨9, 0, false, 4, 0, 1, 2, 3⟩, by decide +kernel⟩
/-- The first of two deliveries, and one that does not come. -/
theorem witness_ArrivalEvents_acks :
    (∃ (s : State) (a : Access), s.ev = .multicastAck 7 5 ∧ s.hw.acc? 7 = some a ∧ a.left = 2) ∧
    ∃ (s : State) (a : Access), s.ev = .multicastAckTimeout 7 ∧ s.hw.acc? 7 = some a ∧ a.left ≠ 0 ∧ SMap.has s.hw.seats a.seat = true :=
  ⟨⟨eva seat { onTheWay with left := 2 } (.multicastAck 7 5), _, rfl, rfl, rfl⟩,
    ⟨eva seat { onTheWay with left := 2 } (.multicastAckTimeout 7), _, rfl, rfl, by decide, by decide +kernel⟩⟩
theorem witness_ArrivalEvents_charges :
    (∃ (s : State) (k : Nat) (c : Cause), Chargeable s k ∧ (s.hw.seat k).tvec ≠ 0 ∧ (s.hw.seat k).pendCause = [c] ∧ c.due ≤ s.hw.coreT (coreOf k) ∧
      recov c.code = .t ∧ c.code < 512 ∧ s.ev = .deferredCauseCharge k) ∧
    (∃ (s : State) (k : Nat) (a : Access), Chargeable s k ∧ s.ev = .landingOverdue k 7 ∧ s.hw.acc? 7 = some a) ∧
    ∃ (s : State) (k : Nat), Chargeable s k ∧ s.ev = .freezeWatchdog (coreOf k) ∧ k % 2 = 0 ∧ lackOf s.hw k (s.hw.coreT (coreOf k)) ≠ [] ∧
      lackOf s.hw (k + 1) (s.hw.coreT (coreOf k)) = [] ∧ 2 * coreOf k = k := by
  refine ⟨⟨evs { seat with tvec := 0x4000, pendCause := [⟨0x24, 9, 1, 900⟩] } (.deferredCauseCharge 0), 0, ⟨0x24, 9, 1, 900⟩, ?_⟩,
    ⟨eva seat onTheWay (.landingOverdue 0 7), 0, onTheWay, ?_⟩,
    ⟨eva { seat with pend := [{ xPend 1 0 900 3 with acc := some 7 }] } onTheWay (.freezeWatchdog 0), 0, ?_⟩⟩ <;> unfold Chargeable <;> decide +kernel

/-- A submission of ordinal o of a group of two, for which access 7 stands. -/
def subm (o : Nat) : ScanMsg := { seat := 0, tag := 0, lpkg := 0, round := 3, ord := o, size := 2, prog := 0x24B12021, acc := 7 + o, lanes := [(3, 5, 6)] }

/-- Its die, with a round under way or none. -/
def scanDie (l : List ScanRnd) (e : Event) : State :=
  ev { hw seat {} with accs := [(8, { seat := 0, kind := .scanRes 0 1 (subm 1) })], dies := [(0, { rounds := l })] } e

/-- The first submission of a round, and the last when the block's carry has come. -/
theorem witness_ArrivalEvents_scan : ∀ l ∈ [([] : List ScanRnd), [{ tag := 0, lpkg := 0, round := 3, block := 0, subs := [subm 0], cb := some [] }]],
    ∃ (s : State) (m : ScanMsg), s.ev = .scanSubmission 0 m ∧ m.tag = 0 ∧
      (let old := openRound s.hw 0 m.tag m.lpkg m.round (m.ord / 64)
        let r := { old with subs := old.subs ++ [m], lastAt := s.hw.glob.now, bad := false };
        (s.hw.die 0).doneRounds.contains (m.tag, m.round, m.ord / 64) = false ∧ old.bad = false ∧
        (∀ x ∈ old.subs, x.prog = m.prog ∧ x.size = m.size ∧ x.ord ≠ m.ord ∧ x.acc ≠ m.acc) ∧ (r.full && r.cb.isSome) = !l.isEmpty ∧
        (s.hw.acc? m.acc).isSome = true) := by
  intro l hl
  refine ⟨scanDie l (.scanSubmission 0 (subm 1)), subm 1, rfl, rfl, ?_⟩
  revert l; decide +kernel
theorem witness_ArrivalEvents_block : ∃ (s : State) (m : BlockCarry), s.ev = .blockCarryArrival m ∧ m.leaves = false ∧ (s.hw.die m.die).chanQ = [] ∧
    (let w := (expectRound (s.hw.die m.die) m.tag m.lpkg m.block).getD m.round
      let r := openRound s.hw m.die m.tag m.lpkg w m.block;
      w % 16 = m.round % 16 ∧ (r.full && !r.bad) = false) :=
  ⟨scanDie [] (.blockCarryArrival ⟨0, 0, 0, 3, 0, [(3, 1, 2)], false⟩), ⟨0, 0, 0, 3, 0, [(3, 1, 2)], false⟩, by decide +kernel⟩
/-- A carry that leaves its die over a channel that is up, or over one that has failed. -/
theorem witness_ArrivalEvents_leaves : ∀ l ∈ [[], [0]], ∃ (s : State) (m : BlockCarry), s.ev = .blockCarryArrival m ∧ m.leaves = true ∧
    carryDown s.hw m.die (decide (m.die % 4 = 3)) = !l.isEmpty ∧ (∀ e ∈ s.hw.glob.agenda, ∀ c, e.2 ≠ .carryMessageArrival c) := by
  intro l hl
  refine ⟨ev { pkgs := [(0, { carryOff := l })] } (.blockCarryArrival ⟨0, 0, 0, 3, 0, [], true⟩), _, rfl, rfl, ?_, fun _ h => absurd h List.not_mem_nil⟩
  revert l; decide +kernel
theorem witness_ArrivalEvents_round : ∃ (s : State) (r : ScanRnd), s.ev = .scanRoundTimeout 0 5 3 0 ∧ (s.hw.die 0).rounds = [r] ∧ r.tag = 5 ∧ r.round = 3 ∧
    r.block = 0 ∧ r.first + 2 ^ 22 ≤ s.hw.glob.now ∧ r.bad = false ∧ tagOwner s.hw r.lpkg 5 = some (1, 0) :=
  ⟨ev { dies := [(0, { rounds := [{ tag := 5, lpkg := 0, round := 3, block := 0 }] })], pkgs := [(0, { tagLive := [(5, 1, 0)] })], glob := { now := 2 ^ 22 } }
    (.scanRoundTimeout 0 5 3 0), { tag := 5, lpkg := 0, round := 3, block := 0 }, by decide +kernel⟩

/-- A child's packet of rank r of two, at the node of cluster 0. -/
def redMsg (r : Nat) : RedMsg := {
  cluster := 0, comm := 0, seq := 4, phase := 1, gtag := 0, inst := 1, orig := 0, tree := 0, red := 1, fmt := 9, leaves := [0, 5], lo := r, hi := r
  members := [0, 5], dests := [0], elems := [(3, 0x3F800000)] }

theorem linked_of (s : State) (l : List Nat) (n : s.hw.glob.npkg = 1) (r : ∀ p, reachable s.hw p 0 = true) (f : ∀ p, (s.hw.pkg p).fenced = [])
    (c : ∀ x ∈ l, x < 144) : Linked s l :=
  ⟨fun p q hq => by obtain rfl := Nat.lt_one_iff.mp (n ▸ hq); exact r p, f, fun x hx => by rw [Nat.div_eq_of_lt (c x hx), n]; exact Nat.one_pos⟩

theorem linked_none (s : State) (l : List Nat) (n : s.hw.glob.npkg = 1) (p : s.hw.pkgs = []) (c : ∀ x ∈ l, x < 144) : Linked s l := by
  have e : ∀ q, s.hw.pkg q = {} := fun q => by rw [Hw.pkg, p]; rfl
  refine linked_of s l n (fun q => ?_) (fun q => by rw [e]) c
  simp only [reachable, e, n, show (candPorts {} 0).isEmpty = false from by decide +kernel]; simp

/-- The first child, and the second. -/
theorem witness_CollectiveEvents_reduce :
    (∃ (s : State) (m : RedMsg), s.ev = .reductionPacketArrival m ∧ (s.hw.cluster m.cluster).nodes.find? (fun n => sibling n.msg m) = none) ∧
    ∃ (s : State) (m : RedMsg) (n : RedNode), s.ev = .reductionPacketArrival m ∧
      (s.hw.cluster m.cluster).nodes.find? (fun n => sibling n.msg m) = some n ∧ Linked s (0 :: m.leaves ++ m.members) :=
  ⟨⟨evs seat (.reductionPacketArrival (redMsg 0)), redMsg 0, by decide +kernel⟩,
    ⟨ev { hw seat {} with clusters := [(0, { nodes := [⟨redMsg 0, 900⟩] })] } (.reductionPacketArrival (redMsg 1)), redMsg 1, ⟨redMsg 0, 900⟩, rfl,
      by decide +kernel, linked_none _ _ rfl rfl (by decide)⟩⟩
theorem witness_CollectiveEvents_contributor : ∃ (s : State) (m : RedMsg) (n : RedNode), s.ev = .contributorTimeout 0 m ∧
    (s.hw.cluster 0).nodes.find? (fun n => n.msg == m && decide (n.since + 2 ^ 21 ≤ s.hw.glob.now)) = some n ∧ Linked s m.members :=
  ⟨ev { clusters := [(0, { nodes := [⟨redMsg 0, 0⟩] })], glob := { now := 2 ^ 21 } } (.contributorTimeout 0 (redMsg 0)), redMsg 0, ⟨redMsg 0, 0⟩,
    rfl, by decide +kernel, linked_none _ _ rfl rfl (by decide)⟩

/-- Plan 1 of cluster 0, in an event. -/
def planState (p : Plan) (tx : SMap ChunkTx) (e : Event) : State :=
  ev (inCluster seat { plans := [(1, p)], tx := tx, comms := [(0, { bound := true, inst := 1, members := [0, 5] })] }) e

/-- A plan of communicator 0 whose phase 1 runs. -/
def running : Plan := { somePlan with running := true, out := [[(1, 3)]], want := [3] }

theorem witness_CollectiveEvents_notices : ∀ r : Bool, ∃ (s : State) (p : Plan), s.ev = .abortNotice 0 0 4 1 0 ∧ tagBound s.hw 0 0 = true ∧
    planOf s.hw 0 0 4 = some (1, p) ∧ SMap.find (s.hw.cluster 0).plans 1 = some p ∧ p.running = r :=
  fun r => ⟨planState { running with running := r } [] (.abortNotice 0 0 4 1 0), _, rfl, rfl, rfl, rfl, rfl⟩
theorem witness_CollectiveEvents_notice_none : ∃ s : State, s.ev = .abortNotice 0 0 5 1 0 ∧ tagBound s.hw 0 0 = true ∧ planOf s.hw 0 0 5 = none :=
  ⟨planState running [] (.abortNotice 0 0 5 1 0), by decide +kernel⟩
/-- A notice and a grant with a tag that no communicator of the cluster has. -/
theorem witness_CollectiveEvents_stale : (∃ s : State, s.ev = .abortNotice 0 0 4 1 9 ∧ tagBound s.hw 0 9 = false ∧ RingReady s (netDie 0)) ∧
    ∃ s : State, s.ev = .creditGrant 0 0 4 1 1 9 ∧ tagBound s.hw 0 9 = false ∧ RingReady s (netDie 0) :=
  ⟨⟨planState running [] (.abortNotice 0 0 4 1 9), by unfold RingReady; decide +kernel⟩,
    ⟨planState running [] (.creditGrant 0 0 4 1 1 9), by unfold RingReady; decide +kernel⟩⟩
/-- Credit for the phase that runs, and for another. -/
theorem witness_CollectiveEvents_credit : ∀ ph ∈ [1, 0], ∃ (s : State) (p : Plan), s.ev = .creditGrant 0 0 4 ph 1 0 ∧ tagBound s.hw 0 0 = true ∧ planOf s.hw 0 0 4 = some (1, p) ∧
    SMap.find (s.hw.cluster 0).plans 1 = some p ∧ p.running = true ∧ (p.done = ph ↔ ph = 1) :=
  fun ph hp => ⟨planState running [] (.creditGrant 0 0 4 ph 1 0), _, rfl, rfl, rfl, rfl, rfl, by revert ph; decide⟩

/-- The table of package 0 has tensors 1 and 2, of 4 rows and 6 columns of INT8, and one frame. -/
def smallTensors : List (Nat × Byte) :=
  writeNat 0x100038 8 (8 + 0x1000 * 2 ^ 32) ++ writeNat 0x101020 8 (tensorWord 4 6 2 0 3).toNat ++ writeNat 0x101028 8 0x200000 ++
  writeNat 0x101040 8 (tensorWord 4 6 2 0 3).toNat ++ writeNat 0x101048 8 0x200000 ++ writeNat 0x200000 8 0x500001

/-- A state with those tensors. -/
def tensorState (p : Plan) (e : Event) : State :=
  let s := planState p [] e;
  { s with hw := { s.hw with mem := Memory.write [] smallTensors, pkgs := [(0, { images := [(1, { valid := true, words := [(0, 0x100000)] })] })] } }

/-- Element 3 arrives for a plan that wants it; a stale tag and another sequence number. -/
theorem witness_CollectiveEvents_chunk : ∃ (s : State) (m : ChunkMsg) (p : Plan) (w : Tens) (a ea v : Nat), s.ev = .chunkArrival m ∧
    tagBound s.hw m.cluster m.gtag = true ∧ (s.hw.cluster m.cluster).plans.find? (fun p => p.2.comm == m.comm && p.2.running) = some (1, p) ∧
    SMap.find (s.hw.cluster m.cluster).plans 1 = some p ∧ p.seq = m.seq ∧ p.done = m.phase ∧
    m.wrote = true ∧ tensAt s.hw (m.cluster / 144) p.img p.block.dstt = some w ∧ m.elems = [(3, v)] ∧ 3 ∈ p.want ∧
    (let x := dstPos p.block w p.phase.tlay (rankOf (commAt s.hw m.cluster p.comm) m.cluster) 3;
      Sys2Proof.Machine.tileAt s.hw (m.cluster / 144) w (w.tileNo (x.1 / 64) (x.2 / 64)) = some (a, ea) ∧ a + 2 ^ 16 ≤ 2 ^ 52 ∧ ea < 2 ^ 52 ∧
      ∀ j < fmtPlanes w.fmt, a + elemByte j x.1 x.2 ≠ ea) :=
  ⟨tensorState running (.chunkArrival ⟨0, 0, 4, 1, 0, 1, 0, [(3, 77)], [], true⟩), ⟨0, 0, 4, 1, 0, 1, 0, [(3, 77)], [], true⟩, running,
    tensOf [tensorWord 4 6 2 0 3, 0x200000, 0, 0], 0x500000, 0x200000, 77, rfl, rfl, by decide +kernel, by decide +kernel, rfl, rfl, rfl, by rfl, rfl, by decide,
    by decide +kernel⟩
/-- The same chunk in the ck in which it comes, before it is written. -/
theorem witness_CollectiveEvents_chunk_comes : ∃ (s : State) (m : ChunkMsg), s.ev = .chunkArrival m ∧ tagBound s.hw m.cluster m.gtag = true ∧
    (s.hw.cluster m.cluster).plans.find? (fun p => p.2.comm == m.comm && p.2.running) = some (1, running) ∧
    SMap.find (s.hw.cluster m.cluster).plans 1 = some running ∧ running.seq = m.seq ∧ running.done = m.phase ∧ m.wrote = false :=
  ⟨tensorState running (.chunkArrival ⟨0, 0, 4, 1, 0, 1, 0, [(3, 77)], [], false⟩), ⟨0, 0, 4, 1, 0, 1, 0, [(3, 77)], [], false⟩, by decide +kernel⟩
theorem witness_CollectiveEvents_chunk_stale :
    (∃ (s : State) (m : ChunkMsg), s.ev = .chunkArrival m ∧ tagBound s.hw m.cluster m.gtag = false ∧
      RingReady s (netDie m.cluster)) ∧
    ∃ (s : State) (m : ChunkMsg), s.ev = .chunkArrival m ∧ tagBound s.hw m.cluster m.gtag = true ∧
      (s.hw.cluster m.cluster).plans.find? (fun p => p.2.comm == m.comm && p.2.running) = some (1, running) ∧ running.seq ≠ m.seq :=
  ⟨⟨planState running [] (.chunkArrival ⟨0, 0, 4, 1, 9, 1, 0, [], [], false⟩), ⟨0, 0, 4, 1, 9, 1, 0, [], [], false⟩, by unfold RingReady; decide +kernel⟩,
    ⟨planState running [] (.chunkArrival ⟨0, 0, 5, 1, 0, 1, 0, [], [], false⟩), ⟨0, 0, 5, 1, 0, 1, 0, [], [], false⟩, by decide +kernel⟩⟩
/-- A free channel with a ready plan; a chunk that is sent, and one that is being sent. -/
theorem witness_CollectiveEvents_channel :
    (∃ (s : State) (p : Plan), s.ev = .chunkComplete 0 0 ∧ SMap.find (s.hw.cluster 0).tx 0 = none ∧ chanPick s.hw 0 0 = some (1, p) ∧
      SMap.find (s.hw.cluster 0).plans 1 = some p ∧ Linked s (0 :: (commAt s.hw 0 p.comm).members)) ∧
    ∀ t ∈ [1000, 1001], ∃ (s : State) (x : ChunkTx) (p : Plan), s.ev = .chunkComplete 0 0 ∧ SMap.find (s.hw.cluster 0).tx 0 = some x ∧ x.doneAt = t ∧
      s.hw.glob.now = 1000 ∧ SMap.find (s.hw.cluster 0).plans x.plan = some p ∧ Linked s (0 :: (commAt s.hw 0 p.comm).members) :=
  ⟨⟨planState { running with credit := [1] } [] (.chunkComplete 0 0), { running with credit := [1] }, rfl, rfl, by decide +kernel, rfl,
      linked_none _ _ rfl rfl (by decide +kernel)⟩,
    fun t _ => ⟨planState running [(0, ⟨1, t⟩)] (.chunkComplete 0 0), _, _, rfl, rfl, rfl, rfl, rfl,
      linked_none _ _ rfl rfl (show ∀ x ∈ [0, 0, 5], x < 144 by decide)⟩⟩

/-- A plan block at 0x10000 whose one device holds both tensors whole, and its communicator. -/
def planBlockState (xa : Nat) : State :=
  ev { hw { seat with inst := 1, img := 1, wait := .xplan 1 xa 0 } { tlb := [{ placedPage with img := 1 }] } with
    pkgs := [(0, { images := [(1, { valid := true, words := [(0, 0x100000)] })] })]
    mem := Memory.write [] (smallTensors ++ writeNat 0x10000 8 0x12 ++ writeNat 0x10008 8 (4 + 6 * 2 ^ 32) ++ writeNat 0x10018 8 1 ++
      writeNat 0x10030 8 (1 + 2 * 2 ^ 32) ++ writeNat 0x10040 8 0x10100 ++ writeNat 0x10048 8 1) } (.xplanDerivationComplete 0)

theorem witness_CollectiveEvents_derive : ∃ (s : State) (c : Comm) (b : PlanBlock), s.ev = .xplanDerivationComplete 0 ∧ (s.hw.seat 0).wait = .xplan 1 0x10000 0 ∧
    derivePlan s.hw 0 0x10000 0 = .ok (c, b) ∧ freePlan (s.hw.cluster (domCl (coreOf 0))) = some 1 := by
  obtain ⟨w, h⟩ := ok_of (derivePlan (planBlockState 0x10000).hw 0 0x10000 0) (by decide +kernel)
  exact ⟨planBlockState 0x10000, w.1, w.2, rfl, rfl, h, by decide +kernel⟩
theorem witness_CollectiveEvents_derive_fails : ∃ (s : State) (a : Nat), s.ev = .xplanDerivationComplete 0 ∧ (s.hw.seat 0).wait = .xplan 1 0x10020 0 ∧
    derivePlan s.hw 0 0x10020 0 = .error (.addr a) := ⟨planBlockState 0x10020, 0x10020, rfl, rfl, rfl⟩
theorem witness_CollectiveEvents_late :
    (∃ (s : State) (p : Plan), s.ev = .collectiveCreditTimeout 0 1 ∧ SMap.find (s.hw.cluster 0).plans 1 = some p ∧ p.running = true ∧ p.out ≠ [] ∧
      (chunkDests p (rankOf (commAt s.hw 0 p.comm) 0) (p.out.headD [])).filter (fun d => !p.credit.contains d) ≠ [] ∧ p.creditFrom + 2 ^ 22 ≤ s.hw.glob.now) ∧
    ∃ (s : State) (p : Plan), s.ev = .collectivePeerTimeout 0 1 ∧ SMap.find (s.hw.cluster 0).plans 1 = some p ∧ p.running = true ∧ p.want ≠ [] ∧
      p.heardAt + 2 ^ 22 ≤ s.hw.glob.now :=
  ⟨⟨ev { (planState running [] (.ext .nop)).hw with glob := { now := 2 ^ 22 } } (.collectiveCreditTimeout 0 1), running, by decide +kernel⟩,
    ⟨ev { (planState running [] (.ext .nop)).hw with glob := { now := 2 ^ 22 } } (.collectivePeerTimeout 0 1), running, by decide +kernel⟩⟩

/-- Package 0 with node 5 as its owner and an image in handle 1. -/
def owned : Pkg := { owner := 5, ownv := true, up := [0, 1], images := [(1, { valid := true, words := [(0, 0x100000)] })] }

/-- The command of a port at a package. -/
def port (p : Pkg) : State := ev { hw seat {} with pkgs := [(0, p)] } (.ext .nop)

/-- The doublewords of the image, by their offset. -/
def imageMem (l : List (Nat × Nat)) : List Host.Cell := Memory.write [] (l.flatMap (fun e => writeNat (0x100000 + e.1) 8 e.2))

/-- A parameter block of 16 bytes at 0x700 of the image. -/
def paramState : State :=
  let s := port owned;
  { s with hw := { s.hw with mem := imageMem [(24 + 64, 16 + 0x700 * 2 ^ 32), (0x700, 77)] } }

theorem paramState_live : 0 < paramState.hw.glob.npkg ∧ (paramState.hw.pkg 0).off = false ∧ (paramState.hw.pkg 0).wipeUntil ≤ paramState.hw.glob.now ∧
    (paramState.hw.pkg 0).ownv = true ∧ (paramState.hw.pkg 0).owner = 5 := by decide +kernel

/-- The kick of handle 1 with one patch, for a package that is off, for another node, and for a handle that holds no image. -/
theorem witness_OwnerEvents_kick_refused :
    (∃ (s : State) (pk : Nat), ¬(pk < s.hw.glob.npkg ∧ (s.hw.pkg pk).off = false)) ∧
    ∀ w ∈ [(0x100100 : W64), 0x200100], ∃ (s : State) (pk : Nat) (patches : List (W64 × W64)), pk < s.hw.glob.npkg ∧ (s.hw.pkg pk).off = false ∧
      (s.hw.pkg pk).wipeUntil ≤ s.hw.glob.now ∧ (w.toNat / 2 ^ 8 % 2 ^ 9 ≤ 256 → patches.length = w.toNat / 2 ^ 8 % 2 ^ 9) ∧
      (∀ d < 4, (s.hw.die (4 * pk + d)).fwHeld = false) ∧ RingOk s pk ∧ (s.hw.pkg pk).ownv = true ∧ (s.hw.pkg pk).owner = 5 ∧
      (kickCause s.hw pk w patches).isSome = (w == 0x200100) :=
  by
  refine ⟨⟨port { owned with off := true }, 0, by decide +kernel⟩, fun w hw => ?_⟩
  have d : ∀ d < 4, (paramState.hw.die (4 * 0 + d)).fwHeld = false := by decide +kernel
  have r : RingOk paramState 0 := by unfold RingOk; decide +kernel
  have c : (kickCause paramState.hw 0 0x100100 [(8, 99)]).isSome = false := by decide +kernel
  have c' : (kickCause paramState.hw 0 0x200100 [(8, 99)]).isSome = true := by decide +kernel
  refine ⟨paramState, 0, [(8, 99)], paramState_live.1, paramState_live.2.1, paramState_live.2.2.1, fun _ => ?_, d, r, paramState_live.2.2.2.1,
    paramState_live.2.2.2.2, ?_⟩
  · simp only [List.mem_cons, List.not_mem_nil, or_false] at hw
    obtain rfl | rfl := hw <;> decide +kernel
  · simp only [List.mem_cons, List.not_mem_nil, or_false] at hw
    obtain rfl | rfl := hw
    · exact c
    · exact c'
theorem paramAt_low (n : Nat) : paramAt 0 n + 16 ≤ 2 ^ 52 := by unfold paramAt paOf; omega
theorem witness_OwnerEvents_kick : ∃ (s : State) (pk : Nat) (hdr : W64) (patches : List (W64 × W64)), pk < s.hw.glob.npkg ∧ (s.hw.pkg pk).off = false ∧
    (s.hw.pkg pk).wipeUntil ≤ s.hw.glob.now ∧ patches.length = hdr.toNat / 2 ^ 8 % 2 ^ 9 ∧ (∀ d < 4, (s.hw.die (4 * pk + d)).fwHeld = false) ∧
    (s.hw.pkg pk).ownv = true ∧ kickCause s.hw pk hdr patches = none ∧ s.MemOk ∧
    paramAt pk (freeSlot s.hw pk) + secCount s.hw pk (hdr.toNat / 2 ^ 20 % 16) secParams ≤ 2 ^ 52 ∧
    0 < secCount s.hw pk (hdr.toNat / 2 ^ 20 % 16) secParams ∧ patches = [(8, 99)] := by
  have m : Memory.wf paramState.hw.mem = true := by decide +kernel
  have c : kickCause paramState.hw 0 0x100100 [(8, 99)] = none := by decide +kernel
  have d : ∀ d < 4, (paramState.hw.die (4 * 0 + d)).fwHeld = false := by decide +kernel
  have h : secCount paramState.hw 0 ((0x100100 : W64).toNat / 2 ^ 20 % 16) secParams = 16 := by decide +kernel
  exact ⟨paramState, 0, 0x100100, [(8, 99)], paramState_live.1, paramState_live.2.1, paramState_live.2.2.1, by decide +kernel, d,
    paramState_live.2.2.2.1, c, ⟨m, fun _ h => nomatch h⟩, by rw [h]; exact paramAt_low _, by rw [h]; decide, rfl⟩
/-- A seat that the owner asks to leave, one that is leaving, and one that it does not mean. -/
theorem witness_OwnerEvents_seats : ∃ (s : State) (pk : Nat), pk < s.hw.glob.npkg ∧ (s.hw.pkg pk).off = false ∧ (s.hw.pkg pk).wipeUntil ≤ s.hw.glob.now ∧
    (s.hw.pkg pk).ownv = true ∧ (s.hw.pkg pk).owner = 5 ∧ RingOk s pk ∧ Listed s.hw.seats ∧
    s.hw.seats = [(0, seat), (1, { seat with preempt := true }), (2, { seat with inst := 2 })] ∧ seat.inst = instKey pk 1 :=
  ⟨{ port owned with hw := { (port owned).hw with seats := [(0, seat), (1, { seat with preempt := true }), (2, { seat with inst := 2 })] } }, 0,
    by unfold RingOk Listed; decide +kernel⟩
theorem witness_OwnerEvents_abort : ∀ n ∈ [1, 3], ∃ s : State, (n = 1 → (s.hw.inst n).st < 2 ∧ SMap.has s.hw.insts n = true) ∧
    (n = 3 → SMap.has s.hw.insts n = false) :=
  fun _ _ => ⟨fl (withImage (hw seat {})) .s, fun h => by subst h; decide +kernel, fun h => by subst h; decide +kernel⟩

/-! An image of two nodes: node 1 waits for node 0, and both have one placement. -/

/-- Its doublewords. -/
def graph (place : Nat) : List (Nat × Nat) := [
  (24, 2 + 0x100 * 2 ^ 32), (32, 1 + 0x200 * 2 ^ 32), (40, 1 + 0x300 * 2 ^ 32), (48, 1 + 0x400 * 2 ^ 32),
  (72, 1 + 0x500 * 2 ^ 32), (80, 1 + 0x600 * 2 ^ 32),
  (0x108, 2 ^ 28), (0x110, 2 ^ 48), (0x200, 1), (0x308, 0x4000), (0x318, 3 * 2 ^ 32), (0x328, 8 * 2 ^ 58 + 4 * 2 ^ 51), (0x330, 5 * 2 ^ 41),
  (0x400, place), (0x500, 3 * 2 ^ 16 + 2 * 2 ^ 12), (0x600, 100), (0x608, 2 ^ 63 + 1)]

/-- A placement of `spd` seats, one in each stack group. -/
def spread (spd : Nat) : Nat := spd * 2 ^ 44 + 2 ^ 40 + 2 ^ 36

/-- The placement on seat 0 of every core of one stack group. -/
def whole : Nat := 2 ^ 44 + 12 * 2 ^ 40 + 8 * 2 ^ 36 + 2 ^ 34

/-- A package with that image, instance 1 of it, and a seat. -/
def graphState (place : Nat) (p : Pkg) (i : Inst) (x : Seat) (e : Event) : State :=
  ev { hw x {} with mem := imageMem (graph place), pkgs := [(0, p)], insts := [(1, { i with img := 1 })] } e

/-- The instance with its node 0 ready since the start. -/
def graphInst (n : NodeRec) : Inst := { st := 1, nodes := [(0, n), (1, { count := 1 })] }

theorem witness_DispatchEvents_start :
    (∃ (s : State) (n : Nat), s.ev = .instanceStart n ∧ startDue s.hw n = false) ∧
    ∃ (s : State) (n : Nat), s.ev = .instanceStart n ∧ startDue s.hw n = true ∧ (s.hw.pkg (s.hw.inst n).pkg).poolNew = none ∧
      startCode s.hw (s.hw.inst n).pkg (modelImgs s.hw (s.hw.inst n).pkg (s.hw.inst n).img) = none ∧
      (modelPkgs s.hw (s.hw.inst n).pkg).any (fun p => modelsWait s.hw p (modelImgs s.hw (s.hw.inst n).pkg (s.hw.inst n).img)) = false ∧
      imgNodes s.hw (s.hw.inst n).pkg (s.hw.inst n).img = 2 ∧ queueImgs s.hw (s.hw.inst n).pkg (s.hw.inst n).img = [(0, 3, 2)] ∧
      milestoneImgs s.hw (s.hw.inst n).pkg (s.hw.inst n).img = [(100, true, 1)] ∧
      ((nodeImg s.hw 0 1 0).depn = 0 ∧ (nodeImg s.hw 0 1 1).depn = 1) :=
  ⟨⟨evs seat (.instanceStart 5), 5, by decide +kernel⟩, ⟨graphState (spread 1) owned {} seat (.instanceStart 1), 1, by decide +kernel⟩⟩
/-- An image with a model: no pool; and a model whose kept layers must go first, while the pool is to change. -/
theorem witness_DispatchEvents_models : ∀ p ∈ [owned, { owned with
      poolNew := some (0, 0, 0), models := [(0, { defined := true, nl := 1 })], layers := [(0, { st := .resident, size := 1 })] }],
    ∃ (s : State) (n : Nat), s.ev = .instanceStart n ∧ startDue s.hw n = true ∧ s.hw.pkg (s.hw.inst n).pkg = p ∧
      (p.poolNew = none → startCode s.hw 0 (modelImgs s.hw 0 (s.hw.inst n).img) = some 0xDA) ∧
      (p.poolNew ≠ none → (modelPkgs s.hw 0).any (fun p => modelsWait s.hw p (modelImgs s.hw 0 (s.hw.inst n).img)) = true) := by
  intro p hp
  refine ⟨ev { hw seat {} with mem := imageMem [(64, 1 + 0x100 * 2 ^ 32)], pkgs := [(0, p)], insts := [(1, { img := 1 })] } (.instanceStart 1), 1, rfl, ?_⟩
  revert p; decide +kernel
/-- A node that counts: of an instance that ended, at zero, at two, and at one. -/
theorem witness_DispatchEvents_counted : ∀ n ∈ [0, 1, 2], ∃ (s : State), s.ev = .signalCounted 1 1 1 ∧ (s.hw.inst 1).st = 1 ∧
    SMap.has (s.hw.inst 1).nodes 1 = true ∧ RingOk s (s.hw.inst 1).pkg ∧ (nodeRec s.hw 1 1).count = n ∧ recordsOk s.hw 1 1 = true ∧
    (nodePlace s.hw 1 1).count ≠ 0 ∧ domainSeats s.hw [] [] (nodePlace s.hw 1 1) (nodeLrec s.hw 1 1) ≠ none := by
  intro n hn
  refine ⟨graphState (spread 1) owned { st := 1, nodes := [(1, { count := n })] } seat (.signalCounted 1 1 1), rfl, ?_⟩
  unfold RingOk; revert n; decide +kernel
theorem witness_DispatchEvents_counted_bad :
    (∃ s : State, s.ev = .signalCounted 1 1 1 ∧ (s.hw.inst 1).st ≠ 1) ∧
    (∃ s : State, s.ev = .signalCounted 1 1 1 ∧ (s.hw.inst 1).st = 1 ∧ SMap.has (s.hw.inst 1).nodes 1 = true ∧ (nodeRec s.hw 1 1).count = 1 ∧
      recordsOk s.hw 1 1 = false) ∧
    ∃ s : State, s.ev = .signalCounted 1 1 1 ∧ (s.hw.inst 1).st = 1 ∧ SMap.has (s.hw.inst 1).nodes 1 = true ∧ (nodeRec s.hw 1 1).count = 1 ∧
      recordsOk s.hw 1 1 = true ∧ (nodePlace s.hw 1 1).count ≠ 0 ∧ domainSeats s.hw [] [] (nodePlace s.hw 1 1) (nodeLrec s.hw 1 1) = none :=
  ⟨⟨evs seat (.signalCounted 1 1 1), by decide +kernel⟩, ⟨graphState (spread 769) owned (graphInst {}) seat (.signalCounted 1 1 1), by decide +kernel⟩,
    ⟨graphState (spread 13) owned (graphInst {}) seat (.signalCounted 1 1 1), by decide +kernel⟩⟩
/-- What a Bool says of the one element of a list, and of an option. -/
theorem one_of {α : Type} (l : List α) (p : α → Bool) (h : (decide (l.length = 1) && l.all p) = true) : ∃ e, l = [e] ∧ p e = true := by
  match l, h with
  | [e], h => exact ⟨e, rfl, by simpa using h⟩
  | [], h => simp at h
  | _ :: _ :: _, h => simp at h
theorem some_of {α : Type} (o : Option α) (p : α → Bool) (h : o.any p = true) : ∃ e, o = some e ∧ p e = true := by
  cases o with
  | none => simp at h
  | some e => exact ⟨e, rfl, by simpa using h⟩

/-- A round without entries; one whose entry does not fit, because a seat of lower priority stands in its place. -/
theorem witness_DispatchEvents_round_none : ∃ (s : State) (pk : Nat), s.ev = .dispatchRound pk ∧ entriesOf s.hw pk = [] := by
  have h : (entriesOf (evs seat (.dispatchRound 0)).hw 0).isEmpty = true := by decide +kernel
  exact ⟨evs seat (.dispatchRound 0), 0, rfl, List.isEmpty_iff.mp h⟩

/-- Such a round of package 0. -/
def roundState (place : Nat) (p : Pkg) (n : NodeRec) (x : Seat) : State := graphState place p (graphInst n) x (.dispatchRound 0)


theorem witness_DispatchEvents_round_waits : ∃ (s : State) (pk : Nat) (e : Entry), s.ev = .dispatchRound pk ∧ entriesOf s.hw pk = [e] ∧
    ((e.spots s.hw (occOf s.hw) (savedOf s.hw (e.saved.getD 0))).isNone && victimSeats s.hw e.pri (e.reserve s.hw []) == [0] &&
      (firstFit s.hw (occOf s.hw) (entriesOf s.hw pk) []).isNone) = true := by
  let s := roundState whole { owned with fenced := [1, 2, 3, 4, 5, 6, 7, 8, 9, 10, 11] } { readyAt := some 0 } seat
  obtain ⟨e, h⟩ := one_of (entriesOf s.hw 0) (fun e => (e.spots s.hw (occOf s.hw) (savedOf s.hw (e.saved.getD 0))).isNone &&
      victimSeats s.hw e.pri (e.reserve s.hw []) == [0] && (firstFit s.hw (occOf s.hw) (entriesOf s.hw 0) []).isNone) (by decide +kernel)
  exact ⟨s, 0, e, rfl, h⟩
/-- The first fit of a round: without a tag, with one, and on a package that no port reaches. -/
theorem witness_DispatchEvents_round_fits : ∀ p ∈ [{ owned with tagFresh := 4095 }, owned], ∃ (s : State) (pk : Nat) (x : Entry × List Spot),
    s.ev = .dispatchRound pk ∧ firstFit s.hw (occOf s.hw) (entriesOf s.hw pk) [] = some x ∧
    (x.1.saved.isNone && (x.2.all fun y => reachable s.hw pk (pkgOfCore (coreOf y.key))) && (x.2.map (fun y => y.key)).Nodup && !x.2.isEmpty &&
      (nextTag s.hw pk).isNone == (p.tagFresh == 4095) && (nextTag s.hw pk).all Option.isSome) = true := by
  intro p hp
  let s := roundState (spread 2) p { readyAt := some 0 } seat
  obtain ⟨x, h⟩ := some_of (firstFit s.hw (occOf s.hw) (entriesOf s.hw 0) []) (fun x =>
    x.1.saved.isNone && (x.2.all fun y => reachable s.hw 0 (pkgOfCore (coreOf y.key))) && (x.2.map (fun y => y.key)).Nodup && !x.2.isEmpty &&
      (nextTag s.hw 0).isNone == (p.tagFresh == 4095) && (nextTag s.hw 0).all Option.isSome) (by revert p; decide +kernel)
  exact ⟨s, 0, x, rfl, h⟩
theorem witness_DispatchEvents_round_far : ∃ (s : State) (pk : Nat) (x : Entry × List Spot),
    s.ev = .dispatchRound pk ∧ firstFit s.hw (occOf s.hw) (entriesOf s.hw pk) [] = some x ∧
    (x.1.saved.isNone && x.2.any (fun y => !reachable s.hw pk (pkgOfCore (coreOf y.key)))) = true := by
  let s0 := roundState (spread 1 + 12 * 2 ^ 22) { owned with domTab := [(2, 0xFFFFFFFFF)] } { readyAt := some 0 } seat
  let s := { s0 with hw := { s0.hw with glob := { s0.hw.glob with npkg := 2 } } }
  obtain ⟨x, h⟩ := some_of (firstFit s.hw (occOf s.hw) (entriesOf s.hw 0) []) (fun x =>
    x.1.saved.isNone && x.2.any (fun y => !reachable s.hw 0 (pkgOfCore (coreOf y.key)))) (by decide +kernel)
  exact ⟨s, 0, x, rfl, h⟩
/-- A saved seat whose place is free. -/
theorem witness_DispatchEvents_round_saved : ∃ (s : State) (pk : Nat) (x : Entry × List Spot),
    s.ev = .dispatchRound pk ∧ firstFit s.hw (occOf s.hw) (entriesOf s.hw pk) [] = some x ∧ x.1.saved = some (2 ^ 18) := by
  let s : State := ev { seats := [(2 ^ 18, { seat with st := .saved })], insts := [(1, { st := 1 })], glob := { now := 1000 } } (.dispatchRound 0)
  have b : (firstFit s.hw (occOf s.hw) (entriesOf s.hw 0) []).any (fun x => x.1.saved == some (2 ^ 18)) = true := by decide +kernel
  obtain ⟨x, h, g⟩ := some_of _ _ b
  exact ⟨s, 0, x, rfl, h, by simpa using g⟩
/-- A request to a seat that runs, to one in SLEEP, and to one that nobody asked. -/
theorem witness_DispatchEvents_request : ∀ x ∈ [{ seat with preReq := true }, { seat with preReq := true, st := .parked, wait := .sleep 5000 }, seat],
    ∃ (s : State) (k : Nat), s.ev = .preemptionRequest k ∧ s.hw.seat k = x ∧ x.st ≠ .free ∧ x.st ≠ .retiring ∧ x.st ≠ .saving ∧ ∀ T, x.savedWait ≠ .sleep T := by
  intro x hx
  refine ⟨evs x (.preemptionRequest 0), 0, rfl, rfl, ?_⟩
  simp only [List.mem_cons, List.not_mem_nil, or_false] at hx
  obtain rfl | rfl | rfl := hx <;> exact ⟨by decide, by decide, by decide, fun _ h => nomatch h⟩

/-- A seat promised to node 0 of instance 1, whose kernel runs `trip` times. -/
def promised (trip : Nat) : Seat := { st := .free, inst := 1, lrec := { xn := 8, gn := 2, an := 1, bn := 1, hn := 1, trip := trip, kern := 0x4000 } }

/-- A placement whose seat has a kernel, one with no phase, one that comes too late, and one of a saved seat. -/
theorem witness_DispatchEvents_placement :
    (∃ (s : State) (k : Nat), s.ev = .seatPlacement k 1 0 0 ∧ (s.hw.seat k).inst = 1 ∧ (s.hw.seat k).node = 0 ∧ (s.hw.seat k).st = .free ∧
      firstPhase (s.hw.seat k).lrec = some (.kernel, 0)) ∧
    (∃ (s : State) (k : Nat), s.ev = .seatPlacement k 1 0 0 ∧ (s.hw.seat k).inst = 1 ∧ (s.hw.seat k).node = 0 ∧ (s.hw.seat k).st = .free ∧
      firstPhase (s.hw.seat k).lrec = none) ∧
    (∃ (s : State) (k : Nat), s.ev = .seatPlacement k 1 0 0 ∧ (s.hw.seat k).inst ≠ 1) ∧
    ∃ (s : State) (k : Nat), s.ev = .seatPlacement k 1 0 0 ∧ (s.hw.seat k).inst = 1 ∧ (s.hw.seat k).node = 0 ∧ (s.hw.seat k).st = .saved ∧ 2 ^ 18 ≤ k :=
  ⟨⟨evs (promised 3) (.seatPlacement 0 1 0 0), 0, by decide +kernel⟩, ⟨evs (promised 0) (.seatPlacement 0 1 0 0), 0, by decide +kernel⟩,
    ⟨evs { promised 3 with inst := 2 } (.seatPlacement 0 1 0 0), 0, by decide +kernel⟩,
    ⟨ev { seats := [(2 ^ 18, { promised 3 with st := .saved })], glob := { now := 1000 } } (.seatPlacement (2 ^ 18) 1 0 0), 2 ^ 18, by decide +kernel⟩⟩
/-- The last seat of its node retires; one has still to drain. -/
theorem witness_DispatchEvents_retired :
    (∃ (s : State) (k : Nat), s.ev = .seatRetired k ∧ retireReady s.hw k = true ∧ (nodeRec s.hw (s.hw.seat k).inst (s.hw.seat k).node).live = 1 ∧
      reachable s.hw (pkgOfCore (coreOf k)) (s.hw.inst (s.hw.seat k).inst).pkg = true ∧
      isFenced s.hw (144 * (s.hw.inst (s.hw.seat k).inst).pkg + attachCl 0) = false) ∧
    ∃ (s : State) (k : Nat), s.ev = .seatRetired k ∧ retireReady s.hw k = false :=
  ⟨⟨graphState 0 owned (graphInst { live := 1 }) { seat with st := .retiring } (.seatRetired 0), 0, by decide +kernel⟩, ⟨evs seat (.seatRetired 0), 0, by decide +kernel⟩⟩
theorem witness_DispatchEvents_complete :
    (∃ s : State, s.ev = .nodeComplete 1 0 ∧ (s.hw.inst 1).st = 1 ∧ (nodeRec s.hw 1 0).done = false ∧
      dependants s.hw (s.hw.inst 1).pkg (s.hw.inst 1).img (nodeImg s.hw (s.hw.inst 1).pkg (s.hw.inst 1).img 0) = [1]) ∧
    ∃ s : State, s.ev = .nodeComplete 1 0 ∧ (nodeRec s.hw 1 0).done = true :=
  ⟨⟨graphState 0 owned (graphInst {}) seat (.nodeComplete 1 0), by decide +kernel⟩,
    ⟨graphState 0 owned (graphInst { done := true }) seat (.nodeComplete 1 0), by decide +kernel⟩⟩
theorem witness_DispatchEvents_report : ∀ n ∈ [1, 2], ∃ s : State, s.ev = .completionReportAppend 1 ∧ (s.hw.inst 1).st = n ∧
    (s.hw.pkg (s.hw.inst 1).pkg).reports.length < 256 :=
  fun n _ => ⟨graphState 0 owned { st := n } seat (.completionReportAppend 1), rfl, rfl, (by decide : (0 : Nat) < 256)⟩
/-- A tick with two milestones, one of which is due. -/
theorem witness_DispatchEvents_tick : ∃ (s : State) (die : Nat), s.ev = .milestoneWheelTick die ∧
    (s.hw.die die).wheel = [⟨1, 0, 3, false⟩, ⟨1, 1, 4, false⟩] ∧ (s.hw.die die).wheelAt = 2 :=
  ⟨ev { dies := [(0, { wheel := [⟨1, 0, 3, false⟩, ⟨1, 1, 4, false⟩], wheelAt := 2 })] } (.milestoneWheelTick 0), 0, rfl, rfl, rfl⟩

/-- A residency engine with one slot and some layers. -/
def poolOf (l : SMap Layer) : Pkg := { owned with poolNs := 1, layers := l }

/-- A layer that a demand waits for, and one that is RESIDENT in the slot. -/
def wanted : Layer := { size := 1, demandAt := some 3, home := 0x30000000 }
def standing : Layer := { size := 1, st := .resident, slots := [0] }

/-- A package in the event that its engine acts. -/
def resState (l : SMap Layer) (e : Event) : State := ev { hw seat {} with pkgs := [(0, poolOf l)] } e

theorem witness_StoreEvents_evicts :
    (∃ (s : State) (pk key0 : Nat), s.ev = .arrivalStart pk key0 ∧ mustEvict (s.hw.pkg pk) = [4]) ∧
    (∃ (s : State) (pk key0 : Nat), s.ev = .arrivalStart pk key0 ∧ mustEvict (s.hw.pkg pk) = [] ∧ nextAct s.hw.glob.now (s.hw.pkg pk) = .evict [4]) ∧
    ∃ (s : State) (pk key0 : Nat), s.ev = .arrivalStart pk key0 ∧ mustEvict (s.hw.pkg pk) = [] ∧ nextAct s.hw.glob.now (s.hw.pkg pk) = .none :=
  ⟨⟨resState [(4, { standing with evictNow := true })] (.arrivalStart 0 5), 0, 5, rfl, by decide +kernel⟩,
    ⟨resState [(4, standing), (5, wanted)] (.arrivalStart 0 5), 0, 5, rfl, by decide +kernel, by rfl⟩,
    ⟨resState [] (.arrivalStart 0 5), 0, 5, rfl, by decide +kernel, by rfl⟩⟩
/-- The layer that starts: lost, without a way to HOME, and in order. -/
theorem witness_StoreEvents_starts : ∀ e ∈ [{ wanted with lost := true }, { wanted with home := 2 ^ 46 }, wanted], ∃ (s : State) (pk key0 : Nat),
    s.ev = .arrivalStart pk key0 ∧ mustEvict (s.hw.pkg pk) = [] ∧ nextAct s.hw.glob.now (s.hw.pkg pk) = .start 5 ∧ lay s.hw pk 5 = e ∧
    homeReachable s.hw pk e = (e.home == 0x30000000) := by
  intro e he
  simp only [List.mem_cons, List.not_mem_nil, or_false] at he
  obtain rfl | rfl | rfl := he <;> exact ⟨resState [(5, _)] (.arrivalStart 0 5), 0, 5, rfl, by decide +kernel, by rfl, rfl, by decide +kernel⟩
theorem witness_StoreEvents_ends : ∀ st ∈ [LayerSt.arriving, .evicting, .absent], ∃ (s : State) (pk key : Nat), (lay s.hw pk key).st = st ∧
    stalledOn s.hw pk key = [] ∧ RingOk s pk ∧ (s.ev = .arrivalComplete pk key ∨ s.ev = .evictionComplete pk key) :=
  fun st _ => ⟨resState [(5, { st := st })] (if st = .arriving then .arrivalComplete 0 5 else .evictionComplete 0 5), 0, 5, rfl, rfl, by unfold RingOk; exact (by decide : (0 : Nat) < 1023),
    by by_cases h : st = .arriving <;> simp [resState, ev, h]⟩
/-- A seat stands in an LACQ of the layer. -/
theorem witness_StoreEvents_stalled : ∃ (s : State) (pk key k reason : Nat), (lay s.hw pk key).st = .arriving ∧ stalledOn s.hw pk key = [k] ∧ Chargeable s k ∧
    recov (0xC0 + reason % 16) = .s :=
  ⟨ev { hw { seat with wait := .lacq 0 5 900 } {} with pkgs := [(0, poolOf [(5, { st := .arriving })])] } (.ext .nop), 0, 5, 0, 1,
    by unfold Chargeable; decide +kernel⟩
theorem witness_StoreEvents_late : ∃ (s : State) (k : Nat), s.ev = .lacqTimeout k ∧ Chargeable s k :=
  ⟨evs { seat with wait := .lacq 0 5 900 } (.lacqTimeout 0), 0, by unfold Chargeable; decide +kernel⟩
/-- A write of the pool: with a running model, and without. -/
theorem witness_StoreEvents_pool : ∀ b : Bool, ∃ (s : State) (pk node : Nat), pk < s.hw.glob.npkg ∧ (s.hw.pkg pk).off = false ∧
    (s.hw.pkg pk).wipeUntil ≤ s.hw.glob.now ∧ RingOk s pk ∧ (s.hw.pkg pk).ownv = true ∧ (s.hw.pkg pk).owner = node ∧ anyModelRuns s.hw pk = b := by
  intro b
  refine ⟨ev { hw seat {} with pkgs := [(0, owned)], insts := [(1, { st := 1, mpkgs := [0], models := if b then [0] else [] })] } (.ext .nop), 0, 5, ?_⟩
  unfold RingOk; revert b; decide +kernel
theorem witness_StoreEvents_poolChange : ∀ n ∈ [none, some (65536, 3, 7)], ∃ (s : State) (pk : Nat), s.ev = .poolChangeComplete pk ∧ (s.hw.pkg pk).poolNew = n :=
  fun n _ => ⟨ev { pkgs := [(0, { owned with poolNew := n })] } (.poolChangeComplete 0), 0, rfl, rfl⟩

/-- The translation of the private windows of a package, and a core whose spill engine ends now. -/
def windowPage : TlbEnt := { img := 0, base := 0, bits := 24, leaf := 0x100005F, ent := 0 }
def engineEnds (b : Bool) : Core := { tlb := if b then [windowPage] else [], spillAt := 1000, spillSeat := 0 }

/-- A seat of eight scalar registers that leaves or comes back. -/
def moving (t : SeatSt) (g : List Nat) : Seat := { st := t, inst := 1, saveKind := 4, spilled := g, lrec := { xn := 8, vn := 1, gn := 4 } }

theorem witness_StoreEvents_spillStart : ∀ b : Bool, ∃ (s : State) (k : Nat), s.ev = .spillStart k ∧ spillReady s.hw k = b := by
  intro b
  refine ⟨evs { moving .saving [] with frozen := { on := !b, cause := ⟨0, 0, 0, 0⟩ } } (.spillStart 0), 0, rfl, ?_⟩
  revert b; decide +kernel
/-- Every word of the image translates, and no two stand at one place. -/
theorem witness_StoreEvents_spillDone : ∃ (s : State) (k : Nat), s.ev = .spillDone k ∧ (s.hw.seat k).st = .saving ∧ (s.hw.core (coreOf k)).spillAt = s.hw.glob.now ∧
    (s.hw.core (coreOf k)).spillSeat = (if isSeat1 k then 1 else 0) ∧ seatOpen s.hw k = false ∧ (s.hw.seat k).lrec.an = 0 ∧ k < 2 ^ 18 ∧ s.hw.glob.nextId ≠ 0 ∧
    ((spillWords s.hw k).all (fun w => (winPa s.hw k w.1 true).any (fun a => decide (a + 8 ≤ 2 ^ 52)))) = true :=
  ⟨ev (hw (moving .saving []) (engineEnds true)) (.spillDone 0), 0, rfl, by decide +kernel⟩
theorem witness_StoreEvents_spillDone_apart : (((spillWords (hw (moving .saving []) (engineEnds true)) 0).map (fun w => w.1)).take 60).Nodup := by decide +kernel
/-- A seat whose store has not performed when its image is written. -/
theorem witness_StoreEvents_spillWaits : ∃ (s : State) (k : Nat), s.ev = .spillDone k ∧ (s.hw.seat k).st = .saving ∧
    (s.hw.core (coreOf k)).spillAt = s.hw.glob.now ∧ (s.hw.core (coreOf k)).spillSeat = (if isSeat1 k then 1 else 0) ∧ seatOpen s.hw k = true :=
  ⟨ev { hw (moving .saving []) (engineEnds true) with accs := [(7, { seat := 0, kind := .store, parts := [{ pa := 64, len := 8, st := 1 }] })] } (.spillDone 0), 0,
    by decide +kernel⟩
theorem witness_StoreEvents_spillFails : ∃ (s : State) (k : Nat), s.ev = .spillDone k ∧ (s.hw.seat k).st = .saving ∧ (s.hw.core (coreOf k)).spillAt = s.hw.glob.now ∧
    (s.hw.core (coreOf k)).spillSeat = (if isSeat1 k then 1 else 0) ∧ seatOpen s.hw k = false ∧ (s.hw.seat k).lrec.an = 0 ∧ (s.hw.seat k).saveKind = 4 ∧
    Chargeable s k ∧ ((spillWords s.hw k).any (fun w => (winPa s.hw k w.1 true).isNone)) = true :=
  ⟨ev (hw (moving .saving []) (engineEnds false)) (.spillDone 0), 0, rfl, by unfold Chargeable; decide +kernel⟩
theorem witness_StoreEvents_restoreDone : ∃ (s : State) (k : Nat), s.ev = .restoreDone k ∧ (s.hw.seat k).st = .restoring ∧
    (s.hw.core (coreOf k)).spillAt = s.hw.glob.now ∧ (s.hw.core (coreOf k)).spillSeat = (if isSeat1 k then 1 else 0) ∧ (s.hw.seat k).lrec.an = 0 ∧
    (s.hw.seat k).spilled = [2] ∧ (s.hw.seat k).lrec.gn = 4 ∧ s.hw.glob.poison = [] ∧
    ((restoreOffs (s.hw.seat k)).all (fun o => (winPa s.hw k o false).isSome)) = true :=
  ⟨ev (hw (moving .restoring [2]) (engineEnds true)) (.restoreDone 0), 0, rfl, by decide +kernel⟩
theorem witness_StoreEvents_restoreFails : ∃ (s : State) (k : Nat), s.ev = .restoreDone k ∧ (s.hw.seat k).st = .restoring ∧
    (s.hw.core (coreOf k)).spillAt = s.hw.glob.now ∧ (s.hw.core (coreOf k)).spillSeat = (if isSeat1 k then 1 else 0) ∧ (s.hw.seat k).saveKind = 4 ∧ Chargeable s k ∧
    ((restoreOffs (s.hw.seat k)).any (fun o => (winPa s.hw k o false).isNone)) = true :=
  ⟨ev (hw (moving .restoring []) (engineEnds false)) (.restoreDone 0), 0, rfl, by unfold Chargeable; decide +kernel⟩

theorem witness_FailureEvents_scrub : ∀ l ∈ [12 * 2 ^ 30, 5], ∃ s : State, (s.hw.die (4 * (l / 2 ^ 40) + l / 2 ^ 30 % 1024 / 3)).prod < 1023 ∧ hbmOk (64 * l) = (l == 5) := by
  intro l hl
  refine ⟨evs seat (.ext .nop), ?_⟩
  revert l; decide +kernel

/-- A message of the neighbour link out of cluster 0 to the east, a carry out of die 0, and a packet on the mesh hop beside it. -/
def linkState (n : Nat) : State :=
  ev { hw seat {} with
    pkgs := [(0, { owned with retries := [(8, 32 * 7 + n), (5, 32 * 7 + n), (10, 32 * 7 + n)] })]
    clusters := [(1, { pkts := [{ dst := 1, du := 0, src := 0, su := 0, icyc := 900, seq := 1, deliver := .event (.ext .nop), delay := 3, ready := 1002, inDir := 0, acc := 7 }] })]
    glob := { now := 1000, agenda := [(1001, .neighbourMessageArrival ⟨0, 7, 8, false, 0, 4, [1]⟩), (1009, .carryMessageArrival ⟨0, 48, false, 4, 0, 1, 2, 7⟩)] } } (.ext .nop)

/-- Transfer 7 on four kinds of link, which has been resent n times. -/
theorem witness_FailureEvents_retry : ∀ n ∈ [3, 8], ∀ l ∈ [(⟨.meshHop, 0, 1⟩ : LinkId), ⟨.neighbour, 0, 1⟩, ⟨.carryHop, 0, 0⟩], ∃ (s : State) (u : Nat),
    linkPkg l < s.hw.glob.npkg ∧ l.dir < 4 ∧ sentFrom s.hw l 7 = some u ∧ s.hw.glob.now < u ∧
    SMap.get 0 (s.hw.pkg (linkPkg l)).retries (8 * (4 * l.unit + l.dir) + kindNo l.kind) = 32 * 7 + n ∧ (n < (linkTime l).2 ↔ n = 3) := by
  intro n hn l hl
  have key : ∀ n ∈ [3, 8], ∀ l ∈ [(⟨.meshHop, 0, 1⟩ : LinkId), ⟨.neighbour, 0, 1⟩, ⟨.carryHop, 0, 0⟩],
      (decide (linkPkg l < (linkState n).hw.glob.npkg) && decide (l.dir < 4) && (sentFrom (linkState n).hw l 7).any (fun u => decide ((linkState n).hw.glob.now < u)) &&
        SMap.get 0 ((linkState n).hw.pkg (linkPkg l)).retries (8 * (4 * l.unit + l.dir) + kindNo l.kind) == 32 * 7 + n &&
        decide (n < (linkTime l).2) == decide (n = 3)) = true := by decide +kernel
  have k := key n hn l hl
  simp only [Bool.and_eq_true, decide_eq_true_eq, beq_iff_eq] at k
  obtain ⟨⟨⟨⟨a, b⟩, c⟩, d⟩, e⟩ := k
  obtain ⟨u, hu, g⟩ := some_of _ _ c
  exact ⟨linkState n, u, a, b, hu, by simpa using g, d, decide_eq_decide.mp e⟩
theorem witness_FailureEvents_retry_none : ∃ (s : State) (l : LinkId), linkPkg l < s.hw.glob.npkg ∧ l.dir < 4 ∧ sentFrom s.hw l 9 = none :=
  ⟨linkState 0, ⟨.meshHop, 0, 1⟩, by decide +kernel⟩
theorem witness_FailureEvents_units : ∃ (s : State), rtrWorks (s.hw.pkg (3 / 144)) (3 % 144) = true ∧ 3 / 144 < s.hw.glob.npkg ∧
    linkPkg ⟨.meshHop, 0, 1⟩ < s.hw.glob.npkg ∧ isMesh ⟨.meshHop, 0, 1⟩ = true ∧ nbrCl 0 1 = some 1 ∧ (s.hw.die 0).prod < 1023 :=
  ⟨linkState 0, by decide +kernel⟩
/-- A partition under reset, before and after its wipe has ended; die 1 is still hot. -/
theorem witness_FailureEvents_resume : ∀ t ∈ [1001, 1000], ∃ (s : State) (pk : Nat), (s.hw.pkg pk).resetTo = t ∧ s.hw.glob.now = 1000 ∧ (s.hw.pkg pk).fenced = [0, 3] ∧
    (s.hw.die (4 * pk + 0 % 12 / 3)).hot = false ∧ (s.hw.die (4 * pk + 0 % 12 / 3)).power = false ∧ (s.hw.die (4 * pk + 3 % 12 / 3)).hot = true :=
  fun t _ => ⟨ev { hw seat {} with pkgs := [(0, { owned with fenced := [0, 3], resetTo := t, failedRtr := [2] })], dies := [(1, { hot := true })] } (.ext .nop), 0,
    rfl, rfl, rfl, rfl, rfl, rfl⟩
/-- A store of seat 0 whose beat is on the link of port 5, and one that still waits there. -/
theorem witness_FailureEvents_port : ∃ (s : State) (port : Nat) (a : Access) (x : Packet), 0 < s.hw.glob.npkg ∧ port < 36 ∧ beatsOn s.hw 0 port = [x] ∧
    s.hw.acc? x.acc = some a ∧ (∀ c es, a.kind ≠ .table c es) ∧ beatInst s.hw x = some 1 ∧ (SMap.get {} (s.hw.pkg 0).links port).q.length = 1 :=
  let x : Packet := { dst := 26, du := 13, src := 0, su := 0, icyc := 900, seq := 1, deliver := .event (.ext .nop), delay := 0, ready := 1200, acc := 7 }
  ⟨ev { hw seat {} with
      accs := [(7, { seat := 0, kind := .store, parts := [{ pa := 2 ^ 46, len := 8, st := 1 }] })]
      pkgs := [(0, { owned with links := [(5, { q := [{ x with acc := 0 }], fly := [x] })] })], glob := { now := 1000, npkg := 2 } } (.ext .nop), 5, _, x,
    by decide, by decide, rfl, rfl, fun _ _ => nofun, by decide +kernel, rfl⟩
/-- A round of die 0 that waits for its carry, and one that is on its way. -/
theorem witness_FailureEvents_carry : ∃ (s : State) (r : ScanRnd), 0 < s.hw.glob.npkg ∧ (s.hw.die (4 * 0)).rounds = [r] ∧ r.cb = none ∧
    tagOwner s.hw r.lpkg r.tag = some (1, 0) ∧ (s.hw.glob.agenda.map (fun e => e.2)) = [.blockCarryArrival ⟨0, 5, 0, 3, 0, [(3, 1, 2)], false⟩] :=
  ⟨ev { dies := [(0, { rounds := [{ tag := 5, lpkg := 0, round := 3, block := 0 }] })], pkgs := [(0, { tagLive := [(5, 1, 0)] })]
        glob := { now := 1000, agenda := [(1005, .blockCarryArrival ⟨0, 5, 0, 3, 0, [(3, 1, 2)], false⟩)] } } (.ext .nop), _, by decide, rfl, rfl, by decide +kernel, rfl⟩
/-- An instance that runs when an event of the module comes, and an event that stands. -/
theorem witness_FailureEvents_module : ∃ (s : State), 0 < s.hw.glob.npkg ∧ (∃ x, SMap.find s.hw.insts 1 = some x ∧ x.pkg = 0 ∧ x.st ≤ 1) ∧
    (s.hw.pkg 0).events = [0x1B4, 0x1BC] ∧ (s.hw.die 0).hot = true :=
  ⟨ev { hw seat {} with insts := [(1, { st := 1 })], pkgs := [(0, { owned with events := [0x1B4, 0x1BC] })], dies := [(0, { hot := true })] } (.ext .nop),
    by decide, ⟨_, rfl, rfl, Nat.le_refl 1⟩, rfl, by decide +kernel⟩

/-- What the hypotheses about a port say. -/
def Live (s : State) (pk : Nat) : Prop := pk < s.hw.glob.npkg ∧ (s.hw.pkg pk).off = false ∧ (s.hw.pkg pk).wipeUntil ≤ s.hw.glob.now ∧
  (∀ d < 4, (s.hw.die (4 * pk + d)).fwHeld = false) ∧ RingOk s pk

theorem port_live (p : Pkg) (a : p.off = false) (b : p.wipeUntil ≤ 1000) : Live (port p) 0 := by
  refine ⟨Nat.one_pos, a, b, ?_, by unfold RingOk; exact (by decide : (0 : Nat) < 1023)⟩
  intro d hd
  show (SMap.get ({} : Die) [] (4 * 0 + d)).fwHeld = false
  rfl
/-- A claim of node 3: of a package that nobody owns, of one whose owner was elected in this ck on the other port, of one whose owner named it, and of
one with an owner. -/
theorem witness_DeviceEvents_claim : ∀ p ∈ [{ owned with ownv := false }, { owned with claimAt := 1001, oport := 1 }, { owned with succ := 3, succv := true }, owned],
    ∃ s : State, Live s 0 ∧ s.hw.pkg 0 = p ∧ 0 ∈ p.up ∧ s.hw.glob.now = 1000 := by
  intro p hp
  refine ⟨port p, port_live p ?_ ?_, rfl, ?_, rfl⟩ <;> revert p <;> decide
/-- An owner whose node may act, at a package whose life cycle has each of its states. -/
theorem witness_DeviceEvents_owner : ∀ l ∈ [Life.manufacture, .provisioned, .deployed, .returned], ∀ k : Bool, ∃ s : State, Live s 0 ∧ (s.hw.pkg 0).ownv = true ∧
    (s.hw.pkg 0).owner = 5 ∧ (s.hw.pkg 0).oport ∈ (s.hw.pkg 0).up ∧ (s.hw.pkg 0).life = l ∧ (s.hw.pkg 0).keyBad = k ∧ anyModelRuns s.hw 0 = false ∧
    handleRuns s.hw 0 1 = false :=
  fun l _ k => ⟨port { owned with life := l, keyBad := k }, port_live _ rfl (Nat.zero_le _), rfl, rfl, .head _, rfl, rfl, rfl, rfl⟩
theorem witness_DeviceEvents_runs : ∃ s : State, Live s 0 ∧ (s.hw.pkg 0).ownv = true ∧ (s.hw.pkg 0).owner = 5 ∧ handleRuns s.hw 0 1 = true ∧ anyModelRuns s.hw 0 = true :=
  ⟨{ port owned with hw := { (port owned).hw with insts := [(1, { st := 1, img := 1, models := [0], mpkgs := [0] })] } }, port_live owned rfl (Nat.zero_le _), rfl, rfl, rfl, rfl⟩
/-- R468: a failure of the decompressor is raised at once in a seat that waits in DRAIN; a saturation is not. -/
theorem test_decompressor_at_once : chargedNow { wait := .drain 23 0 0 0 } ⟨0xB8, 0, 0, 0⟩ = true ∧
    chargedNow { wait := .drain 23 0 0 0 } ⟨0x50, 0, 0, 0⟩ = false := by decide
/-- A reset of two packages of which one has failures; one of package 0 alone; and one whose self-test finds what it found before. -/
theorem witness_DeviceEvents_reset : (∃ s : State, s.ev = .reset none [{ held := [1], keyBad := true }, {}]) ∧
    (∃ s : State, s.ev = .reset (some 0) [{ held := [1] }] ∧ 0 < s.hw.glob.npkg) ∧ ∃ s : State, ∀ o l, s.ev ≠ .reset o l :=
  ⟨⟨ev {} (.reset none _), rfl⟩, ⟨ev {} (.reset (some 0) _), rfl, Nat.one_pos⟩, ⟨State.reset, fun _ _ => nofun⟩⟩
/-- R155, R355: the owner writes a byte of an image. -/
theorem test_imageUpload_byte : after (exec (.imageUpload 0 5 1 [(10, 7), (10, 9)] []) (port owned)) (fun t => Memory.read t.hw.mem 10 == 9) = some true := by
  decide +kernel
/-- R464: a die whose firmware fails its verification stays held, and its failure is told at the next claim. -/
theorem test_reset_held : after (exec .reset (ev {} (.reset none [{ held := [1] }])))
    (fun t => (t.hw.die 1).fwHeld && !(t.hw.die 0).fwHeld && (t.hw.pkg 0).later == [0x1A8]) = some true := by decide +kernel
/-- An owner whose link has been down for two seconds; a port that comes up. -/
theorem witness_DeviceEvents_lapse : ∃ s : State, s.ev = .ownerLapse 0 ∧ (s.hw.pkg 0).lapseAt ≠ 0 ∧ (s.hw.pkg 0).lapseAt ≤ s.hw.glob.now ∧ (s.hw.pkg 0).ownv = true ∧
    RingOk s 0 ∧ 0 ∉ (s.hw.pkg 0).up ∧ 1 ∈ (s.hw.pkg 0).up :=
  ⟨ev { pkgs := [(0, { owned with up := [1], lapseAt := 1000 })], glob := { now := 1000 } } (.ownerLapse 0), rfl, by unfold RingOk; decide +kernel⟩

/-- State.reset with the word of ADD x3, x4, x5, W = 1, placed at seat 0. -/
def placedAdd : State := State.reset.withFetchWord 32 0b0000001_0_00011_00100_00101_00000000_1

theorem placedAdd_agenda : placedAdd.hw.glob.agenda = [] := by decide +kernel
theorem placedAdd_quiescent : Quiescent placedAdd 0 where
  none := .inl rfl
  due := fun e h => by rw [placedAdd_agenda] at h; exact nomatch h
  power := fun _ => by decide +kernel
  turn := by decide +kernel
  first := by decide +kernel
theorem ok_is {ε α : Type} [DecidableEq α] (x : Except ε α) (v : α) (h : (match x with | .ok w => decide (w = v) | .error _ => false) = true) : x = .ok v := by
  cases x with
  | ok w => simpa using h
  | error _ => simp at h
theorem witness_StepRunsDecoded_slots : ∃ (s : State) (o : SlotOp) (r : List SlotOp), s.cur.on = true ∧ s.cur.slots = o :: r := ⟨atS, _, _, rfl, rfl⟩
theorem witness_StepRunsDecoded_event : ∃ (s : State) (u : Nat) (e : Event) (r : List (Nat × Event)), (s.cur.on = false ∨ s.cur.slots = []) ∧
    s.hw.glob.agenda = (u, e) :: r ∧ u ≤ s.hw.glob.now := ⟨linkState 0 |> fun s => { s with hw := { s.hw with glob := { s.hw.glob with now := 1001 } } }, _, _, _, .inl rfl, rfl, Nat.le_refl _⟩
theorem issue_of (x : Turn) (h : (match x with | .issue r _ => !r.slots.isEmpty | _ => false) = true) : ∃ (r : Rep) (a : Act) (o : SlotOp) (l : List SlotOp),
    x = .issue r a ∧ r.slots = o :: l := by
  cases x with
  | issue r a =>
    cases f : r.slots with
    | nil => simp [f] at h
    | cons o l => exact ⟨r, a, o, l, rfl, f⟩
  | _ => exact absurd h Bool.noConfusion
theorem witness_StepRunsDecoded_issue : ∃ (s : State) (k : Nat) (o : SlotOp) (r : Rep) (a : Act) (l : List SlotOp), Quiescent s k ∧
    seatTurn s.hw k = .issue r a ∧ r.slots = o :: l := by
  obtain ⟨r, a, o, l, h⟩ := issue_of (seatTurn placedAdd.hw 0) (by decide +kernel)
  exact ⟨placedAdd, 0, o, r, a, l, placedAdd_quiescent, h⟩
theorem witness_StepRunsDecoded_fetch : ∃ (s : State) (k : Nat) (sl : Slot) (hd : Header) (wh w : Nat) (i : Instr),
    let h := s.hw
    let x := h.seat k
    let core := coreOf k
    let pc := x.pc.toNat
    let o : SlotOp := { slot := sl, instr := i, word := w, ext := none }
    let word := fun (a : Nat) => bundleWord h core x.img x.inst pc (a % 2 ^ 56);
    Quiescent s k ∧ Turns h k ∧ pc < 2 ^ 56 ∧ word pc = .ok wh ∧ decodeHeader wh = .ok hd ∧ hd.present = [sl] ∧ hd.rr = false ∧ hd.rpt = 0 ∧
    hd.sclr = false ∧ (∀ q ∈ stickySlots, q ≠ sl → (x.srec (engOf q)).idle = true) ∧ word (pc + 4) = .ok w ∧ bitAt 24 w = false ∧
    decodeSlot sl w none = .ok i ∧ opHold (opCtx h k 8 (acqOf h k 8 [o]) o) i {} = none := by
  refine ⟨placedAdd, 0, .s, ⟨1, false, 0, 0, false⟩, encodeHeader ⟨1, false, 0, 0, false⟩, 0b0000001_0_00011_00100_00101_00000000_1, .add ⟨3, 4, 5, true⟩,
    placedAdd_quiescent, ⟨by decide +kernel, by decide +kernel, ?_, ?_, by decide +kernel, by decide +kernel, by decide +kernel⟩, by decide +kernel,
    ok_is _ _ (by decide +kernel), ok_is _ _ (by decide +kernel), by decide +kernel, rfl, rfl, rfl, by decide +kernel, ok_is _ _ (by decide +kernel), by decide +kernel,
    ok_is _ _ (by decide +kernel), by decide +kernel⟩
  · exact Option.isNone_iff_eq_none.mp (by decide +kernel)
  · rw [if_neg (by decide +kernel)]; exact Option.isNone_iff_eq_none.mp (by decide +kernel)
theorem witness_RoundTrip : ∃ (i : Instr) (w : Nat) (e : Option Nat) (sl : Slot), WellFormed i = true ∧ encode i = some (w, e) ∧ sl ∈ Claim.classSlots (slotClass i) ∧
    w < 2 ^ 32 ∧ bitAt 24 w = e.isSome ∧ decodeSlot sl w e = .ok i :=
  ⟨.add ⟨3, 4, 5, true⟩, 0b0000001_0_00011_00100_00101_00000000_1, none, .s, by decide, by decide, .head _, by decide, by decide,
    ok_is _ _ (by decide +kernel)⟩
theorem witness_RoundTrip_header : ∃ (w : Nat) (h : Header), w < 2 ^ 32 ∧ decodeHeader w = .ok h :=
  ⟨encodeHeader ⟨1, false, 0, 0, false⟩, _, by decide, ok_is _ ⟨1, false, 0, 0, false⟩ (by decide +kernel)⟩
/-- A step from reset gives a next state. -/
theorem witness_MemInvariant : ∃ s t : State, s.MemOk ∧ step s = .next t := by
  have h : after (step placedAdd) (fun _ => true) = some true := by decide +kernel
  generalize e : step placedAdd = o at h
  match o, h, e with
  | .next t, _, e => exact ⟨placedAdd, t, ⟨by decide +kernel, fun _ h => nomatch h⟩, e⟩

/-! ### Banks, beats, sites and late things -/

/-- A block of two words that is whole at its core. -/
theorem witness_ArrivalEvents_block_written : ∃ (s : State) (core : Nat) (x : Inbound) (b : List (Nat × W64)), let co := s.hw.core core
    co.inbound = [x] ∧ x.blocks = [b] ∧ co.banks = [] ∧ co.landings = [] ∧ x.here s.hw core = true ∧ x.side = [] ∧ x.win = none ∧ b.length = 2 ∧
      co.flagOps = [] :=
  let x : Inbound := { src := 5, order := 9, blocks := [[(512, 7), (513, 8)]], side := [], flag := some (3, .add 1), next := 900 }
  ⟨evs seat (.ext .nop) |> fun s => { s with hw := { s.hw with cores := [(0, { inbound := [x] })] } }, 0, x, [(512, 7), (513, 8)], by decide +kernel⟩

/-- A milestone whose time passed between two ticks. -/
theorem witness_DispatchEvents_late : ∃ (s : State) (die : Nat) (m : Milestone), let d := s.hw.die die
    let n := s.hw.ptime (die / 4) / 64
    s.ev = .milestoneWheelTick die ∧ m ∈ d.wheel ∧ m.abs = true ∧ ((s.hw.pkg (die / 4)).synced = true ∧ m.time ≤ n) ∧ d.tickNo < m.time ∧ m.time < n ∧
      d.prod < 1023 ∧ d.recs < 1023 :=
  ⟨ev { dies := [(0, { wheel := [⟨1, 0, 30, true⟩], tickNo := 20 })], pkgs := [(0, { owned with synced := true, ptimeAdd := 64 * 40 })] } (.milestoneWheelTick 0),
    0, ⟨1, 0, 30, true⟩, by decide +kernel⟩

/-- A saved seat with a promised place: the owner withdraws it. -/
theorem witness_OwnerEvents_withdrawn : ∃ (s : State) (g : Nat), pkgOfCore 0 < s.hw.glob.npkg ∧ (s.hw.pkg 0).off = false ∧ (s.hw.pkg 0).wipeUntil ≤ s.hw.glob.now ∧
    (s.hw.pkg 0).ownv = true ∧ (s.hw.pkg 0).owner = 5 ∧ Listed s.hw.seats ∧ s.hw.seats = [(0, { seat with st := .free, inst := 1 }),
      (g, { seat with st := .saved, claimed := true, inst := 1 })] ∧ g % 2 ^ 18 = 0 ∧ 2 ^ 18 ≤ g :=
  ⟨{ port owned with hw := { (port owned).hw with seats := [(0, { seat with st := .free, inst := 1 }),
      (2 ^ 18, { seat with st := .saved, claimed := true, inst := 1 })] } }, 2 ^ 18, by unfold Listed; decide +kernel⟩

/-- A package that is synchronised, with a time that is 21 ns off and one that is 20 ns off. -/
theorem witness_DeviceEvents_ptime : ∀ n ∈ [20, 21], ∃ (s : State) (ns : W64), Live s 0 ∧ (s.hw.pkg 0).ownv = true ∧ (s.hw.pkg 0).oport ∈ (s.hw.pkg 0).up ∧
    (s.hw.pkg 0).synced = true ∧ ((ns.toNat : Int) - s.hw.ptime 0).natAbs = n := by
  intro n hn
  refine ⟨port { owned with synced := true }, BitVec.ofNat 64 ((port { owned with synced := true }).hw.ptime 0 + n), port_live _ rfl (Nat.zero_le _), rfl, ?_, rfl, ?_⟩
  · decide +kernel
  · revert n; decide +kernel

/-- A site outside its structure; one whose correction has no record; and one in the tile store of seat 0, of a running instance. -/
theorem witness_FailureEvents_sites : (∃ site, siteOk site = false) ∧ (∃ site, siteOk site = true ∧ structOf site = none) ∧
    ∃ (s : State) (site : FaultSite), siteOk site = true ∧ structOf site = some 0 ∧ (s.hw.die (siteRec s.hw site 0).1).prod < 1023 ∧
      site = .word 0 0 ∧ (s.hw.seat 0).st ≠ .free ∧ SMap.has s.hw.insts (s.hw.seat 0).inst = true :=
  ⟨⟨.hbm (12 * 2 ^ 30), by decide +kernel⟩, ⟨.router 0 5, by decide +kernel⟩,
    ⟨ev { hw seat {} with insts := [(1, { st := 1 })] } (.ext .nop), .word 0 0, by decide +kernel⟩⟩
/-- A cached translation, a set of a slice with a dirty line, and an armed milestone. -/
theorem witness_FailureEvents_stores : ∃ (s : State) (l : SliceLine) (m : Milestone), (s.hw.core 0).tlb.length = 1 ∧ (s.hw.die (domDie 0)).prod < 1023 ∧
    (s.hw.die (netDie 0)).prod < 1023 ∧ l ∈ SMap.get [] (s.hw.cluster 0).slice 1 ∧ l.dirty = true ∧ (s.hw.die 0).wheel[0]? = some m ∧
    SMap.has s.hw.insts m.inst = true :=
  ⟨ev { hw seat { tlb := [windowPage] } with
        insts := [(1, { st := 1 })], clusters := [(0, { slice := [(1, [⟨1, true, [], false⟩])] })]
        dies := [(0, { wheel := [⟨1, 0, 3, false⟩] })] } (.ext .nop), ⟨1, true, [], false⟩, ⟨1, 0, 3, false⟩, by decide +kernel⟩
/-- Package 0 stops with an access of package 1 on its way there, and alone. -/
theorem witness_FailureEvents_down :
    (∃ (s : State) (a : Access), s.hw.accs = [(7, a)] ∧ s.hw.acc? 7 = some a ∧ a.pkg ≠ 0 ∧ (∀ c es, a.kind ≠ .table c es) ∧ ∃ p ∈ a.parts, p.st = 1 ∧ p.pa / 2 ^ 46 = 0) ∧
    ∃ s : State, Alone s 0 ∧ 0 < s.hw.glob.npkg :=
  ⟨⟨ev { hw seat {} with accs := [(7, { seat := 2 * 1152, kind := .store, parts := [{ pa := 64, len := 8, st := 1 }] })] } (.ext .nop), _, rfl, rfl,
      (by decide : pkgOfCore (coreOf (2 * 1152)) ≠ 0), fun _ _ => nofun, _, .head _, rfl, rfl⟩,
    ⟨ev (hw seat {}) (.ext .nop), ⟨fun _ h => absurd h List.not_mem_nil, rfl, fun _ h => absurd h List.not_mem_nil⟩, Nat.one_pos⟩⟩

/-- R314: a vector unit's request loses the half that a landing of copy channel 0 does not have, but the matrix unit has: it is made again one ck later,
and its result waits as long. -/
theorem test_bank_loss :
    let h := hw { seat with pend := [{ xPend 1 0 1003 8 with order := 8 }] } { banks := [
      { cls := 2, seat := false, next := 0, left := 1, masks := [0xFFFF] },
      { cls := 4, seat := false, next := 0, left := 1, masks := [0x0F0F], wr := [(70, 1003)], order := some 8 }] }
    let g := h.run (bankTick 0 true)
    (g.core 0).banks.map (fun u => (u.cls, u.left, u.run)) = [(4, 1, 1)] ∧ SMap.get 0 (g.core 0).wr 70 = 1004 ∧ (g.seat 0).pend.map (fun p => p.due) = [1004] := by
  decide +kernel
/-- R7, R355: the reserved bits of an entry read zero. -/
theorem test_entry_reserved : after (exec (.windowRegisterWrite 0 fwNode 2057 0xFFFFFFFFFFFFFFFF) (port owned)) (fun t => windowRead t.hw 0 2057) =
    some 0x0000FFFFFFFFFFFF := by decide +kernel
/-- R332: at router 0 a multicast packet for clusters 0, 1, 2 and 12 becomes one for its own unit and one for each of the two ports. -/
theorem test_split :
    let x : Packet := {
      dst := 0, du := 0, src := 0, su := 0, icyc := 0, seq := 0, deliver := .event (.ext .nop), delay := 0, ready := 0
      subs := [0, 1, 2, 12].map (fun c => (c, .event (.ext .nop))) }
    (splitAt {} 0 x).map (fun y => (y.dst, y.subs.map (·.1))) = [(1, [1, 2]), (12, []), (0, [])] := by decide +kernel

end Sys2Proof.Tests
end

/-! ## Immediate forms, branches, J and JAL (R194, R195) -/

namespace Sys2Proof.Machine
open Sys2Proof.Claim

/-! ### Immediates and addresses as bit vectors -/

/-- The signed value of an immediate and its 64-bit image. -/
theorem ofInt_immInt {n : Nat} (i : Imm n) : BitVec.ofInt 64 (immInt i) = immVal i := by
  cases i <;> rfl

theorem imageNat_immInt {n : Nat} (i : Imm n) : imageNat 64 (immInt i) = (immVal i).toNat := by
  rw [imageNat_eq, ofInt_immInt]

/-- A narrower image of an integer is the low part of a wider one. -/
theorem setWidth_ofInt {m n : Nat} (h : m ≤ n) (x : Int) : (BitVec.ofInt n x).setWidth m = BitVec.ofInt m x := by
  have hd : ((2 ^ m : Nat) : Int) ∣ ((2 ^ n : Nat) : Int) := Int.natCast_dvd_natCast.mpr (Nat.pow_dvd_pow 2 h)
  apply BitVec.eq_of_toInt_eq
  rw [BitVec.toInt_setWidth, BitVec.toInt_ofInt, BitVec.toNat_ofInt,
    Int.toNat_of_nonneg (Int.emod_nonneg _ (Int.natCast_ne_zero.mpr (Nat.ne_of_gt (Nat.two_pow_pos n)))),
    ← Int.emod_bmod, Int.emod_emod_of_dvd _ hd, Int.emod_bmod]

/-- An address of 56 bits is its own image modulo 2^56. -/
theorem ofNat_addr56 (base : Nat) (off : Int) :
    BitVec.ofNat 64 (addr56 base off % 2 ^ 56) = (BitVec.ofNat 56 base + BitVec.ofInt 56 off).setWidth 64 := by
  unfold addr56
  rw [imageNat_eq, Nat.mod_eq_of_lt (BitVec.isLt _), BitVec.ofNat_toNat, BitVec.ofInt_add, BitVec.ofInt_natCast]

/-- The target that a branch gives the sequencer is the one of R195. -/
theorem ofNat_branchTarget {n : Nat} (s : State) (off : Imm n) :
    BitVec.ofNat 64 (branchTarget (ctxOf s) (immInt off) % 2 ^ 56) = target s off := by
  unfold branchTarget target
  rw [ofNat_addr56, ← ofInt_immInt, setWidth_ofInt (by decide), BitVec.mul_comm, BitVec.ofInt_mul]
  rfl

/-! ### The operation of a form on register images -/

theorem ofNat_shiftLeft_toNat (x : W64) (k : Nat) : BitVec.ofNat 64 (x.toNat <<< k) = x <<< k := by
  apply BitVec.eq_of_toNat_eq
  rw [BitVec.toNat_ofNat, BitVec.toNat_shiftLeft]

theorem ofNat_shiftRight_toNat (x : W64) (k : Nat) : BitVec.ofNat 64 (x.toNat >>> k) = x >>> k := by
  rw [← BitVec.toNat_ushiftRight, BitVec.ofNat_toNat, BitVec.setWidth_eq]

theorem ofNat_imageNat_shiftRight (x : W64) (k : Nat) :
    BitVec.ofNat 64 (imageNat 64 (sextNat 64 x.toNat >>> k)) = x.sshiftRight k := by
  rw [ofNat_imageNat, sextNat_toNat 64 (by decide), BitVec.sshiftRight_eq]

theorem decide_sextNat_lt (x y : W64) : decide (sextNat 64 x.toNat < sextNat 64 y.toNat) = x.slt y := by
  rw [BitVec.slt_eq_decide, decide_eq_decide, sextNat_toNat 64 (by decide), sextNat_toNat 64 (by decide)]

theorem decide_toNat_eq (x y : W64) : decide (x.toNat = y.toNat) = (x == y) := by
  rw [decide_eq_decide.mpr BitVec.toNat_inj]; rfl

theorem ofNat_ite_one_zero (p : Prop) [Decidable p] : BitVec.ofNat 64 (if p then 1 else 0) = if p then 1 else 0 := by
  split <;> rfl

/-- LIH puts the low half of the immediate over the low half of the register. -/
theorem ofNat_high_low (x y : W64) :
    BitVec.ofNat 64 (y.toNat % 2 ^ 32 * 2 ^ 32 + x.toNat % 2 ^ 32) = y.extractLsb' 0 32 ++ x.extractLsb' 0 32 := by
  apply BitVec.eq_of_toNat_eq
  rw [BitVec.toNat_append, BitVec.extractLsb'_toNat, BitVec.extractLsb'_toNat, BitVec.toNat_ofNat,
    ← Nat.shiftLeft_add_eq_or_of_lt (Nat.mod_lt _ (by decide)), Nat.shiftLeft_eq]
  omega

/-! ### Where the sequencer goes after the last repetition of a bundle -/

/-- The rest of the issue in flight as a taken branch leaves it: with the branch's target (R195). -/
def State.taken {n : Nat} (s : State) (off : Imm n) : Issue := { s.rest with target := some (branchTarget (ctxOf s) (immInt off)) }

theorem State.Clean.taken_ok {s : State} {sl : Slot} (hc : s.Clean sl) {n : Nat} (off : Imm n) :
    (s.taken off).slots = [] ∧ (s.taken off).causes = [] ∧ (s.taken off).stallPin = none ∧ (s.taken off).seat = s.cur.seat :=
  ⟨rfl, rfl, hc.pin, rfl⟩

theorem nextPc_taken {n : Nat} (s : State) (x : Seat) (off : Imm n) (hl : s.cur.last = true) : x.nextPc (s.taken off) = target s off := by
  rw [← ofNat_branchTarget]
  simp [Seat.nextPc, State.taken, State.rest, hl]

theorem State.Clean.nextPc_rest {s : State} {sl : Slot} (hc : s.Clean sl) {x : Seat} (hl : s.cur.last = true) (hx : x.loops = []) :
    x.nextPc s.rest = following s := by
  simp [Seat.nextPc, State.rest, hl, hc.plain.2.1, hx, loopEnd, following]

/-! ### Scalar forms in a clean repetition -/

/-- The operand check passes when every register is there (R188). -/
theorem Out.check_hasX {s : State} {sl : Slot} (hc : s.Clean sl) {rs : List XNum} (h : ∀ r ∈ rs, s.HasX r) (o : Out) :
    Out.check (xLim (ctxOf s) rs) o = o := by
  rw [HasX.lim hc h]; rfl

theorem hasX_pair {s : State} {a b : XNum} (ha : s.HasX a) (hb : s.HasX b) : ∀ r ∈ [a, b], s.HasX r := by
  simp [ha, hb]

theorem hasX_single {s : State} {a : XNum} (ha : s.HasX a) : ∀ r ∈ [a], s.HasX r := by
  simp [ha]

theorem State.Clean.xOp_eq {s : State} {sl : Slot} (hc : s.Clean sl) (r : XNum) : xOp (ctxOf s) r = (s.me.xr r.toNat).toNat := by
  unfold xOp
  rw [hc.ctx_s]

/-- A scalar operation without effects of its own: the seat goes on as the operation tells the sequencer, and nothing else. -/
theorem nil_clean (i : Instr) (s : State) (hc : s.Clean .s) (m : Ctx → Out) (j : Issue) (ho : (m (ctxOf s)).causes = [])
    (hi : (m (ctxOf s)).issue s.rest = j) (hj : j.slots = [] ∧ j.causes = [] ∧ j.stallPin = none ∧ j.seat = s.cur.seat)
    (h0 : j.after = 0) (hact : (m (ctxOf s)).act = Act.nil) :
    ∃ t, slotOp i s m = .next t ∧ s.Leaves t s.hw s.me [] ∧ (t.hw.seat s.cur.seat).pc = s.me.nextPc j := by
  have hrun : s.hw.run (Act.all [(m (ctxOf s)).act, stickyAct (ctxOf s) s.cur.head i]) = s.hw := by
    rw [hact, stickyAct_scalar hc]; rfl
  refine ⟨_, slotOp_plain i s .s m j hc ho hi hj h0 (by rw [hrun]; exact hc.brk), ?_⟩
  rw [hrun]
  exact ⟨leaves_seat s j s.hw s.me s.me [] s.ev (SeatIs.refl s) (Seat.Rest.refl _) hc.brk (fun _ _ _ => rfl)
    (fun _ _ hidle p hp _ _ => hidle p hp), (State.after1_pc s s.hw j).1⟩

/-- A scalar operation that only writes v to xd in the ck of issue, as R194 says of the immediate forms. -/
theorem wX_now (i : Instr) (s : State) (hc : s.Clean .s) (d : XNum) (v : W64) (rs : List XNum) (hrs : ∀ r ∈ rs, s.HasX r)
    (hidle : s.me.Idle (.x, d.toNat)) (m : Ctx → Out) (l : List (Port × Nat))
    (hm : m (ctxOf s) = Out.check (xLim (ctxOf s) rs) { act := wX (ctxOf s) d v 0, reads := l }) :
    ∃ t, slotOp i s m = .next t ∧ (t.hw.seat s.cur.seat).xr d.toNat = (if d = 0 then 0 else v) ∧
      s.Leaves t s.hw s.me [(.x, d.toNat)] := by
  rw [Out.check_hasX hc hrs] at hm
  obtain ⟨t, ht, hl, hx, -⟩ := wX_clean i s hc d v 0 m s.rest (by rw [hm]) (by rw [hm]) hc.rest_ok hc.plain.1 (by rw [hm])
  exact ⟨t, ht, hx rfl hidle, hl⟩

/-- An immediate form whose operation is g on the register and the image of the immediate (R194). -/
theorem siOp_writes (i : Instr) (s : State) (hc : s.Clean .s) (f : FSI) (hd : s.HasX f.d) (ha : s.HasX f.a)
    (hidle : s.me.Idle (.x, f.d.toNat)) (op : Nat → Nat → Nat) (g : W64 → W64 → W64)
    (hop : ∀ x y : W64, BitVec.ofNat 64 (op x.toNat y.toNat) = g x y) :
    ∃ t, slotOp i s (fun c => siOp c f op) = .next t ∧
      (t.hw.seat s.cur.seat).xr f.d.toNat = (if f.d = 0 then 0 else g (s.me.xr f.a.toNat) (immVal f.imm)) ∧
      s.Leaves t s.hw s.me [(.x, f.d.toNat)] := by
  refine wX_now i s hc f.d _ [f.d, f.a] (hasX_pair hd ha) hidle _ (xReads [f.a]) ?_
  show siOp (ctxOf s) f op = _
  unfold siOp
  rw [hc.xOp_eq, imageNat_immInt, hop]

/-- A conditional branch whose condition is g on its registers (R195). -/
theorem brOp_goes (i : Instr) (s : State) (hc : s.Clean .s) (f : FSB) (ha : s.HasX f.a) (hb : s.HasX f.b)
    (hlast : s.cur.last = true) (hloops : s.me.loops = []) (taken : Nat → Nat → Bool) (g : W64 → W64 → Bool)
    (hg : ∀ x y : W64, taken x.toNat y.toNat = g x y) :
    ∃ t, slotOp i s (fun c => brOp c f taken) = .next t ∧ s.Leaves t s.hw s.me [] ∧
      (t.hw.seat s.cur.seat).pc = (if g (s.me.xr f.a.toNat) (s.me.xr f.b.toNat) then target s f.off else following s) := by
  have hm : brOp (ctxOf s) f taken =
      { act := Act.nil, reads := xReads [f.a, f.b],
        issue := fun j => if g (s.me.xr f.a.toNat) (s.me.xr f.b.toNat)
          then { j with target := some (branchTarget (ctxOf s) (immInt f.off)) } else j } := by
    unfold brOp
    rw [Out.check_hasX hc (hasX_pair ha hb), hc.xOp_eq, hc.xOp_eq, hg]
  cases h : g (s.me.xr f.a.toNat) (s.me.xr f.b.toNat) with
  | true =>
    obtain ⟨t, ht, hl, hpc⟩ := nil_clean i s hc (fun c => brOp c f taken) (s.taken f.off) (by rw [hm])
      (by simp only [hm, h, if_true]; rfl) (hc.taken_ok f.off) hc.plain.1 (by rw [hm])
    exact ⟨t, ht, hl, hpc.trans (nextPc_taken s _ f.off hlast)⟩
  | false =>
    obtain ⟨t, ht, hl, hpc⟩ := nil_clean i s hc (fun c => brOp c f taken) s.rest (by rw [hm])
      (by simp only [hm, h, Bool.false_eq_true, if_false]) hc.rest_ok hc.plain.1 (by rw [hm])
    exact ⟨t, ht, hl, hpc.trans (hc.nextPc_rest hlast hloops)⟩

/-- J is always taken (R195). -/
theorem exec_j_goes (s : State) (off : Imm 24) (hc : s.Clean .s) (hlast : s.cur.last = true) :
    ∃ t, exec (.j off) s = .next t ∧ s.Leaves t s.hw s.me [] ∧ (t.hw.seat s.cur.seat).pc = target s off := by
  rw [exec_j]
  unfold execJ
  obtain ⟨t, ht, hl, hpc⟩ := nil_clean (.j off) s hc
    (fun c => { act := Act.nil, issue := fun i => { i with target := some (branchTarget c (immInt off)) } })
    (s.taken off) rfl rfl (hc.taken_ok off) hc.plain.1 rfl
  exact ⟨t, ht, hl, hpc.trans (nextPc_taken s _ off hlast)⟩

/-- JAL is always taken, and writes the address of the first word after its bundle to x1 (R195). -/
theorem exec_jal_goes (s : State) (off : Imm 24) (hc : s.Clean .s) (hlast : s.cur.last = true) (h1 : s.HasX 1)
    (hidle : s.me.Idle (.x, 1)) :
    ∃ t, exec (.jal off) s = .next t ∧ s.Leaves t s.hw s.me [(.x, 1)] ∧
      (t.hw.seat s.cur.seat).pc = target s off ∧ (t.hw.seat s.cur.seat).xr 1 = following s := by
  rw [exec_jal]
  unfold execJal
  have hm := Out.check_hasX hc (hasX_single h1)
    { act := wX (ctxOf s) 1 (returnAddr (ctxOf s)) 0
      issue := fun i => { i with target := some (branchTarget (ctxOf s) (immInt off)) } }
  obtain ⟨t, ht, hl, hx, -, hhw⟩ := wX_clean (.jal off) s hc 1 (returnAddr (ctxOf s)) 0
    (fun c => Out.check (xLim c [1])
      { act := wX c 1 (returnAddr c) 0, issue := fun i => { i with target := some (branchTarget c (immInt off)) } })
    (s.taken off) (by rw [hm]) (by rw [hm]; rfl) (hc.taken_ok off) hc.plain.1 (by rw [hm])
  refine ⟨t, ht, hl, ?_, hx rfl hidle⟩
  rw [hhw, (State.after1_pc ..).1, nextPc_taken _ _ _ hlast]

/-- Settles O4: each form's operation on images is that of `immForms` on bit vectors. -/
theorem immediateResult : Obligations.ImmediateResult := by
  intro s d a i f hf hc hd ha hidle
  simp only [immForms, List.mem_cons, List.not_mem_nil, or_false] at hf
  have si (ins : Instr) := siOp_writes ins s hc ⟨d, a, i⟩ hd ha hidle
  rcases hf with rfl | rfl | rfl | rfl | rfl | rfl | rfl | rfl | rfl | rfl | rfl
  · exact si _ _ (· + ·) (fun x y => by simp [BitVec.ofNat_add])
  · exact si _ _ (· &&& ·) (fun x y => by simp)
  · exact si _ _ (· ||| ·) (fun x y => by simp)
  · exact si _ _ (· ^^^ ·) (fun x y => by simp)
  · exact si _ _ (fun x y => x <<< (y.toNat % 64)) (fun x y => ofNat_shiftLeft_toNat x _)
  · exact si _ _ (fun x y => x >>> (y.toNat % 64)) (fun x y => ofNat_shiftRight_toNat x _)
  · exact si _ _ (fun x y => x.sshiftRight (y.toNat % 64)) (fun x y => ofNat_imageNat_shiftRight x _)
  · exact si _ _ (fun x y => if x.slt y then 1 else 0) (fun x y => by simp only [ofNat_ite_one_zero, ← decide_sextNat_lt, decide_eq_true_eq])
  · exact si _ _ (fun x y => if x.ult y then 1 else 0) (fun x y => by simp only [ofNat_ite_one_zero, BitVec.ult_iff_toNat_lt])
  · exact si _ _ (fun x y => y.extractLsb' 0 32 ++ x.extractLsb' 0 32) ofNat_high_low
  · rw [exec_li]
    refine wX_now _ s hc d (immVal i) [d] (hasX_single hd) hidle _ [] ?_
    rw [← ofInt_immInt]; rfl

/-- Settles O5: the branches by their conditions on bit vectors, J and JAL by `exec_j_goes` and `exec_jal_goes`. -/
theorem branchGoes : Obligations.BranchGoes := by
  refine ⟨fun s a b off f hf hc ha hb hlast hloops => ?_, fun s off hc hlast => ⟨exec_j_goes s off hc hlast, exec_jal_goes s off hc hlast⟩⟩
  simp only [branchForms, List.mem_cons, List.not_mem_nil, or_false] at hf
  have br (ins : Instr) := brOp_goes ins s hc ⟨a, b, off⟩ ha hb hlast hloops
  rcases hf with rfl | rfl | rfl | rfl | rfl | rfl
  · exact br _ _ (fun x y => x == y) decide_toNat_eq
  · exact br _ _ (fun x y => x != y) (fun x y => by rw [decide_not, decide_toNat_eq]; rfl)
  · exact br _ _ BitVec.slt decide_sextNat_lt
  · exact br _ _ (fun x y => !x.slt y) (fun x y => by rw [← decide_sextNat_lt, ← decide_not, decide_eq_decide, Int.not_lt])
  · exact br _ _ BitVec.ult (fun x y => rfl)
  · exact br _ _ (fun x y => !x.ult y) (fun x y => by rw [BitVec.ult_eq_decide, ← decide_not, decide_eq_decide, Nat.not_lt])

end Sys2Proof.Machine

/-! ## Compares, mask forms, and the forms that convert and move lanes (R231 to R236, R243) -/

namespace Sys2Proof.Machine
open Sys2Proof.Claim

/-! ### Lanes and elements as bit vectors -/

theorem el_toNat (w : Nat) (x : BitVec 2048) (n e : Nat) (he : e < 32 / w) : (el w x n e).toNat = elemOf w (lane x n) e :=
  elem_extract w x n e he

@[simp] theorem ln_toNat (x : BitVec 2048) (n : Nat) : (ln x n).toNat = lane x n := by
  rw [ln, el_toNat 32 x n 0 (by decide), elemOf, Nat.mul_zero, Nat.pow_zero, Nat.div_one]
  exact Nat.mod_eq_of_lt (Nat.mod_lt _ (by decide))

@[simp] theorem ofNat_lane (x : BitVec 2048) (n : Nat) : BitVec.ofNat 32 (lane x n) = ln x n := by
  rw [← ln_toNat, BitVec.ofNat_toNat, BitVec.setWidth_eq]

theorem lane_lt (x : BitVec 2048) (n : Nat) : lane x n < 2 ^ 32 := ln_toNat x n ▸ (ln x n).isLt

theorem sextNat_lane (x : BitVec 2048) (n : Nat) : sextNat 32 (lane x n) = (ln x n).toInt := by
  rw [← ln_toNat, sextNat_toNat 32 (by decide)]

theorem ln_ofLanes (f : Nat → Nat) (n : Nat) (hn : n < 64) : ln (ofLanes f) n = BitVec.ofNat 32 (f n) := by
  apply BitVec.eq_of_toNat_eq
  rw [ln_toNat, lane_ofLanes f n hn, BitVec.toNat_ofNat]

theorem ln_splat (x n : Nat) (hn : n < 64) : ln (splat x) n = BitVec.ofNat 32 x := ln_ofLanes _ n hn

/-- The lowest element of a lane is its low bits. -/
theorem el_zero_toNat (w : Nat) (hw : 0 < 32 / w) (x : BitVec 2048) (n : Nat) : (el w x n 0).toNat = lane x n % 2 ^ w := by
  rw [el_toNat w x n 0 hw, elemOf, Nat.mul_zero, Nat.pow_zero, Nat.div_one]

/-- Under a full mask too, a merge takes each lane by its bit of the mask. -/
theorem ln_mergeLanes (m : W64) (a b : BitVec 2048) (n : Nat) (hn : n < 64) :
    ln (mergeLanes m a b) n = if m.getLsbD n then ln a n else ln b n := by
  unfold mergeLanes
  split
  · rename_i hm
    rw [if_pos (by rw [hm, BitVec.getLsbD_allOnes]; exact decide_eq_true hn)]
  · rw [ln_ofLanes _ n hn, apply_ite (BitVec.ofNat 32), ofNat_lane, ofNat_lane]

/-- A form runs at one of the three element widths (R224). -/
theorem VIn.w_cases (v : VIn) : v.w = 16 ∨ v.w = 8 ∨ v.w = 32 := by
  unfold VIn.w vrWidth
  dsimp only
  split
  · exact .inl rfl
  · split
    · exact .inr (.inl rfl)
    · exact .inr (.inr rfl)

theorem VIn.w_pos (v : VIn) : 0 < v.w ∧ 0 < 32 / v.w := by
  rcases v.w_cases with h | h | h <;> rw [h] <;> decide

/-! ### Masks of lanes -/

/-- Bit i of a number folded from bits. -/
theorem testBit_bitsOf (n : Nat) (f : Nat → Bool) (i : Nat) : (bitsOf n f).testBit i = (decide (i < n) && f i) := by
  induction n with
  | zero => simp [bitsOf]
  | succ n ih =>
    have hstep : bitsOf (n + 1) f = if f n then bitsOf n f ||| 1 <<< n else bitsOf n f := by
      simp only [bitsOf, List.range_succ, List.foldl_append, List.foldl_cons, List.foldl_nil]
    have hbit : (1 <<< n).testBit i = decide (n = i) := by rw [Nat.one_shiftLeft, Nat.testBit_two_pow]
    rw [hstep, apply_ite (fun x => Nat.testBit x i), Nat.testBit_or, hbit, ih]
    by_cases hi : i = n
    · subst hi
      cases f i <;> simp
    · have hlt : i < n + 1 ↔ i < n := by omega
      simp [hlt, Ne.symm hi]

theorem getLsbD_cmpMask (v : VIn) (p : Nat → Nat → Bool) (n : Nat) (hn : n < 64) :
    (v.cmpMask p).getLsbD n = (v.m.getLsbD n && p (ln v.a n).toNat (ln v.b n).toNat) := by
  unfold VIn.cmpMask
  rw [BitVec.getLsbD_ofNat, testBit_bitsOf, ln_toNat, ln_toNat]
  simp only [hn, decide_true, Bool.true_and]

/-- The integer conditions on images are those on bit vectors (R231). -/
theorem intCc_toNat (cc : Nat) (x y : BitVec 32) : intCc cc x.toNat y.toNat = intCond cc x y := by
  have hs (z : BitVec 32) : sextNat 32 z.toNat = z.toInt := sextNat_toNat 32 (by decide) z
  unfold intCc
  dsimp only
  rw [hs, hs]
  match cc with
  | 0 => exact decide_eq_decide.mpr BitVec.toNat_inj
  | 1 => exact congrArg not (decide_eq_decide.mpr BitVec.toNat_inj)
  | 2 => exact (BitVec.slt_eq_decide).symm
  | 3 => exact (BitVec.sle_eq_decide).symm
  | 4 => exact (BitVec.slt_eq_decide).symm
  | 5 => exact (BitVec.sle_eq_decide).symm
  | 6 => exact (BitVec.ult_eq_decide).symm
  | _ + 7 => exact (BitVec.ule_eq_decide).symm

/-- A form whose lane mask r, one ck after issue, has bit n as p says. -/
theorem maskForm_writes (i : Instr) (s : State) (sl : Slot) (f : FVR) (r : VIn → W64) (p : VIn → Nat → Bool) (hc : s.Clean sl)
    (hsl : sl = .v0 ∨ sl = .v1) (hcau : (vIn (ctxOf s) i f).causes = []) (hlat : (vuOf i).lat = 1)
    (hr : ∀ v n, n < 64 → (r v).getLsbD n = p v n) :
    ∃ t k, slotOp i s (fun c => (vIn c i f).outK (r (vIn c i f))) = .next t ∧
      (f.d.toNat % 8 ≠ 0 → kPend (ctxOf s) (f.d.toNat % 8) k 1 ∈ (t.hw.seat s.cur.seat).pend) ∧
      (∀ n < 64, k.getLsbD n = p (vIn (ctxOf s) i f) n) ∧ VectorLeaves s t i f false := by
  obtain ⟨t, ht, hl, hp⟩ := voutK_clean i s sl f (fun c => r (vIn c i f)) hc hsl hcau (by omega)
  exact ⟨t, r (vIn (ctxOf s) i f), ht, hlat ▸ hp, hr _, hl⟩

/-- Settles O24: the comparisons by `getLsbD_cmpMask`, the mask forms bit by bit. -/
theorem vectorMask : Obligations.VectorMask := by
  intro s sl f g hg hsl hc v hcau
  have form (i : Instr) := maskForm_writes i s sl f
  simp only [maskForms, List.mem_cons, List.not_mem_nil, or_false] at hg
  rcases hg with rfl | rfl | rfl | rfl | rfl | rfl
  · exact form (.vcmp f) (fun v => v.cmpMask (intCc v.x.cc.toNat)) _ hc hsl hcau rfl
      (fun v n hn => by rw [getLsbD_cmpMask v _ n hn, intCc_toNat])
  · exact form (.vfcmp f) (fun v => v.cmpMask (fun a b => fltCc v.x.cc.toNat (FVal.cmp (fp32.decode a) (fp32.decode b)))) _
      hc hsl hcau rfl (fun v n hn => getLsbD_cmpMask v _ n hn)
  · exact form (.kand f) (fun v => v.ka &&& v.kb) _ hc hsl hcau rfl (fun _ _ _ => BitVec.getLsbD_and)
  · exact form (.kor f) (fun v => v.ka ||| v.kb) _ hc hsl hcau rfl (fun _ _ _ => BitVec.getLsbD_or)
  · exact form (.kxor f) (fun v => v.ka ^^^ v.kb) _ hc hsl hcau rfl (fun _ _ _ => BitVec.getLsbD_xor)
  · exact form (.knot f) (fun v => ~~~v.ka) _ hc hsl hcau rfl (fun v n hn => by simp [hn])

/-! ### Lanes that a form writes -/

/-- A form that writes a vector, lat ck after issue, under the mask k, whose lane n is as l says. -/
theorem laneForm_writes (i : Instr) (s : State) (sl : Slot) (f : FVR) (no32 : Bool) (lat : Nat) (k : VIn → W64) (r : VIn → BitVec 2048)
    (l : VIn → Nat → BitVec 32) (hc : s.Clean sl) (hsl : sl = .v0 ∨ sl = .v1) (hcau : (vIn (ctxOf s) i f).causes = [])
    (hlat : (vuOf i).lat = lat) (hpos : 0 < lat) (hr : ∀ v n, n < 64 → ln (r v) n = l v n) :
    ∃ t x, slotOp i s (fun c => (vIn c i f).out no32 (k (vIn c i f)) (r (vIn c i f))) = .next t ∧
      vPend (ctxOf s) f.d (ctxOf s).o1 (k (vIn (ctxOf s) i f)) x lat ∈ (t.hw.seat s.cur.seat).pend ∧
      (∀ n < 64, ln x n = l (vIn (ctxOf s) i f) n) ∧ VectorLeaves s t i f no32 := by
  obtain ⟨t, ht, hl, hp⟩ := vout_clean i s sl f no32 (fun c => k (vIn c i f)) (fun c => r (vIn c i f)) hc hsl hcau (by omega)
  exact ⟨t, r (vIn (ctxOf s) i f), ht, hlat ▸ hp, hr _, hl⟩

/-- The lane that VUNPACK writes: at 32 bits the copy of A is the one element of each lane (R235). -/
theorem ln_unpackLane (w : Nat) (hw : 0 < w) (hq : 0 < 32 / w) (f : FVR) (v : VIn) (n : Nat) (hn : n < 64) :
    ln (if w = 32 then v.a else ofLanes (unpackLane w f.b.toNat v.a)) n = unpacked w f v n := by
  split
  · subst w
    simp [unpacked, ln, Nat.mod_one]
  · have he : (64 * (f.b.toNat % (32 / w)) + n) % (32 / w) < 32 / w := Nat.mod_lt _ hq
    rw [ln_ofLanes _ n hn]
    unfold unpackLane unpacked
    dsimp only
    rw [← el_toNat w v.a _ _ he, apply_ite (BitVec.ofNat 32), BitVec.ofNat_toNat, ofNat_imageNat, sextNat_toNat w hw]
    rfl

theorem packLane_lt (w : Nat) (a b d : BitVec 2048) (n : Nat) : packLane w a b d n < 2 ^ 32 := by
  unfold packLane
  dsimp only
  split
  · exact laneOf_lt _ _
  · split
    · exact laneOf_lt _ _
    · exact lane_lt d n

/-- The elements that VPACK writes: at 32 bits each lane of A is one element (R234). -/
theorem el_packLane (w : Nat) (v : VIn) (n e : Nat) (hn : n < 64) (he : e < 32 / w) :
    el w (if w = 32 then v.a else ofLanes (packLane w v.a v.b v.d)) n e = packed w v n e := by
  have hq : 0 < 32 / w := Nat.zero_lt_of_lt he
  split
  · subst w
    obtain rfl : e = 0 := by omega
    simp [packed, hn]
  · apply BitVec.eq_of_toNat_eq
    rw [el_toNat w _ n e he, lane_ofLanes _ n hn, Nat.mod_eq_of_lt (packLane_lt ..)]
    unfold packLane packed
    dsimp only
    split
    · rw [elemOf_laneOf w _ e he, el_zero_toNat w hq]
    · split
      · rw [elemOf_laneOf w _ e he, el_zero_toNat w hq]
      · rw [el_toNat w v.d n e he]

/-- VSLIDE moves lanes by the signed value of lane 0 of B, and 0 comes in (R236). -/
theorem ln_slide (a b : BitVec 2048) (n : Nat) (hn : n < 64) :
    ln (ofLanes (fun n => if 0 ≤ (n : Int) + sextNat 32 (lane b 0) ∧ (n : Int) + sextNat 32 (lane b 0) < 64 then
      lane a ((n : Int) + sextNat 32 (lane b 0)).toNat else 0)) n =
    if 0 ≤ (n : Int) + (ln b 0).toInt ∧ (n : Int) + (ln b 0).toInt < 64 then ln a ((n : Int) + (ln b 0).toInt).toNat else 0 := by
  rw [ln_ofLanes _ n hn, sextNat_lane, apply_ite (BitVec.ofNat 32), ofNat_lane]
  rfl

/-- The lane forms of R232, R233, R235 and R236. -/
theorem laneForms_write (s : State) (sl : Slot) (f : FVR) (hsl : sl = .v0 ∨ sl = .v1) (hc : s.Clean sl)
    (g : Instr × Nat × (VIn → W64) × (VIn → Nat → BitVec 32)) (hg : g ∈ laneForms f) (hcau : (vIn (ctxOf s) g.1 f).causes = []) :
    ∃ t r, exec g.1 s = .next t ∧
      vPend (ctxOf s) f.d (ctxOf s).o1 (g.2.2.1 (vIn (ctxOf s) g.1 f)) r g.2.1 ∈ (t.hw.seat s.cur.seat).pend ∧
      (∀ n < 64, ln r n = g.2.2.2 (vIn (ctxOf s) g.1 f) n) ∧ VectorLeaves s t g.1 f (g.1 == .vunpack f) := by
  have form (i : Instr) := laneForm_writes i s sl f (i == .vunpack f)
  simp only [laneForms, List.mem_cons, List.not_mem_nil, or_false] at hg
  rcases hg with rfl | rfl | rfl | rfl | rfl | rfl | rfl
  · exact form (.vcvt f) 3 VIn.m (fun v => ofLanes (fun n => convLane f.b.toNat v.rm (lane v.a n))) _ hc hsl hcau rfl (by decide)
      (fun v n hn => by simp only [ln_ofLanes _ n hn, ln_toNat])
  · rw [exec_vunpack, execVunpack]
    have h := form (.vunpack f) 3 VIn.m (fun v => if v.w = 32 then v.a else ofLanes (unpackLane v.w f.b.toNat v.a))
      (fun v n => unpacked v.w f v n) hc hsl hcau rfl (by decide)
      (fun v n hn => ln_unpackLane v.w v.w_pos.1 v.w_pos.2 f v n hn)
    rw [beq_self_eq_true] at h ⊢
    exact h
  · exact form (.vshuf f) 2 VIn.m (fun v => ofLanes (fun n => lane v.a (lane v.b n % 64))) _ hc hsl hcau rfl (by decide)
      (fun v n hn => by simp only [ln_ofLanes _ n hn, ofNat_lane, ln_toNat])
  · exact form (.vbcast f) 2 VIn.m (fun v => splat (lane v.a v.sel)) _ hc hsl hcau rfl (by decide)
      (fun v n hn => by simp only [VIn.sel, ln_splat _ n hn, ofNat_lane, ln_toNat])
  · exact form (.vslide f) 2 VIn.m (fun v => ofLanes (fun n => let j := (n : Int) + sextNat 32 (lane v.b 0)
      if 0 ≤ j ∧ j < 64 then lane v.a j.toNat else 0)) _ hc hsl hcau rfl (by decide) (fun v n hn => ln_slide v.a v.b n hn)
  · exact form (.vselk f) 1 (fun _ => allLanes) (fun v => mergeLanes v.m v.a v.b) _ hc hsl hcau rfl (by decide)
      (fun v n hn => ln_mergeLanes v.m v.a v.b n hn)
  · exact form (.kpopc f) 2 (fun _ => allLanes) (fun v => splat ((List.range 64).filter (fun n => v.ka.getLsbD n)).length) _
      hc hsl hcau rfl (by decide) (fun v n hn => ln_splat _ n hn)

/-- VPACK gathers the elements of A, then those of B, under its mask (R234). -/
theorem exec_vpack_writes (s : State) (sl : Slot) (f : FVR) (hsl : sl = .v0 ∨ sl = .v1) (hc : s.Clean sl)
    (hcau : (vIn (ctxOf s) (.vpack f) f).causes = []) :
    ∃ t r, exec (.vpack f) s = .next t ∧
      vPend (ctxOf s) f.d (ctxOf s).o1 (vIn (ctxOf s) (.vpack f) f).m r 3 ∈ (t.hw.seat s.cur.seat).pend ∧
      (∀ n < 64, ∀ e < 32 / (vIn (ctxOf s) (.vpack f) f).w,
        el (vIn (ctxOf s) (.vpack f) f).w r n e = packed (vIn (ctxOf s) (.vpack f) f).w (vIn (ctxOf s) (.vpack f) f) n e) ∧
      VectorLeaves s t (.vpack f) f true := by
  obtain ⟨t, ht, hl, hp⟩ := vout_clean (.vpack f) s sl f true (fun c => (vIn c (.vpack f) f).m) (fun c =>
    let v := vIn c (.vpack f) f
    if v.w = 32 then v.a else ofLanes (packLane v.w v.a v.b v.d)) hc hsl hcau (show 0 < 3 by decide)
  exact ⟨t, _, ht, hp, fun n hn e he => el_packLane _ _ n e hn he, hl⟩

/-! ### VMOV and VNOP -/

@[simp] theorem vIn_x (c : Ctx) (i : Instr) (f : FVR) : (vIn c i f).x = FVR.x f := rfl

theorem State.Clean.vIn_s {s : State} {sl : Slot} (hc : s.Clean sl) (i : Instr) (f : FVR) : (vIn (ctxOf s) i f).c.s = s.me := hc.ctx_s

theorem laneOf_32 (g : Nat → Nat) : laneOf 32 g = g 0 % 2 ^ 32 := by
  simp [laneOf]

/-- The immediate at 32 bits is in every lane, sign-extended (R225). -/
theorem ln_immAt_32 (v : VIn) (n : Nat) (hn : n < 64) : ln (v.immAt 32) n = v.x.imm.signExtend 32 := by
  rw [VIn.immAt, ln_splat _ n hn, laneOf_32, imageNat_eq, Nat.mod_eq_of_lt (BitVec.isLt _), BitVec.ofNat_toNat, BitVec.setWidth_eq]
  rfl

/-- A vector operation whose effects are its warnings, its unit held and one vector on its way. -/
theorem wV_clean (i : Instr) (s : State) (sl : Slot) (hc : s.Clean sl) (hsl : sl = .v0 ∨ sl = .v1) (bits : BitVec 8) (occ : Nat)
    (d : VSpec) (o : Int) (k : W64) (r : BitVec 2048) (lat : Nat) (hlat : 0 < lat) (cs : List Cause) (hcs : cs = []) (m : Ctx → Out)
    (hm : ∃ l, m (ctxOf s) = Out.check cs
      { act := Act.all [warnBits (ctxOf s) bits, holdUnit (ctxOf s) occ, wV (ctxOf s) d o k r lat], reads := l }) :
    ∃ t, slotOp i s m = .next t ∧ vPend (ctxOf s) d o k r lat ∈ (t.hw.seat s.cur.seat).pend ∧
      s.LeavesCore t s.myCore (s.me.warned bits) [] := by
  subst hcs
  obtain ⟨l, hm⟩ := hm
  have hE := ((EngineIs.refl s).warnBits hc bits |>.holdPath hc (pVec (vUnit (ctxOf s))) occ).modSeat
    (fun x => x.addPend (vPend (ctxOf s) d o k r lat))
  have hdue : s.coreTime < (vPend (ctxOf s) d o k r lat).due := by
    show s.coreTime < (ctxOf s).t + lat
    rw [hc.ctx_t]
    omega
  obtain ⟨t, ht, hl, hp⟩ := vec_clean i s sl m bits occ [vPend (ctxOf s) d o k r lat] id hc hsl (by rw [hm]; rfl) (by rw [hm]; rfl)
    (by rw [hm]; simp only [Out.check, List.isEmpty_nil, if_true, Hw.run_all_cons, Hw.run_all_nil]; exact hE)
    ⟨rfl, hc.brk, fun _ => rfl⟩ (fun p h => List.mem_singleton.mp h ▸ hdue)
  exact ⟨t, ht, hp _ (List.mem_singleton.mpr rfl), hl⟩

/-- A vector operation whose effects are its warnings: it holds no unit. -/
theorem warnBits_clean (i : Instr) (s : State) (sl : Slot) (hc : s.Clean sl) (hsl : sl = .v0 ∨ sl = .v1) (bits : BitVec 8) (m : Ctx → Out)
    (hm : m (ctxOf s) = Out.ok (warnBits (ctxOf s) bits)) :
    ∃ t, slotOp i s m = .next t ∧ s.LeavesCore t s.myCore (s.me.warned bits) [] := by
  have hs : sl ≠ .s ∧ sl ≠ .m := by rcases hsl with h | h <;> rw [h] <;> decide
  have hst := stickySeat_vec hc hs.2 (ctxOf s) i (s.me.warned bits)
  obtain ⟨t, ht, hl, -⟩ := engine_clean i s sl m s.myCore (s.me.warned bits) (s.me.warned bits) [] hc hs.1 (by rw [hm]; rfl)
    (by rw [hm]; rfl) (by rw [hm]; exact (EngineIs.refl s).warnBits hc bits) ⟨rfl, rfl, rfl⟩ (by rw [hst]; rfl)
    (by rw [hst]; exact hc.brk) (fun _ _ _ => by rw [hst]; rfl) (fun q _ hidle p hp _ _ => hidle p (by rw [hst] at hp; exact hp))
  exact ⟨t, ht, hl⟩

/-- VMOV writes whole lanes one ck after issue: the immediate at 32 bits under IM, else A (R243). -/
theorem exec_vmov_writes (s : State) (sl : Slot) (f : FVR) (hsl : sl = .v0 ∨ sl = .v1) (hc : s.Clean sl)
    (hcau : specCauses (ctxOf s) f.d (ctxOf s).o1 ++ (if (FVR.x f).im then [] else specCauses (ctxOf s) f.a (ctxOf s).o2) = []) :
    let v := vIn (ctxOf s) (.vmov f) f
    ∃ t, exec (.vmov f) s = .next t ∧
      vPend (ctxOf s) f.d (ctxOf s).o1 v.m (if v.x.im then v.immAt 32 else v.a) 1 ∈ (t.hw.seat s.cur.seat).pend ∧
      s.LeavesCore t s.myCore (s.me.warned (vrWarn f { v.u with b := .unused } true false)) [] := by
  rw [exec_vmov, execVmov]
  refine wV_clean (.vmov f) s sl hc hsl _ 1 f.d _ _ _ 1 (by decide) _ hcau _ ?_
  exact ⟨_, rfl⟩

/-- VNOP leaves its warnings alone (R164, R179). -/
theorem exec_vnop_leaves (s : State) (sl : Slot) (e : Option VExt) (hsl : sl = .v0 ∨ sl = .v1) (hc : s.Clean sl) :
    ∃ b t, exec (.vnop e) s = .next t ∧ s.LeavesCore t s.myCore (s.me.warned b) [] :=
  ⟨_, warnBits_clean (.vnop e) s sl hc hsl _ (fun _ => _) rfl⟩

/-- Settles O25: the lane forms, VPACK, VMOV by its IM bit, and VNOP. -/
theorem vectorLanes : Obligations.VectorLanes := by
  intro s sl f hsl hc
  refine ⟨laneForms_write s sl f hsl hc, exec_vpack_writes s sl f hsl hc, fun hd him ha => ?_, fun hd him => ?_, fun e => ?_⟩
  · obtain ⟨t, ht, hp, hl⟩ := exec_vmov_writes s sl f hsl hc (by simp [hd, him, ha])
    rw [vIn_x, if_neg (by simp [him]), VIn.m, hc.vIn_s] at hp
    exact ⟨t, _, ht, hp, hl⟩
  · obtain ⟨t, ht, hp, hl⟩ := exec_vmov_writes s sl f hsl hc (by simp [hd, him])
    rw [vIn_x, if_pos him, VIn.m, hc.vIn_s] at hp
    exact ⟨t, _, _, ht, hp, fun n hn => ln_immAt_32 _ n hn, hl⟩
  · obtain ⟨b, t, ht, hl⟩ := exec_vnop_leaves s sl e hsl hc
    exact ⟨t, b, ht, hl⟩

end Sys2Proof.Machine

/-! ## What the forms of the matrix slot share: maps, rows, windows, and what an operation does (R88, R244 to R246, R265) -/

namespace Sys2Proof.Machine
open Sys2Proof.Claim

/-! ### Several keys of a sparse map -/

section
variable {α : Type} [DecidableEq α] (d : α)

theorem SMap.get_setAll_other (l : List (Nat × α)) (m : SMap α) (k : Nat) (h : ∀ p ∈ l, p.1 ≠ k) :
    SMap.get d (SMap.setAll d m l) k = SMap.get d m k := by
  induction l generalizing m with
  | nil => rfl
  | cons p r ih =>
    exact (ih (SMap.set d m p.1 p.2) (fun q hq => h q (List.mem_cons_of_mem _ hq))).trans
      (SMap.get_set_ne d m p.2 (Ne.symm (h p (List.mem_cons_self ..))))

/-- A key that is written, and always with the same value. -/
theorem SMap.get_setAll_mem (l : List (Nat × α)) (m : SMap α) (k : Nat) (v : α) (hk : ∃ p ∈ l, p.1 = k) (hv : ∀ p ∈ l, p.1 = k → p.2 = v) :
    SMap.get d (SMap.setAll d m l) k = v := by
  induction l generalizing m with
  | nil => simp at hk
  | cons p r ih =>
    by_cases hr : ∃ q ∈ r, q.1 = k
    · exact ih (SMap.set d m p.1 p.2) hr (fun q hq => hv q (List.mem_cons_of_mem _ hq))
    · have hp : p.1 = k := by
        obtain ⟨q, hq, e⟩ := hk
        rcases List.mem_cons.mp hq with rfl | hq
        · exact e
        · exact absurd ⟨q, hq, e⟩ hr
      refine (SMap.get_setAll_other d r (SMap.set d m p.1 p.2) k (fun q hq e => hr ⟨q, hq, e⟩)).trans ?_
      rw [← hp, SMap.get_set_self]
      exact hv p (List.mem_cons_self ..) hp

/-- Keys written by a list whose members have keys of their own. -/
theorem SMap.get_setAll_map {β : Type} (l : List β) (key : β → Nat) (val : β → α) (m : SMap α) (b : β) (hb : b ∈ l)
    (hinj : ∀ a ∈ l, key a = key b → a = b) : SMap.get d (SMap.setAll d m (l.map (fun a => (key a, val a)))) (key b) = val b := by
  refine SMap.get_setAll_mem d _ m (key b) (val b) ⟨_, List.mem_map_of_mem hb, rfl⟩ (fun p hp e => ?_)
  obtain ⟨a, ha, rfl⟩ := List.mem_map.mp hp
  rw [hinj a ha e]

omit [DecidableEq α] in
theorem SMap.get_keep (m : SMap α) (p : Nat → Bool) (k : Nat) : SMap.get d (SMap.keep m p) k = if p k then SMap.get d m k else d := by
  induction m with
  | nil => simp [SMap.keep, SMap.get]
  | cons e r ih =>
    obtain ⟨n, v⟩ := e
    unfold SMap.keep at ih ⊢
    rw [List.filter_cons]
    by_cases hn : n = k
    · subst hn
      by_cases hp : p n <;> simp [hp, SMap.get, ih]
    · by_cases hp : p n <;> simp [hp, hn, SMap.get, ih]

/-- A map made from a function of the key. -/
theorem SMap.get_filterMap (l : List Nat) (f : Nat → α) (k : Nat) :
    SMap.get d (l.filterMap (fun n => if f n = d then none else some (n, f n))) k = if k ∈ l then f k else d := by
  induction l with
  | nil => rfl
  | cons n r ih =>
    by_cases hf : f n = d
    · rw [List.filterMap_cons_none (by simp [hf]), ih]
      by_cases hn : k = n
      · subst hn; simp [hf]
      · simp [hn]
    · rw [List.filterMap_cons_some (by rw [if_neg hf])]
      by_cases hn : k = n
      · subst hn; simp [SMap.get]
      · simp [SMap.get, Ne.symm hn, hn, ih]

end

/-! ### Rows of accumulators -/

theorem ARow.at_rowEls (e : Int) (f : Nat → AElem) (st sa : Bool) (n : Nat) (hn : n < 64) : (ARow.mk e (rowEls f) st sa).at_ n = f n :=
  (SMap.get_filterMap ({} : AElem) (List.range 64) f n).trans (if_pos (List.mem_range.mpr hn))

/-- A row's key names the accumulator. -/
theorem accKey_div (d r : Nat) (hr : r < 64) : (64 * d + r) / 64 = d := by omega

theorem accKey_inj {d a b : Nat} (h : 64 * d + a = 64 * d + b) : a = b := by omega

/-- AZERO leaves empty rows (R90). -/
theorem Core.accRow_accZero (co : Core) (d r : Nat) (hr : r < 64) : (co.accZero d).accRow d r = {} := by
  unfold Core.accRow Core.accZero
  rw [SMap.get_keep, accKey_div d r hr, bne_self_eq_false]
  rfl

theorem Core.get_accZero_other (co : Core) (d k : Nat) (hk : k / 64 ≠ d) :
    SMap.get {} (co.accZero d).acc k = SMap.get {} co.acc k := by
  unfold Core.accZero
  rw [SMap.get_keep, if_pos (bne_iff_ne.mpr hk)]

/-- A core with all rows of accumulator d written. -/
def Core.accFill (co : Core) (d : Nat) (f : Nat → ARow) : Core :=
  { co with acc := SMap.setAll {} co.acc ((List.range 64).map (fun r => (64 * d + r, f r))) }

theorem Core.accRow_accFill (co : Core) (d : Nat) (f : Nat → ARow) (r : Nat) (hr : r < 64) : (co.accFill d f).accRow d r = f r :=
  SMap.get_setAll_map ({} : ARow) (List.range 64) (fun r => 64 * d + r) f co.acc r (List.mem_range.mpr hr) (fun _ _ => accKey_inj)

theorem Core.get_accFill_other (co : Core) (d : Nat) (f : Nat → ARow) (k : Nat) (hk : k / 64 ≠ d) :
    SMap.get {} (co.accFill d f).acc k = SMap.get {} co.acc k := by
  refine SMap.get_setAll_other ({} : ARow) _ co.acc k (fun p hp e => ?_)
  obtain ⟨r, hr, rfl⟩ := List.mem_map.mp hp
  exact hk (e ▸ accKey_div d r (List.mem_range.mp hr))

/-- What ANORM does to a row (R255). -/
theorem ARow.norm_eq (r : ARow) (gt : Nat) :
    (r.norm gt).e = r.e - normShift r gt ∧ (r.norm gt).start = r.start ∧ (r.norm gt).satr = r.satr ∧
    ∀ n < 64, ((r.norm gt).at_ n).m = (r.at_ n).m * 2 ^ normShift r gt ∧ ((r.norm gt).at_ n).code = (r.at_ n).code := by
  unfold ARow.norm normShift
  by_cases h : r.start || r.satr
  · simp [h]
  · simp only [h, if_false, Bool.false_eq_true]
    refine ⟨trivial, trivial, trivial, fun n hn => ?_⟩
    rw [ARow.at_rowEls _ _ _ _ n hn]
    exact ⟨by simp [mkElemFrom], rfl⟩

end Sys2Proof.Machine

/-! ## What an operation of the matrix slot does to its core and its seat -/

namespace Sys2Proof.Machine
open Sys2Proof.Claim

/-! ### Fields that `Core.Rest` and `Seat.Rest` keep -/

section
variable {a b : Core} (h : Core.Rest a b)
include h

theorem Core.Rest.eq : b = { a with path := b.path, rd := b.rd, wr := b.wr, mma := b.mma, banks := b.banks } := h
theorem Core.Rest.acc : b.acc = a.acc := by rw [h.eq]
theorem Core.Rest.tile : b.tile = a.tile := by rw [h.eq]
theorem Core.Rest.touched : b.touched = a.touched := by rw [h.eq]
theorem Core.Rest.ht : b.ht = a.ht := by rw [h.eq]
theorem Core.Rest.windows : b.windows = a.windows := by rw [h.eq]

theorem Core.Rest.trans {c : Core} (h2 : Core.Rest b c) : Core.Rest a c := by
  unfold Core.Rest at h h2 ⊢
  rw [h2, h]

end

theorem Seat.warned_zero (x : Seat) : x.warned 0 = x := by
  simp [Seat.warned]

/-! ### The effects of an operation on its own core and seat -/

/-- Hardware h is that of s but for the core and the seat in flight: the core is co, but for what `Core.Rest` names, and the seat is b.
Unless the operation is quiet, error records and the bytes of their rings may have changed too. -/
structure Does (s : State) (quiet : Prop) (h : Hw) (co : Core) (b : Seat) : Prop where
  hw : quiet → h = { s.hw with seats := h.seats, cores := h.cores }
  core : Core.Rest co (h.core (coreOf s.cur.seat))
  cores : ∀ n, n ≠ coreOf s.cur.seat → h.core n = s.hw.core n
  self : h.seat s.cur.seat = b
  ne : ∀ k, k ≠ s.cur.seat → h.seat k = s.hw.seat k

section
variable {s : State} {quiet : Prop} {h : Hw} {co : Core} {b : Seat}

theorem Does.refl (s : State) (quiet : Prop) : Does s quiet s.hw s.myCore (s.me.warned 0) :=
  ⟨fun _ => rfl, rfl, fun _ _ => rfl, (Seat.warned_zero _).symm, fun _ _ => rfl⟩

theorem Does.engine (hs : Does s quiet h co b) (hq : quiet) : EngineIs s h (h.core (coreOf s.cur.seat)) b :=
  ⟨hs.hw hq, rfl, hs.cores, hs.self, hs.ne⟩

theorem Does.modSeat (hs : Does s quiet h co b) (f : Seat → Seat) : Does s quiet (h.run (modSeat s.cur.seat f)) co (f b) := by
  rw [Hw.run_modSeat]
  refine ⟨fun hq => ?_, hs.core, hs.cores, by rw [Hw.seat_insert_self, hs.self], fun k hk => (Hw.seat_insert_ne _ _ hk).trans (hs.ne k hk)⟩
  exact congrArg (fun (x : Hw) => { x with seats := SMap.insert h.seats s.cur.seat (f (h.seat s.cur.seat)) }) (hs.hw hq)

theorem Does.modCore (hs : Does s quiet h co b) {co' : Core} (f : Core → Core)
    (hf : Core.Rest co' (f (h.core (coreOf s.cur.seat)))) : Does s quiet (h.run (modCore (coreOf s.cur.seat) f)) co' b := by
  rw [Hw.run_modCore]
  refine ⟨fun hq => ?_, by rw [Hw.core_insert_self]; exact hf, fun n hn => (Hw.core_insert_ne _ _ hn).trans (hs.cores n hn), hs.self, hs.ne⟩
  exact congrArg (fun (x : Hw) => { x with cores := SMap.insert h.cores (coreOf s.cur.seat) (f (h.core (coreOf s.cur.seat))) }) (hs.hw hq)

/-- What books paths, items and banks is not seen. -/
theorem Does.book (hs : Does s quiet h co b) (f : Core → Core) (hf : ∀ c, Core.Rest c (f c)) :
    Does s quiet (h.run (Machine.modCore (coreOf s.cur.seat) f)) co b :=
  hs.modCore f (hs.core.trans (hf _))

theorem Does.holdPath (hs : Does s quiet h co b) (p n : Nat) : Does s quiet (h.run (holdPath (ctxOf s) p n)) co b :=
  hs.book _ (fun _ => rfl)

theorem Does.markRd (hs : Does s quiet h co b) (t : Nat) (l : List Nat) : Does s quiet (h.run (markRd (coreOf s.cur.seat) t l)) co b :=
  hs.book _ (fun _ => rfl)

theorem Does.markWr (hs : Does s quiet h co b) (t : Nat) (l : List Nat) : Does s quiet (h.run (markWr (coreOf s.cur.seat) t l)) co b :=
  hs.book _ (fun _ => rfl)

theorem Does.when (hs : Does s quiet h co b) (x : Bool) {a : Act} (ha : Does s quiet (h.run a) co b) :
    Does s quiet (h.run (Act.when x a)) co b := by
  rw [Hw.run_when]
  split
  · exact ha
  · exact hs

theorem Does.useBanks (hs : Does s quiet h co b) (u : BankUse) : Does s quiet (h.run (useBanks (coreOf s.cur.seat) u)) co b :=
  hs.when _ (hs.book _ (fun _ => rfl))

theorem Does.warnBits (hs : Does s quiet h co b) (v : BitVec 8) : Does s quiet (h.run (warnBits (ctxOf s) v)) co (b.warned v) := by
  unfold Machine.warnBits
  rw [Hw.run_when]
  split
  · exact hs.modSeat _
  · rename_i hv
    have h0 : v = 0 := by simpa using hv
    rw [h0, Seat.warned_zero]
    exact hs

/-! ### Error records -/

/-- Effects that change no core and no seat. -/
def KeepsUnits (h : Hw) (e : List Eff) : Prop := (h.applyAll e).cores = h.cores ∧ (h.applyAll e).seats = h.seats

theorem keepsUnits_modDie (h : Hw) (die : Nat) (f : Die → Die) : KeepsUnits h (modDie die f h) := ⟨rfl, rfl⟩

theorem keepsUnits_all_nil (h : Hw) : KeepsUnits h (Act.all [] h) := ⟨rfl, rfl⟩

theorem keepsUnits_all_cons (h : Hw) (a : Act) (r : List Act) (ha : KeepsUnits h (a h)) (hr : KeepsUnits (h.run a) (Act.all r (h.run a))) :
    KeepsUnits h (Act.all (a :: r) h) := by
  have hrun : h.applyAll (Act.all (a :: r) h) = (h.run a).applyAll (Act.all r (h.run a)) := Hw.run_all_cons h a r
  unfold KeepsUnits at hr ⊢
  rw [hrun]
  exact ⟨hr.1.trans ha.1, hr.2.trans ha.2⟩

theorem keepsUnits_writeMem (h : Hw) (l : List (Nat × Byte)) : KeepsUnits h (writeMem l h) := ⟨rfl, rfl⟩

/-- A record changes no core and no seat: each of its three ends writes memory and its die alone (R396). -/
theorem keepsUnits_record (h : Hw) (die : Nat) (r : ErrRec) : KeepsUnits h (record die r h) := by
  have one (h : Hw) (f : Die → Die) := keepsUnits_all_cons h (modDie die f) [] (keepsUnits_modDie h die f) (keepsUnits_all_nil _)
  have mem (h : Hw) (l) (r : List Act) := keepsUnits_all_cons h (writeMem l) r (keepsUnits_writeMem h l)
  unfold record
  dsimp only
  refine iteInduction (motive := KeepsUnits h) (fun _ => mem h _ _ (one _ _)) (fun _ => ?_)
  exact iteInduction (motive := KeepsUnits h) (fun _ => keepsUnits_modDie h die _) (fun _ => mem h _ _ (mem _ _ _ (one _ _)))

theorem Does.noteSeat (hs : Does s quiet h co b) (hq : ¬quiet) (k : Nat) (ca : Cause) : Does s quiet (h.run (noteSeat k ca)) co b := by
  obtain ⟨hc, hk⟩ := keepsUnits_record h (domDie (coreOf k)) (seatRec h k ca 0 0)
  have hcore (n : Nat) : (h.run (Machine.noteSeat k ca)).core n = h.core n := congrArg (fun m => SMap.get ({} : Core) m n) hc
  have hseat (n : Nat) : (h.run (Machine.noteSeat k ca)).seat n = h.seat n := congrArg (fun m => SMap.get ({} : Seat) m n) hk
  exact ⟨fun h => absurd h hq, by rw [hcore]; exact hs.core, fun n hn => (hcore n).trans (hs.cores n hn), by rw [hseat]; exact hs.self,
    fun n hn => (hseat n).trans (hs.ne n hn)⟩

end

/-! ### The matrix slot -/

theorem State.Clean.ctx_co {s : State} {sl : Slot} (hc : s.Clean sl) : (ctxOf s).co = s.myCore := by
  show (s.before).core (coreOf s.cur.seat) = s.hw.core (coreOf s.cur.seat)
  rw [hc.pre]

/-- A seat that goes on: no break, MPC and registers as in flight, and new results only later. -/
structure GoesOn (s : State) (b : Seat) : Prop where
  brk : b.brk = false
  mpc : b.mpc = s.me.mpc
  reg : ∀ q, b.reg q = s.me.reg q
  pend : ∀ p ∈ b.pend, p ∈ s.me.pend ∨ s.coreTime < p.due

theorem goesOn_warned {s : State} {sl : Slot} (hc : s.Clean sl) (v : BitVec 8) : GoesOn s (s.me.warned v) :=
  ⟨hc.brk, rfl, fun _ => rfl, fun _ hp => .inl hp⟩

/-- What a clean matrix operation leaves: its core and the other seats in any case, everything if it is quiet. -/
structure MatrixLeaves (s t : State) (quiet : Prop) (co : Core) (b : Seat) : Prop where
  core : Core.Rest co (t.hw.core (coreOf s.cur.seat))
  seats : ∀ k, k ≠ s.cur.seat → t.hw.seat k = s.hw.seat k
  all : quiet → s.LeavesCore t co { b with mpc := nextMpc s.me.mpc } []
  pend : quiet → ∀ p ∈ b.pend, s.coreTime < p.due → p ∈ (t.hw.seat s.cur.seat).pend

/-- A clean operation of the matrix slot other than MNOP that raises no cause. -/
theorem matrix_clean (i : Instr) (s : State) (hc : s.Clean .m) (hi : ∀ e, i ≠ .mnop e) {quiet : Prop} {co : Core} {b : Seat} (m : Ctx → Out)
    (ho : (m (ctxOf s)).causes = []) (hid : (m (ctxOf s)).issue = id) (hd : Does s quiet (s.hw.run (m (ctxOf s)).act) co b)
    (hl : co.lost = s.myCore.lost ∧ co.frzTo = s.myCore.frzTo ∧ co.frzFrom = s.myCore.frzFrom) (hb : GoesOn s b) :
    ∃ t, slotOp i s m = .next t ∧ MatrixLeaves s t quiet co b := by
  have hst := stickySeat_mat hc i b hi hb.mpc
  have hrun : s.hw.run (Act.all [(m (ctxOf s)).act, stickyAct (ctxOf s) s.cur.head i]) =
      (s.hw.run (m (ctxOf s)).act).run (modSeat s.cur.seat (stickySeat (ctxOf s) s.cur.head i)) := by
    rw [stickyAct_engine hc (by decide), Hw.run_all_cons, Hw.run_all_cons, Hw.run_all_nil]
    rfl
  have hE := hd.modSeat (stickySeat (ctxOf s) s.cur.head i)
  have hslot := slotOp_clean i s .m m hc ho hid (by rw [hrun, hE.self, hst]; exact hb.brk)
  have hall (hq : quiet) := engine_clean i s .m m _ b { b with mpc := nextMpc s.me.mpc } [] hc (by decide) ho hid (hd.engine hq)
    (by
      have hr := hd.core
      unfold Core.Rest at hr
      rw [hr]
      exact hl)
    (by rw [hst]; rfl) (by rw [hst]; exact hb.brk) (fun q _ _ => by rw [hst]; exact hb.reg q)
    (fun q _ hidle p hp hdue _ => by
      rw [hst] at hp
      rcases hb.pend p hp with h | h
      · exact hidle p h
      · exact absurd hdue (Nat.not_le.mpr h))
  refine ⟨_, hslot, ?_, fun k hk => ?_, fun hq => ?_, fun hq p hp hdue => ?_⟩
  · rw [hrun]
    exact hE.core
  · rw [hrun]
    exact (State.after1_seat_ne s _ s.rest k hk).trans (hE.ne k hk)
  · obtain ⟨t, ht, hleaves, -⟩ := hall hq
    obtain rfl := Host.Outcome.next.inj (hslot.symm.trans ht)
    exact hleaves.core_mono hd.core
  · obtain ⟨t, ht, -, hpend⟩ := hall hq
    obtain rfl := Host.Outcome.next.inj (hslot.symm.trans ht)
    exact hpend p (by rw [hst]; exact hp) (.inl hdue)

/-- Two answers of a slot that differ at most in the registers that they read. -/
def Out.SameBut (o p : Out) : Prop := o.act = p.act ∧ o.causes = p.causes ∧ o.issue = p.issue

/-- A form of the accumulate path whose uses raise no cause (R244 to R246). -/
theorem accForm_clean (i : Instr) (s : State) (hc : s.Clean .m) (hi : ∀ e, i ≠ .mnop e) {quiet : Prop} {co : Core} {b : Seat} (m : Ctx → Out)
    (u : MUse) (occ rd wr : Nat) (a : Act) (hm : (m (ctxOf s)).SameBut (accForm (ctxOf s) u occ rd wr a))
    (hu : u.causes = []) (hd : Does s quiet (s.hw.run a) co b)
    (hl : co.lost = s.myCore.lost ∧ co.frzTo = s.myCore.frzTo ∧ co.frzFrom = s.myCore.frzFrom) (hb : GoesOn s b) :
    ∃ t, slotOp i s m = .next t ∧ MatrixLeaves s t quiet co b := by
  obtain ⟨hact, hcau, hiss⟩ := hm
  have hf : accForm (ctxOf s) u occ rd wr a = Out.ok (Act.all [a, holdPath (ctxOf s) u.path occ,
      markRd (ctxOf s).core ((ctxOf s).t + rd) u.rd, markWr (ctxOf s).core ((ctxOf s).t + wr) u.wr]) := by
    unfold accForm Out.check
    rw [hu]; rfl
  refine matrix_clean i s hc hi m (by rw [hcau, hf]; rfl) (by rw [hiss, hf]; rfl) ?_ hl hb
  rw [hact, hf]
  simp only [Out.ok, Hw.run_all_cons, Hw.run_all_nil]
  exact ((hd.holdPath _ _).markRd _ _).markWr _ _

section
variable {s t : State} {co : Core} {x : Seat} {w : List (Port × Nat)}

theorem State.LeavesCore.seat_mono {x' : Seat} (h : s.LeavesCore t co x w) (hr : Seat.Rest x' x) : s.LeavesCore t co x' w := by
  refine ⟨h.hw, h.cores, h.core, h.seats, ?_, h.regs, h.bytes, h.done⟩
  have h2 := h.seat
  unfold Seat.Rest at h2 hr ⊢
  rw [h2, hr]

/-- The claim may name the accumulators, the windows or the tile store that are left. -/
theorem State.LeavesCore.own_acc (h : s.LeavesCore t co x w) : s.LeavesCore t { co with acc := (t.hw.core (coreOf s.cur.seat)).acc } x w :=
  h.core_mono (by rw [h.core.acc]; rfl)

theorem State.LeavesCore.own_windows (h : s.LeavesCore t co x w) :
    s.LeavesCore t { co with windows := (t.hw.core (coreOf s.cur.seat)).windows } x w :=
  h.core_mono (by rw [h.core.windows]; rfl)

theorem State.LeavesCore.own_states (h : s.LeavesCore t co x w) :
    s.LeavesCore t (withStates co (t.hw.core (coreOf s.cur.seat))) x w :=
  h.core_mono (by unfold withStates; rw [h.core.tile, h.core.touched, h.core.ht]; rfl)

end

end Sys2Proof.Machine

/-! ## MNOP, AZERO, AMOV, ANORM and AGETX (R244, R254 to R256) -/

namespace Sys2Proof.Machine
open Sys2Proof.Claim

/-- MNOP leaves its seat and its core alone (R244). -/
theorem exec_mnop_leaves (s : State) (hc : s.Clean .m) (e : Option MAExt) :
    ∃ t, exec (.mnop e) s = .next t ∧ s.LeavesCore t s.myCore s.me [] := by
  have hst : stickySeat (ctxOf s) s.cur.head (.mnop e) s.me =
      s.me.setSrec 2 (stickyAfter (s.me.srec 2) s.cur.head (.mnop e)) := by
    unfold stickySeat
    rw [hc.slot]; rfl
  obtain ⟨t, ht, hl, -⟩ := engine_clean (.mnop e) s .m (fun _ => Out.ok Act.nil) s.myCore s.me s.me [] hc (by decide) rfl rfl
    (EngineIs.refl s).nil ⟨rfl, rfl, rfl⟩ (by rw [hst]; rfl) (by rw [hst]; exact hc.brk) (fun _ _ _ => by rw [hst]; rfl)
    (fun _ _ hidle p hp _ _ => hidle p (by rw [hst] at hp; exact hp))
  exact ⟨t, ht, hl⟩

/-- A form of the accumulate path that changes accumulators alone: its core gets the accumulators of co. -/
theorem accOnly_clean (i : Instr) (s : State) (hc : s.Clean .m) (hi : ∀ e, i ≠ .mnop e) (m : Ctx → Out) (u : MUse) (occ rd wr : Nat) (a : Act)
    (hm : (m (ctxOf s)).SameBut (accForm (ctxOf s) u occ rd wr a)) (hu : u.causes = []) (x : SMap ARow)
    (ha : Does s True (s.hw.run a) { s.myCore with acc := x } (s.me.warned 0)) :
    ∃ t, slotOp i s m = .next t ∧ (t.hw.core (coreOf s.cur.seat)).acc = x ∧
      s.LeavesCore t { s.myCore with acc := (t.hw.core (coreOf s.cur.seat)).acc } (stepped s 0) [] := by
  obtain ⟨t, ht, hl⟩ := accForm_clean i s hc hi m u occ rd wr a hm hu ha ⟨rfl, rfl, rfl⟩ (goesOn_warned hc 0)
  exact ⟨t, ht, hl.core.acc, (hl.all trivial).own_acc⟩

/-- AZERO (R90, R254). -/
theorem exec_azero_clears (s : State) (f : FMA) (hc : s.Clean .m) (hu : accCauses (ctxOf s) f.acc = []) :
    ∃ t, exec (.azero f) s = .next t ∧
      (t.hw.core (coreOf s.cur.seat)).acc = (s.myCore.accZero (accPhys (ctxOf s) f.acc)).acc ∧
      s.LeavesCore t { s.myCore with acc := (t.hw.core (coreOf s.cur.seat)).acc } (stepped s 0) [] := by
  rw [exec_azero, execAzero]
  refine accOnly_clean (.azero f) s hc (fun _ => Instr.noConfusion) _ (useAcc (ctxOf s) f.acc none []) 1 0 1 _ ⟨rfl, rfl, rfl⟩
    (by simp [useAcc, hu]) _ ?_
  exact (Does.refl s True).modCore _ rfl

/-- AMOV; between an accumulator and itself it moves nothing (R254). -/
theorem exec_amov_copies (s : State) (f : FMA) (hc : s.Clean .m) (hd : accCauses (ctxOf s) f.acc = []) (ha : accCauses (ctxOf s) f.acs = [])
    (hbad : s.myCore.accBad (accPhys (ctxOf s) f.acs) 64 = false) :
    ∃ t, exec (.amov f) s = .next t ∧ (t.hw.core (coreOf s.cur.seat)).acc = (if accPhys (ctxOf s) f.acs = accPhys (ctxOf s) f.acc then s.myCore.acc
        else (s.myCore.accFill (accPhys (ctxOf s) f.acc) (s.myCore.accRow (accPhys (ctxOf s) f.acs))).acc) ∧
      s.LeavesCore t { s.myCore with acc := (t.hw.core (coreOf s.cur.seat)).acc } (stepped s 0) [] := by
  rw [exec_amov, execAmov]
  refine accOnly_clean (.amov f) s hc (fun _ => Instr.noConfusion) _ (useAcc (ctxOf s) f.acc (some f.acs) []) 16 16 17 _ ⟨rfl, rfl, rfl⟩
    (by simp [useAcc, hd, ha]) _ ?_
  rw [hc.ctx_co, hbad, if_neg Bool.false_ne_true, Hw.run_when]
  by_cases h : accPhys (ctxOf s) f.acs = accPhys (ctxOf s) f.acc
  · rw [h, bne_self_eq_false, if_neg Bool.false_ne_true, if_pos rfl]
    exact Does.refl s True
  · rw [if_pos (bne_iff_ne.mpr h), if_neg h]
    exact (Does.refl s True).modCore _ rfl

/-- ANORM (R255). -/
theorem exec_anorm_moves (s : State) (f : FMA) (hc : s.Clean .m) (hu : accCauses (ctxOf s) f.acc = []) :
    let d := accPhys (ctxOf s) f.acc
    ∃ t, exec (.anorm f) s = .next t ∧
      (t.hw.core (coreOf s.cur.seat)).acc = (s.myCore.accFill d (fun r => (s.myCore.accRow d r).norm (maGt f))).acc ∧
      s.LeavesCore t { s.myCore with acc := (t.hw.core (coreOf s.cur.seat)).acc } (stepped s 0) [] := by
  intro d
  rw [exec_anorm, execAnorm]
  refine accOnly_clean (.anorm f) s hc (fun _ => Instr.noConfusion) _ (useAcc (ctxOf s) f.acc none []) 16 0 17 _ ⟨rfl, rfl, rfl⟩
    (by simp [useAcc, hu]) _ ?_
  exact (Does.refl s True).modCore _ rfl

/-- The pending write of a vector register by AGETX: it names no last-result register (R256). -/
def agetxPend (s : State) (v : VSpec) (x : BitVec 2048) : Pend :=
  { port := .v, reg := v.toNat, val := x, lmask := allLanes, yu := none, due := s.coreTime + 3, order := (ctxOf s).order }

theorem goesOn_addPend {s : State} {b : Seat} (hb : GoesOn s b) (p : Pend) (hp : s.coreTime < p.due) : GoesOn s (b.addPend p) :=
  ⟨hb.brk, hb.mpc, hb.reg, fun q hq => by
    rcases (mem_pendAdd _ _ _).mp hq with rfl | hq
    · exact .inr hp
    · exact hb.pend q hq⟩

/-- AGETX (R256). -/
theorem exec_agetx_sends (s : State) (f : FMA) (hc : s.Clean .m) (hu : (useAgetx (ctxOf s) f).causes = [])
    (hbad : s.myCore.accBad (accPhys (ctxOf s) f.acc) 64 = false) :
    let p := agetxPend s (maVa f) (ofLanes (fun r => imageNat 32 (s.myCore.accRow (accPhys (ctxOf s) f.acc) r).e))
    let q := agetxPend s (maVb f) (ofLanes (fun r => let w := s.myCore.accRow (accPhys (ctxOf s) f.acc) r
      w.headroom + w.satr.toNat * 2 ^ 8 + w.start.toNat * 2 ^ 9))
    ∃ t, exec (.agetx f) s = .next t ∧ p ∈ (t.hw.seat s.cur.seat).pend ∧ q ∈ (t.hw.seat s.cur.seat).pend ∧
      s.LeavesCore t s.myCore (stepped s 0) [] := by
  intro p q
  have hlater : s.coreTime < s.coreTime + 3 := by omega
  obtain ⟨t, ht, hl⟩ : ∃ t, exec (.agetx f) s = .next t ∧ MatrixLeaves s t True s.myCore (((s.me.warned 0).addPend p).addPend q) := by
    rw [exec_agetx, execAgetx]
    refine accForm_clean (.agetx f) s hc (fun _ => Instr.noConfusion) _ (useAgetx (ctxOf s) f) 1 1 0 _ ⟨rfl, rfl, rfl⟩ hu ?_
      ⟨rfl, rfl, rfl⟩ (goesOn_addPend (goesOn_addPend (goesOn_warned hc 0) p hlater) q hlater)
    rw [hc.ctx_co, hbad, if_neg Bool.false_ne_true, hc.ctx_t]
    exact (Does.refl s True).modSeat _
  refine ⟨t, ht, hl.pend trivial p ?_ hlater, hl.pend trivial q ?_ hlater, ?_⟩
  · exact (mem_pendAdd _ _ _).mpr (.inr ((mem_pendAdd _ _ _).mpr (.inl rfl)))
  · exact (mem_pendAdd _ _ _).mpr (.inl rfl)
  · exact (hl.all trivial).seat_mono rfl

/-- Settles O34: each form by what it does to its rows. -/
theorem accumulatorForms : Obligations.AccumulatorForms := by
  intro s f hc c d co
  refine ⟨exec_mnop_leaves s hc, fun hu => ?_, fun hd ha hbad => ?_, fun hu => ?_, fun hu hbad => ?_⟩
  · obtain ⟨t, ht, hacc, hl⟩ := exec_azero_clears s f hc hu
    refine ⟨t, ht, fun r hr => ?_, fun k hk => ?_, hl⟩
    · unfold Core.accRow
      rw [hacc]
      exact Core.accRow_accZero s.myCore d r hr
    · rw [hacc]
      exact Core.get_accZero_other s.myCore d k hk
  · obtain ⟨t, ht, hacc, hl⟩ := exec_amov_copies s f hc hd ha hbad
    refine ⟨t, ht, fun r hr => ?_, fun k hk => ?_, hl⟩
    · unfold Core.accRow
      rw [hacc]
      split
      · rename_i h
        rw [show accPhys c f.acs = d from h]
      · exact Core.accRow_accFill s.myCore d _ r hr
    · rw [hacc]
      split
      · rfl
      · exact Core.get_accFill_other s.myCore d _ k hk
  · obtain ⟨t, ht, hacc, hl⟩ := exec_anorm_moves s f hc hu
    refine ⟨t, ht, fun r hr => ?_, fun k hk => ?_, hl⟩
    · have hrow : (co t).accRow d r = (s.myCore.accRow d r).norm (maGt f) := by
        unfold Core.accRow
        rw [hacc]
        exact Core.accRow_accFill s.myCore d _ r hr
      intro x y k
      rw [show y = x.norm (maGt f) from hrow]
      exact ARow.norm_eq x (maGt f)
    · rw [hacc]
      exact Core.get_accFill_other s.myCore d _ k hk
  · obtain ⟨t, ht, hp, hq, hl⟩ := exec_agetx_sends s f hc hu hbad
    refine ⟨t, _, _, ht, hp, hq, rfl, rfl, rfl, rfl, rfl, rfl, rfl, rfl, fun r hr => ⟨?_, ?_⟩, hl⟩
    · exact (ln_ofLanes _ r hr).trans (ofNat_imageNat 32 _)
    · exact ln_ofLanes _ r hr

end Sys2Proof.Machine

/-! ## ASCL, AADDT, AWIN and ACOMMIT (R257, R258, R261, R263) -/

namespace Sys2Proof.Machine
open Sys2Proof.Claim

/-! ### Contributions to rows (R69, R90 to R93) -/

/-- A core with rows of accumulator d replaced by what contributions leave. -/
def Core.addContribs (co : Core) (d : Nat) (l : List (Nat × Contrib)) : Core :=
  { co with acc := SMap.setAll {} co.acc (l.map (fun p => (64 * d + p.1, p.2.row))) }

theorem Core.Rest.addContribs {a b : Core} (h : Core.Rest a b) (d : Nat) (l : List (Nat × Contrib)) :
    Core.Rest (a.addContribs d l) (b.addContribs d l) := by
  rw [h.eq]; rfl

theorem Core.Rest.accRow {a b : Core} (h : Core.Rest a b) (d r : Nat) : b.accRow d r = a.accRow d r :=
  congrArg (fun m => SMap.get ({} : ARow) m (64 * d + r)) h.acc

theorem Does.each {α : Type} {s : State} {quiet : Prop} {h : Hw} {co : Core} {b : Seat} (hs : Does s quiet h co b) (l : List α) (f : α → Act)
    (hf : ∀ a ∈ l, ∀ h, Does s quiet h co b → Does s quiet (h.run (f a)) co b) : Does s quiet (h.run (Act.each l f)) co b := by
  induction l generalizing h with
  | nil => exact hs
  | cons a r ih =>
    rw [Hw.run_each_cons]
    exact ih (hf a (List.mem_cons_self ..) h hs) (fun x hx => hf x (List.mem_cons_of_mem _ hx))

/-- The note of a saturated row; nothing where the row does not saturate (R93). -/
def satNote (c : Ctx) (d : Nat) (p : Nat × Contrib) : Act :=
  match p.2.sat with
  | none => Act.nil
  | some st => noteSeat c.k (mkCause (0x50 + d) (p.1 + (if st then 2 ^ 8 else 0)) c.sl)

/-- The seat with events and inexact terms counted under an accumulator's name (R69). -/
def Seat.counted (b : Seat) (name ev tr : Nat) : Seat := { b with
  accev := SMap.set 0 b.accev name (satCount (SMap.get 0 b.accev name) ev)
  acctr := SMap.set 0 b.acctr name (satCount (SMap.get 0 b.acctr name) tr) }

theorem putContribs_eq (c : Ctx) (name d : Nat) (l : List (Nat × Contrib)) :
    let ev := l.foldl (fun a p => a + p.2.ev) 0
    let tr := l.foldl (fun a p => a + p.2.tr) 0
    putContribs c name d l = Act.all [modCore c.core (fun co => co.addContribs d l),
      Act.when (ev != 0 || tr != 0) (modSeat c.k (fun b => b.counted name ev tr)), Act.each l (satNote c d)] := rfl

theorem Does.satNote {s : State} {quiet : Prop} {h : Hw} {co : Core} {b : Seat} (hs : Does s quiet h co b) (d : Nat) (p : Nat × Contrib)
    (hq : quiet → p.2.sat = none) : Does s quiet (h.run (satNote (ctxOf s) d p)) co b := by
  unfold Machine.satNote
  split
  · exact hs
  · rename_i st hst
    exact hs.noteSeat (fun hquiet => by simp [hq hquiet] at hst) _ _

/-- Contributions reach their rows and are counted; a saturation is noted, which is not quiet (R69, R93). -/
theorem Does.putContribs {s : State} {quiet : Prop} {h : Hw} {co : Core} {b : Seat} (hs : Does s quiet h co b) (name d : Nat)
    {l l' : List (Nat × Contrib)} (hl : l' = l) (hq : quiet → ∀ p ∈ l, p.2.sat = none) :
    ∃ x y, Does s quiet (h.run (putContribs (ctxOf s) name d l')) (co.addContribs d l) { b with accev := x, acctr := y } := by
  subst hl
  have hrows : Does s quiet _ (co.addContribs d l') b := hs.modCore (fun co => co.addContribs d l') (hs.core.addContribs d l')
  have hnotes {h : Hw} {b : Seat} (hb : Does s quiet h (co.addContribs d l') b) :=
    hb.each l' (Machine.satNote (ctxOf s) d) (fun p hp _ hd => hd.satNote d p (fun h => hq h p hp))
  rw [putContribs_eq, Hw.run_all_cons, Hw.run_all_cons, Hw.run_all_cons, Hw.run_all_nil, Hw.run_when]
  split
  · exact ⟨_, _, hnotes (hrows.modSeat _)⟩
  · exact ⟨b.accev, b.acctr, hnotes hrows⟩

theorem goesOn_counted {s : State} (hc : s.Clean .m) (w : BitVec 8) (x y) : GoesOn s { s.me.warned w with accev := x, acctr := y } :=
  ⟨hc.brk, rfl, fun _ => rfl, fun _ hp => .inl hp⟩

/-- A form that ends with contributions to rows of their own, none saturating. -/
theorem contribs_clean (i : Instr) (s : State) (hc : s.Clean .m) (hi : ∀ e, i ≠ .mnop e) (m : Ctx → Out) (u : MUse) (occ rd wr : Nat) (a : Act)
    (hm : (m (ctxOf s)).SameBut (accForm (ctxOf s) u occ rd wr a)) (hu : u.causes = []) (d : Nat) (l : List (Nat × Contrib)) (w : BitVec 8)
    (hinj : ∀ p ∈ l, ∀ q ∈ l, p.1 = q.1 → p = q)
    (ha : ∃ x y, Does s True (s.hw.run a) (s.myCore.addContribs d l) { s.me.warned w with accev := x, acctr := y }) :
    ∃ t, slotOp i s m = .next t ∧ Contributed s t s.myCore d l w := by
  obtain ⟨x, y, ha⟩ := ha
  obtain ⟨t, ht, hl⟩ := accForm_clean i s hc hi m u occ rd wr a hm hu ha ⟨rfl, rfl, rfl⟩ (goesOn_counted hc w x y)
  have hall := hl.all trivial
  refine ⟨t, ht, fun p hp => ?_, fun k hk => ?_, ?_⟩
  · rw [hl.core.accRow]
    exact SMap.get_setAll_map ({} : ARow) l (fun p => 64 * d + p.1) (fun p => p.2.row) s.myCore.acc p hp
      (fun q hq e => hinj q hq p hp (accKey_inj e))
  · rw [hl.core.acc]
    refine SMap.get_setAll_other ({} : ARow) _ s.myCore.acc k (fun e he h => ?_)
    obtain ⟨p, hp, rfl⟩ := List.mem_map.mp he
    exact hk p hp h.symm
  · have hx : (t.hw.seat s.cur.seat).accev = x := congrArg Seat.accev hall.seat
    have hy : (t.hw.seat s.cur.seat).acctr = y := congrArg Seat.acctr hall.seat
    rw [hx, hy]
    exact hall.own_acc

/-! ### The rows of a form, as its statement lists them -/

theorem toList_getElem? {α : Type} (l : List α) (d : α) (n : Nat) : l[n]?.toList = if n < l.length then [l.getD n d] else [] := by
  by_cases h : n < l.length
  · simp [h]
  · simp [h]

theorem zipIdx_map_range {α : Type} (m : Nat) (g : Nat → α) : ((List.range m).map g).zipIdx = (List.range m).map (fun i => (g i, i)) :=
  List.ext_getElem (by simp) (by simp)

theorem map_pair_inj {α : Type} (xs : List Nat) (g : Nat → α) :
    ∀ p ∈ xs.map (fun i => (i, g i)), ∀ q ∈ xs.map (fun i => (i, g i)), p.1 = q.1 → p = q := by
  intro p hp q hq h
  obtain ⟨i, -, rfl⟩ := List.mem_map.mp hp
  obtain ⟨j, -, rfl⟩ := List.mem_map.mp hq
  obtain rfl : i = j := h
  rfl

/-- The term of column n of a product of columns, idle terms left out. -/
theorem filter_toList_getElem? (l : List MEl) (n k : Nat) (hk : l.length = k) :
    (l[n]?).toList.filter (fun t => !t.idle) = if n < k then [l.getD n {}].filter (fun t => !t.idle) else [] := by
  rw [toList_getElem? l {} n, hk, apply_ite (List.filter _)]
  rfl

/-! ### Accumulate windows -/

theorem arrivalContribs_rest {a b : Core} (h : Core.Rest a b) (d : Nat) (rows : List ARow) : arrivalContribs b d rows = arrivalContribs a d rows := by
  unfold arrivalContribs
  simp only [h.accRow]

/-- The arrivals of a window, each added to the accumulator as the ones before it left it (R263). -/
theorem Does.commitAll {s : State} {h : Hw} {co : Core} {b : Seat} (hs : Does s False h co b) (name d : Nat) (imgs : List (List ARow)) :
    ∃ x y, Does s False (h.run (Act.each imgs (fun l => Act.look (fun h =>
        Machine.putContribs (ctxOf s) name d (arrivalContribs (h.core (ctxOf s).core) d l)))))
      (imgs.foldl (fun x l => x.addContribs d (arrivalContribs x d l)) co) { b with accev := x, acctr := y } := by
  induction imgs generalizing h co b with
  | nil => exact ⟨b.accev, b.acctr, hs⟩
  | cons l r ih =>
    rw [Hw.run_each_cons, Hw.run_look]
    obtain ⟨x, y, h1⟩ := hs.putContribs name d (arrivalContribs_rest hs.core d l) False.elim
    obtain ⟨x, y, h2⟩ := ih h1
    exact ⟨x, y, h2⟩

theorem foldl_addContribs_frame (imgs : List (List ARow)) (d : Nat) (co : Core) :
    imgs.foldl (fun x l => x.addContribs d (arrivalContribs x d l)) co =
      { co with acc := (imgs.foldl (fun x l => x.addContribs d (arrivalContribs x d l)) co).acc } := by
  induction imgs generalizing co with
  | nil => rfl
  | cons l r ih =>
    rw [List.foldl_cons, ih]
    rfl

end Sys2Proof.Machine

namespace Sys2Proof.Machine
open Sys2Proof.Claim

/-! ### The forms -/

/-- The contributions of ASCL: each row of the source that is no chain start, by its row scale and the column scales (R257). -/
def asclRows (s : State) (f : FMA) : List (Nat × Contrib) :=
  let c := ctxOf s
  let sh := shpArg c f.shp
  let cs := (List.range sh.n).map (fun n => mElem 9 24 (ln (vOp c (maVb f) 0) n).toNat)
  ((List.range sh.m).filter (fun i => !(s.myCore.accRow (accPhys c f.acs) i).start)).map (fun i =>
    let src := s.myCore.accRow (accPhys c f.acs) i
    let r := mElem 9 24 (ln (vOp c (maVa f) 0) i).toNat;
    (i, contribute (s.myCore.accRow (accPhys c f.acc) i)
      (fun n => if n < sh.n then [((accElem src.e (src.at_ n)).mul r).mul (cs.getD n {})].filter (fun t => !t.idle) else [])
      (src.e + src.tm + maxBound 9 [r] + 1 + maxBound 9 cs + 1) false))

theorem exec_ascl_adds (s : State) (f : FMA) (hc : s.Clean .m) (hu : (useAscl (ctxOf s) f).causes = [])
    (hbad : s.myCore.accBad (accPhys (ctxOf s) f.acs) (shpArg (ctxOf s) f.shp).m = false) (hsat : ∀ p ∈ asclRows s f, p.2.sat = none) :
    ∃ t, exec (.ascl f) s = .next t ∧ Contributed s t s.myCore (accPhys (ctxOf s) f.acc) (asclRows s f) 0 := by
  rw [exec_ascl, execAscl]
  refine contribs_clean (.ascl f) s hc (fun _ => Instr.noConfusion) _ (useAscl (ctxOf s) f) 16 16 22 _ ⟨rfl, rfl, rfl⟩ hu _ _ 0
    (map_pair_inj _ _) ?_
  rw [hc.ctx_co, hbad, if_neg Bool.false_ne_true, Hw.run_look]
  refine (Does.refl s True).putContribs f.acc.toNat _ (List.map_congr_left (fun i _ => ?_)) (fun _ => hsat)
  simp only [ln_toNat]
  congr 2
  funext n
  rw [filter_toList_getElem? _ n (shpArg (ctxOf s) f.shp).n (by simp)]
  split
  · rename_i hn
    simp [hn]
  · rfl

/-- The contributions of AADDT: the elements of each row of the tile image's window (R258). -/
def aaddtRows (s : State) (f : FMA) : List (Nat × Contrib) :=
  let c := ctxOf s
  let sh := shpArg c f.shp;
  (List.range sh.m).map (fun i =>
    let els := (tileRow s.myCore (imgWord (tilePhys c f.t) sh) f.f.toNat sh i sh.n).map (mElem f.f.toNat (fullCount f.f.toNat));
    (i, contribute (s.myCore.accRow (accPhys c f.acc) i) (fun n => if n < sh.n then [els.getD n {}].filter (fun t => !t.idle) else [])
      (maxBound f.f.toNat els + 1) (fmtInt f.f.toNat)))

theorem length_tileRow (co : Core) (w0 fmt : Nat) (sh : Shp) (i cols : Nat) : (tileRow co w0 fmt sh i cols).length = cols := by
  simp [tileRow]

/-- The warning of AADDT: a TERN image holds the pair (1, 0), which reads 0 (R81). -/
def aaddtWarn (s : State) (f : FMA) : BitVec 8 :=
  let c := ctxOf s
  let sh := shpArg c f.shp
  warnIf (f.f.toNat == 0 && ((List.range sh.m).map (fun i => tileRow s.myCore (imgWord (tilePhys c f.t) sh) f.f.toNat sh i sh.n)).any
    (fun r => r.any (fun x => x == 2))) wMisc

theorem exec_aaddt_adds (s : State) (f : FMA) (hc : s.Clean .m) (hu : (useAaddt (ctxOf s) f).causes = [])
    (hsat : ∀ p ∈ aaddtRows s f, p.2.sat = none) :
    ∃ t, exec (.aaddt f) s = .next t ∧ Contributed s t s.myCore (accPhys (ctxOf s) f.acc) (aaddtRows s f) (aaddtWarn s f) := by
  rw [exec_aaddt, execAaddt]
  refine contribs_clean (.aaddt f) s hc (fun _ => Instr.noConfusion) _ (useAaddt (ctxOf s) f) 16 16 20 _ ⟨rfl, rfl, rfl⟩ hu _ _ _
    (map_pair_inj _ _) ?_
  have hw (v : BitVec 8) : Does s True (s.hw.run (warnBits (ctxOf s) v)) s.myCore (s.me.warned v) := by
    have h := (Does.refl s True).warnBits v
    rwa [Seat.warned_zero] at h
  rw [Hw.run_all_cons, Hw.run_all_cons, Hw.run_all_cons, Hw.run_all_nil, Hw.run_look, hc.ctx_co]
  refine Exists.imp (fun x => Exists.imp (fun y hd => hd.useBanks _)) ((hw _).putContribs f.acc.toNat _ ?_ (fun _ => hsat))
  rw [zipIdx_map_range, List.map_map]
  refine List.map_congr_left (fun i _ => ?_)
  simp only [Function.comp_apply]
  rw [ctx_core, (hw _).core.accRow]
  congr 2
  funext n
  exact filter_toList_getElem? _ n _ (by simp [length_tileRow])

/-- AWIN opens a window after those that are there (R261). -/
theorem exec_awin_opens (s : State) (f : FMA) (hc : s.Clean .m) (hu : (useAwin (ctxOf s) f).causes = []) :
    ∃ t, exec (.awin f) s = .next t ∧
      s.LeavesCore t { s.myCore with windows := (t.hw.core (coreOf s.cur.seat)).windows } (stepped s 0) [] ∧
      (t.hw.core (coreOf s.cur.seat)).windows = s.myCore.windows ++
        [⟨isSeat1 s.cur.seat, f.acc.toNat, f.f.toNat + 1, phys (ctxOf s) .gran f.t.toNat, [], 0, s.hw.glob.now + 1⟩] := by
  have hnow : (ctxOf s).now = s.hw.glob.now := congrArg (fun h : Hw => h.glob.now) hc.pre
  obtain ⟨t, ht, hl⟩ : ∃ t, exec (.awin f) s = .next t ∧ MatrixLeaves s t True { s.myCore with windows := s.myCore.windows ++
      [⟨isSeat1 s.cur.seat, f.acc.toNat, f.f.toNat + 1, phys (ctxOf s) .gran f.t.toNat, [], 0, (ctxOf s).now + 1⟩] } (s.me.warned 0) := by
    rw [exec_awin, execAwin]
    refine accForm_clean (.awin f) s hc (fun _ => Instr.noConfusion) _ (useAwin (ctxOf s) f) 1 0 0 _ ⟨rfl, rfl, rfl⟩ hu ?_ ⟨rfl, rfl, rfl⟩
      (goesOn_warned hc 0)
    exact (Does.refl s True).modCore _ rfl
  rw [hnow] at hl
  exact ⟨t, ht, (hl.all trivial).own_windows, hl.core.windows⟩

/-- What ACOMMIT does with window w, whose arrivals' rows are imgs: it commits them in order and closes the window (R263). -/
def commitAct (c : Ctx) (f : FMA) (w : Window) (imgs : List (List ARow)) : Act := Act.all [
  Act.each imgs (fun l => Act.look (fun h => putContribs c f.acc.toNat (accPhys c f.acc) (arrivalContribs (h.core c.core) (accPhys c f.acc) l))),
  modCore c.core (fun co => { co with windows := co.windows.filter (fun x => !(x.seat == w.seat && x.acc == w.acc)) })]

/-- The core after the arrivals of a window (R94, R263). -/
def Core.committed (co : Core) (d : Nat) (imgs : List (List ARow)) : Core :=
  imgs.foldl (fun x l => x.addContribs d (arrivalContribs x d l)) co

theorem exec_acommit_closes (s : State) (f : FMA) (w : Window) (hc : s.Clean .m) (hw : openWindow (ctxOf s) f.acc = some w)
    (hu : (useAcommit (ctxOf s) f).causes = []) (hbad : (w.sorted.map (fun a => w.rows s.myCore a.2.2)).any (fun l => l.any (fun r => r.bad)) = false) :
    ∃ t, exec (.acommit f) s = .next t ∧
      Core.Rest { s.myCore.committed (accPhys (ctxOf s) f.acc) (w.sorted.map (fun a => w.rows s.myCore a.2.2)) with
        windows := s.myCore.windows.filter (fun x => !(x.seat == w.seat && x.acc == w.acc)) } (t.hw.core (coreOf s.cur.seat)) ∧
      ∀ k, k ≠ s.cur.seat → t.hw.seat k = s.hw.seat k := by
  have hframe := foldl_addContribs_frame (w.sorted.map (fun a => w.rows s.myCore a.2.2)) (accPhys (ctxOf s) f.acc) s.myCore
  obtain ⟨x, y, hd⟩ := (Does.refl s False).commitAll f.acc.toNat (accPhys (ctxOf s) f.acc) (w.sorted.map (fun a => w.rows s.myCore a.2.2))
  obtain ⟨t, ht, hl⟩ : ∃ t, exec (.acommit f) s = .next t ∧ MatrixLeaves s t False
      { s.myCore.committed (accPhys (ctxOf s) f.acc) (w.sorted.map (fun a => w.rows s.myCore a.2.2)) with
        windows := s.myCore.windows.filter (fun x => !(x.seat == w.seat && x.acc == w.acc)) } { s.me.warned 0 with accev := x, acctr := y } := by
    rw [exec_acommit, execAcommit]
    refine accForm_clean (.acommit f) s hc (fun _ => Instr.noConfusion) _ (useAcommit (ctxOf s) f) (1 + 16 * w.e) (1 + 16 * w.e)
      (1 + 16 * w.e + 4) (commitAct (ctxOf s) f w (w.sorted.map (fun a => w.rows s.myCore a.2.2))) ?_ hu ?_ ?_ (goesOn_counted hc 0 x y)
    · dsimp only
      rw [hw, hc.ctx_co]
      dsimp only
      rw [hbad]
      exact ⟨rfl, rfl, rfl⟩
    · unfold commitAct
      rw [Hw.run_all_cons, Hw.run_all_cons, Hw.run_all_nil]
      refine hd.modCore _ ?_
      have hcore := hd.core
      rw [hframe] at hcore
      unfold Core.committed
      rw [hframe, hcore.eq]
      rfl
    · unfold Core.committed
      rw [hframe]
      exact ⟨rfl, rfl, rfl⟩
  exact ⟨t, ht, hl.core, hl.seats⟩

/-- Settles O35: ASCL and AADDT by their rows, AWIN and ACOMMIT by the windows that they leave. -/
theorem accumulatorAdds : Obligations.AccumulatorAdds := by
  intro s f hc c d sh co
  refine ⟨fun hu hbad => exec_ascl_adds s f hc hu hbad, fun hu hsat => ?_, exec_awin_opens s f hc, fun w hw hu hbad => ?_⟩
  · obtain ⟨t, ht, hl⟩ := exec_aaddt_adds s f hc hu hsat
    exact ⟨t, _, ht, hl⟩
  · obtain ⟨t, ht, hl, hseats⟩ := exec_acommit_closes s f w hc hw hu hbad
    have hframe := foldl_addContribs_frame (w.sorted.map (fun a => w.rows s.myCore a.2.2)) d s.myCore
    refine ⟨t, ht, hl.windows, hl.acc.trans ?_, hl.tile.trans ?_, hseats⟩
    · rw [Core.committed, List.foldl_map]
      rfl
    · rw [Core.committed, hframe]

end Sys2Proof.Machine

/-! ## Combines stay within 32 bits (R102, R266, R268) -/

namespace Sys2Proof.Machine

/-! ### FP32 images -/

theorem FFmt.pack?_le (f : FFmt) (rm : RM) (neg : Bool) (sig : Nat) (exp : Int) (st : Bool) (m : Nat)
    (h : f.pack? rm neg sig exp st = some m) : m ≤ f.maxMag := by
  unfold FFmt.pack? at h
  split at h
  · exact Option.some.inj h ▸ Nat.zero_le _
  · obtain ⟨hle, hm⟩ := Option.ite_none_left_eq_some.mp h
    exact Option.some.inj hm ▸ Nat.not_lt.mp hle

theorem fp32_overflow_le (rm : RM) (neg : Bool) : fp32.overflow rm neg ≤ fp32.infMag := by
  cases rm <;> cases neg <;> decide

theorem fp32_signBit_le (neg : Bool) : fp32.signBit neg ≤ 2 ^ 31 := by
  cases neg <;> decide

theorem fp32_round_lt (rm : RM) (neg : Bool) (sig : Nat) (exp : Int) (st : Bool) : fp32.round rm neg sig exp st < 2 ^ 32 := by
  have hs := fp32_signBit_le neg
  have hi : fp32.infMag < 2 ^ 31 := by decide
  have hm : fp32.maxMag < 2 ^ 31 := by decide
  unfold FFmt.round
  split
  · rename_i m h
    have := FFmt.pack?_le fp32 rm neg sig exp st m h
    omega
  · have := fp32_overflow_le rm neg
    omega

theorem fp32_qnan_lt : fp32.qnan < 2 ^ 32 := by decide

theorem fp32_ofVal_lt (rm : RM) (v : FVal) : fp32.ofVal rm v < 2 ^ 32 := by
  cases v with
  | nan => exact fp32_qnan_lt
  | inf neg => exact (by decide : ∀ n : Bool, fp32.signBit n + fp32.infMag < 2 ^ 32) neg
  | fin neg sig exp => exact fp32_round_lt rm neg sig exp false

theorem fp32_roundInt_lt (rm : RM) (x e : Int) (z : Bool) : fp32.roundInt rm x e z < 2 ^ 32 := by
  unfold FFmt.roundInt
  split
  · exact Nat.lt_of_le_of_lt (fp32_signBit_le z) (by decide)
  · exact fp32_round_lt ..

theorem fp32_addV_lt (rm : RM) (a b : FVal) : fp32.addV rm a b < 2 ^ 32 := by
  unfold FFmt.addV
  split
  · exact fp32_qnan_lt
  · exact fp32_qnan_lt
  · split
    · exact fp32_ofVal_lt ..
    · exact fp32_qnan_lt
  · exact fp32_ofVal_lt ..
  · exact fp32_ofVal_lt ..
  · exact fp32_roundInt_lt ..

/-- A minimum or maximum is one of its operands, or the canonical NaN (R100). -/
theorem FFmt.minmax_cases (f : FFmt) (w : Bool) (x y : Nat) : f.minmax w x y = f.qnan ∨ f.minmax w x y = x ∨ f.minmax w x y = y := by
  have pick (p : Bool) (u v : Nat) : (if p then u else v) = u ∨ (if p then u else v) = v := by cases p <;> simp
  unfold FFmt.minmax
  split
  · exact .inl rfl
  · exact .inr (.inr rfl)
  · exact .inr (.inl rfl)
  · refine .inr ?_
    dsimp only
    split
    · exact (pick _ y x).symm
    · exact pick _ x y

theorem fp32_minmax_lt (w : Bool) {x y : Nat} (hx : x < 2 ^ 32) (hy : y < 2 ^ 32) : fp32.minmax w x y < 2 ^ 32 := by
  rcases fp32.minmax_cases w x y with h | h | h <;> rw [h]
  · exact fp32_qnan_lt
  · exact hx
  · exact hy

/-! ### Micro-operations and combines -/

theorem microSrc_lt (regs : List Nat) (code : Nat) (h : ∀ x ∈ regs, x < 2 ^ 32) : microSrc regs code < 2 ^ 32 := by
  unfold microSrc
  split
  · decide
  · split
    · decide
    · rw [List.getD_eq_getElem?_getD]
      cases hg : regs[code]? with
      | none => decide
      | some x => exact h x (List.mem_of_getElem? hg)

theorem microStep_lt (regs : List Nat) (w : Nat) (h : ∀ x ∈ regs, x < 2 ^ 32) : ∀ x ∈ microStep regs w, x < 2 ^ 32 := by
  have src (code : Nat) := microSrc_lt regs code h
  intro x hx
  unfold microStep at hx
  rcases List.mem_or_eq_of_mem_set hx with hx | rfl
  · exact h x hx
  · split
    · exact fp32_ofVal_lt ..
    · exact fp32_addV_lt ..
    · exact fp32_addV_lt ..
    · exact fp32_addV_lt ..
    · exact fp32_minmax_lt _ (src _) (src _)
    · exact fp32_minmax_lt _ (src _) (src _)
    · exact src _
    · split
      · exact src _
      · exact src _

/-- Both components of an element are 32-bit images. -/
def SEl.Fits (x : SEl) : Prop := x.a < 2 ^ 32 ∧ x.b < 2 ^ 32

theorem foldl_microStep_lt (ws : List Nat) (regs : List Nat) (h : ∀ x ∈ regs, x < 2 ^ 32) : ∀ x ∈ ws.foldl microStep regs, x < 2 ^ 32 := by
  induction ws generalizing regs with
  | nil => exact h
  | cons w r ih => exact ih _ (microStep_lt regs w h)

theorem getD_lt {l : List Nat} (h : ∀ x ∈ l, x < 2 ^ 32) (n : Nat) : l.getD n 0 < 2 ^ 32 := by
  rw [List.getD_eq_getElem?_getD]
  cases hg : l[n]? with
  | none => decide
  | some x => exact h x (List.mem_of_getElem? hg)

/-- Combining images gives images (R266, R268). -/
theorem combine_fits (prog : BitVec 128) {l r : SEl} (hl : l.Fits) (hr : r.Fits) : (combine prog l r).Fits := by
  unfold combine
  split
  · exact hr
  · split
    · exact hl
    · have hregs : ∀ x ∈ [l.a, l.b, r.a, r.b, 0, 0], x < 2 ^ 32 := by
        obtain ⟨⟨hla, hlb⟩, hra, hrb⟩ := And.intro hl hr
        simpa using ⟨hla, hlb, hra, hrb⟩
      have hf := getD_lt (foldl_microStep_lt (((List.range 8).map (microOf prog)).filter (fun w => bitOf w 0)) _ hregs)
      refine ⟨?_, hf 1⟩
      dsimp only
      split
      · decide
      · exact hf 0

end Sys2Proof.Machine

/-! ## Writing lanes of tile images and of state tiles (R61, R265, R267) -/

namespace Sys2Proof.Machine
open Sys2Proof.Claim

/-! ### A map written from another map -/

/-- The keys of a map rise. -/
def SMap.Rising {α : Type} (m : SMap α) : Prop := m.Pairwise (fun a b => a.1 < b.1)

theorem SMap.mem_insert {α : Type} (m : SMap α) (n : Nat) (v : α) (p : Nat × α) (h : p ∈ SMap.insert m n v) : p = (n, v) ∨ p ∈ m := by
  induction m with
  | nil => exact .inl (List.mem_singleton.mp h)
  | cons e r ih =>
    obtain ⟨k, w⟩ := e
    unfold SMap.insert at h
    split at h
    · exact (List.mem_cons.mp h)
    · split at h
      · exact (List.mem_cons.mp h).imp_right (List.mem_cons_of_mem _)
      · rcases List.mem_cons.mp h with h | h
        · exact .inr (h ▸ List.mem_cons_self ..)
        · exact (ih h).imp_right (List.mem_cons_of_mem _)

theorem SMap.Rising.insert {α : Type} {m : SMap α} (hm : SMap.Rising m) (n : Nat) (v : α) : SMap.Rising (SMap.insert m n v) := by
  induction m with
  | nil => exact List.pairwise_singleton _ _
  | cons e r ih =>
    obtain ⟨k, w⟩ := e
    obtain ⟨hk, hr⟩ := List.pairwise_cons.mp hm
    unfold SMap.insert
    split
    · rename_i hn
      refine List.pairwise_cons.mpr ⟨fun p hp => ?_, hm⟩
      rcases List.mem_cons.mp hp with rfl | hp
      · exact hn
      · exact Nat.lt_trans hn (hk p hp)
    · split
      · rename_i hn
        subst hn
        exact List.pairwise_cons.mpr ⟨hk, hr⟩
      · refine List.pairwise_cons.mpr ⟨fun p hp => ?_, ih hr⟩
        rcases SMap.mem_insert r n v p hp with rfl | hp
        · show k < n
          omega
        · exact hk p hp

theorem SMap.find_cons {α : Type} (n : Nat) (v : α) (r : SMap α) (k : Nat) :
    SMap.find ((n, v) :: r) k = if n = k then some v else SMap.find r k := rfl

theorem SMap.find_none {α : Type} (m : SMap α) (k : Nat) (h : ∀ p ∈ m, p.1 ≠ k) : SMap.find m k = none := by
  induction m with
  | nil => rfl
  | cons e r ih =>
    obtain ⟨n, v⟩ := e
    rw [SMap.find_cons, if_neg (h (n, v) (List.mem_cons_self ..))]
    exact ih (fun p hp => h p (List.mem_cons_of_mem _ hp))

/-- Writing every entry of a rising map. -/
theorem SMap.get_setAll_rising {α : Type} [DecidableEq α] (d : α) (m : SMap α) (hm : SMap.Rising m) (t : SMap α) (k : Nat) :
    SMap.get d (SMap.setAll d t m) k = (SMap.find m k).getD (SMap.get d t k) := by
  induction m generalizing t with
  | nil => rfl
  | cons e r ih =>
    obtain ⟨n, v⟩ := e
    obtain ⟨hn, hr⟩ := List.pairwise_cons.mp hm
    refine (ih hr (SMap.set d t n v)).trans ?_
    rw [SMap.find_cons]
    by_cases h : n = k
    · subst h
      rw [if_pos rfl, SMap.find_none r n (fun p hp => Nat.ne_of_gt (hn p hp)), SMap.get_set_self]
      rfl
    · rw [if_neg h, SMap.get_set_ne d t v (Ne.symm h)]

/-! ### Four-byte lanes of the tile store -/

/-- Half q of a word. -/
def laneIn (w : W64) (q : Nat) : Nat := w.toNat / 2 ^ (32 * q) % 2 ^ 32

/-- A word with half q replaced. -/
def putIn (w : W64) (q v : Nat) : W64 := BitVec.ofNat 64 (w.toNat - w.toNat / 2 ^ (32 * q) % 2 ^ 32 * 2 ^ (32 * q) + v * 2 ^ (32 * q))

theorem laneIn_putIn_self (w : W64) (q v : Nat) (hq : q < 2) (hv : v < 2 ^ 32) : laneIn (putIn w q v) q = v := by
  unfold laneIn putIn
  rw [BitVec.toNat_ofNat]
  have hw := w.isLt
  generalize w.toNat = x at hw
  obtain rfl | rfl : q = 0 ∨ q = 1 := by omega
  · simp only [Nat.mul_zero, Nat.pow_zero]
    omega
  · simp only [Nat.mul_one]
    omega

theorem laneIn_putIn_other (w : W64) (q p v : Nat) (hq : q < 2) (hp : p < 2) (hne : p ≠ q) (hv : v < 2 ^ 32) :
    laneIn (putIn w q v) p = laneIn w p := by
  unfold laneIn putIn
  rw [BitVec.toNat_ofNat]
  have hw := w.isLt
  generalize w.toNat = x at hw
  obtain ⟨rfl, rfl⟩ | ⟨rfl, rfl⟩ : (q = 0 ∧ p = 1) ∨ (q = 1 ∧ p = 0) := by omega
  · simp only [Nat.mul_zero, Nat.pow_zero, Nat.mul_one]
    omega
  · simp only [Nat.mul_zero, Nat.pow_zero, Nat.mul_one]
    omega

/-- Lane n of the words of a tile store, two to a word. -/
def laneAt (t : Nat → W64) (n : Nat) : Nat := laneIn (t (n / 2)) (n % 2)

/-- The lane that a write of a row-layout image (granule, row, column, value) names. -/
def laneNo (e : Nat × Nat × Nat × Nat) : Nat := 1024 * e.1 + 64 * e.2.1 + e.2.2.1

/-- One lane written. -/
def putLane (t : Nat → W64) (e : Nat × Nat × Nat × Nat) : Nat → W64 := fun w =>
  if w = laneNo e / 2 then putIn (t w) (laneNo e % 2) e.2.2.2 else t w

theorem laneAt_putLane (t : Nat → W64) (e : Nat × Nat × Nat × Nat) (he : e.2.2.2 < 2 ^ 32) (n : Nat) :
    laneAt (putLane t e) n = if n = laneNo e then e.2.2.2 else laneAt t n := by
  unfold laneAt putLane
  by_cases hw : n / 2 = laneNo e / 2
  · rw [if_pos hw]
    by_cases hn : n = laneNo e
    · rw [if_pos hn, hn]
      exact laneIn_putIn_self _ _ _ (Nat.mod_lt _ (by decide)) he
    · rw [if_neg hn]
      exact laneIn_putIn_other _ _ _ _ (Nat.mod_lt _ (by decide)) (Nat.mod_lt _ (by decide)) (by omega) he
  · rw [if_neg hw, if_neg (fun h => hw (by rw [h]))]

theorem laneAt_foldl_other (l : List (Nat × Nat × Nat × Nat)) (t : Nat → W64) (n : Nat) (hv : ∀ e ∈ l, e.2.2.2 < 2 ^ 32)
    (hn : ∀ e ∈ l, laneNo e ≠ n) : laneAt (l.foldl putLane t) n = laneAt t n := by
  induction l generalizing t with
  | nil => rfl
  | cons e r ih =>
    rw [List.foldl_cons, ih _ (fun x hx => hv x (List.mem_cons_of_mem _ hx)) (fun x hx => hn x (List.mem_cons_of_mem _ hx)),
      laneAt_putLane t e (hv e (List.mem_cons_self ..)), if_neg (Ne.symm (hn e (List.mem_cons_self ..)))]

/-- A lane that is written, and always with the same value. -/
theorem laneAt_foldl_mem (l : List (Nat × Nat × Nat × Nat)) (t : Nat → W64) (n v : Nat) (hv : ∀ e ∈ l, e.2.2.2 < 2 ^ 32)
    (hn : ∃ e ∈ l, laneNo e = n) (hval : ∀ e ∈ l, laneNo e = n → e.2.2.2 = v) : laneAt (l.foldl putLane t) n = v := by
  induction l generalizing t with
  | nil => simp at hn
  | cons e r ih =>
    have hv' := fun x hx => hv x (List.mem_cons_of_mem e hx)
    have hval' := fun x hx => hval x (List.mem_cons_of_mem e hx)
    by_cases hr : ∃ x ∈ r, laneNo x = n
    · exact ih _ hv' hr hval'
    · have he : laneNo e = n := by
        obtain ⟨x, hx, h⟩ := hn
        rcases List.mem_cons.mp hx with rfl | hx
        · exact h
        · exact absurd ⟨x, hx, h⟩ hr
      rw [List.foldl_cons, laneAt_foldl_other r _ n hv' (fun x hx h => hr ⟨x, hx, h⟩), laneAt_putLane t e (hv e (List.mem_cons_self ..)),
        if_pos he.symm]
      exact hval e (List.mem_cons_self ..) he

theorem foldl_putLane_word (l : List (Nat × Nat × Nat × Nat)) (t : Nat → W64) (w : Nat) (h : ∀ e ∈ l, laneNo e / 2 ≠ w) :
    l.foldl putLane t w = t w := by
  induction l generalizing t with
  | nil => rfl
  | cons e r ih =>
    rw [List.foldl_cons, ih _ (fun x hx => h x (List.mem_cons_of_mem _ hx)), putLane, if_neg (Ne.symm (h e (List.mem_cons_self ..)))]

/-- The words of a core's tile store. -/
def Core.tileWord (co : Core) : Nat → W64 := SMap.get 0 co.tile

theorem rowLane_eq (co : Core) (g r c : Nat) : rowLane co g r c = laneAt co.tileWord (1024 * g + 64 * r + c) := by
  have hw : (1024 * g + 64 * r + c) / 2 = 512 * g + 32 * r + c / 2 := by omega
  have hq : (1024 * g + 64 * r + c) % 2 = c % 2 := by omega
  unfold laneAt
  rw [hw, hq]
  rfl

theorem rowLane_lt (co : Core) (g r c : Nat) : rowLane co g r c < 2 ^ 32 := Nat.mod_lt _ (by decide)

/-! ### `writeLanes` writes lane after lane -/

/-- A tile store under the words that `writeLanes` gathers. -/
def overlay (co : Core) (m : SMap W64) : Nat → W64 := fun w => (SMap.find m w).getD (SMap.get 0 co.tile w)

/-- One step of the gathering in `writeLanes`. -/
def gatherLane (co : Core) (m : SMap W64) (e : Nat × Nat × Nat × Nat) : SMap W64 :=
  let w := 512 * e.1 + 32 * e.2.1 + e.2.2.1 / 2
  let old := (match SMap.find m w with | some x => x | none => SMap.get 0 co.tile w).toNat
  SMap.insert m w (BitVec.ofNat 64 (old - old / 2 ^ (32 * (e.2.2.1 % 2)) % 2 ^ 32 * 2 ^ (32 * (e.2.2.1 % 2)) +
    e.2.2.2 * 2 ^ (32 * (e.2.2.1 % 2))))

theorem writeLanes_eq (core : Nat) (l : List (Nat × Nat × Nat × Nat)) (h : Hw) :
    h.run (writeLanes core l) = h.run (writeTile core (l.foldl (gatherLane (h.core core)) [])) := rfl

theorem gatherLane_eq (co : Core) (m : SMap W64) (e : Nat × Nat × Nat × Nat) :
    gatherLane co m e = SMap.insert m (laneNo e / 2) (putIn (overlay co m (laneNo e / 2)) (laneNo e % 2) e.2.2.2) := by
  have hw : laneNo e / 2 = 512 * e.1 + 32 * e.2.1 + e.2.2.1 / 2 := by unfold laneNo; omega
  have hq : laneNo e % 2 = e.2.2.1 % 2 := by unfold laneNo; omega
  rw [hw, hq]
  unfold gatherLane overlay putIn
  cases hf : SMap.find m (512 * e.1 + 32 * e.2.1 + e.2.2.1 / 2) <;> simp only [hf, Option.getD]

theorem overlay_gatherLane (co : Core) (m : SMap W64) (e : Nat × Nat × Nat × Nat) :
    overlay co (gatherLane co m e) = putLane (overlay co m) e := by
  funext w
  rw [gatherLane_eq]
  unfold putLane overlay
  by_cases hw : w = laneNo e / 2
  · subst hw
    rw [SMap.find_insert_self, if_pos rfl]
    rfl
  · rw [SMap.find_insert_ne _ _ hw, if_neg hw]

theorem gathered (co : Core) (l : List (Nat × Nat × Nat × Nat)) (m : SMap W64) (hm : SMap.Rising m) :
    SMap.Rising (l.foldl (gatherLane co) m) ∧ overlay co (l.foldl (gatherLane co) m) = l.foldl putLane (overlay co m) := by
  induction l generalizing m with
  | nil => exact ⟨hm, rfl⟩
  | cons e r ih =>
    rw [List.foldl_cons, List.foldl_cons, ← overlay_gatherLane]
    exact ih _ (hm.insert _ _)

section
variable {s : State} {quiet : Prop} {h : Hw} {co : Core} {b : Seat}

theorem Does.writeLanes (hs : Does s quiet h co b) (l : List (Nat × Nat × Nat × Nat)) :
    ∃ tl tc, Does s quiet (h.run (writeLanes (coreOf s.cur.seat) l)) { co with tile := tl, touched := tc } b ∧
      SMap.get 0 tl = l.foldl putLane co.tileWord := by
  obtain ⟨hm, hov⟩ := gathered (h.core (coreOf s.cur.seat)) l [] List.Pairwise.nil
  have hbase : overlay (h.core (coreOf s.cur.seat)) [] = co.tileWord := by
    funext w
    show SMap.get 0 (h.core (coreOf s.cur.seat)).tile w = SMap.get 0 co.tile w
    rw [hs.core.tile]
  rw [hbase] at hov
  rw [writeLanes_eq]
  generalize l.foldl (gatherLane (h.core (coreOf s.cur.seat))) [] = ws at hm hov
  refine ⟨SMap.setAll 0 co.tile ws,
    ws.foldl (fun t e => if t.contains (e.1 / 512) then t else t ++ [e.1 / 512]) co.touched, hs.modCore _ ?_, ?_⟩
  · rw [hs.core.eq]
    rfl
  · rw [← hov]
    funext w
    rw [SMap.get_setAll_rising 0 ws hm]
    unfold overlay
    rw [hs.core.tile]

theorem Does.writeHt (hs : Does s quiet h co b) (l : List (Nat × Nat × Nat × Nat)) :
    Does s quiet (h.run (writeHt (coreOf s.cur.seat) l))
      { co with ht := SMap.setAll 0 co.ht (l.map (fun e => (htKey e.1 e.2.1 e.2.2.1, BitVec.ofNat 32 e.2.2.2))) } b :=
  hs.modCore _ (by rw [hs.core.eq]; rfl)

theorem Does.noteRep (hs : Does s quiet h co b) (x : Bool) (hq : quiet → x = false) : Does s quiet (h.run (noteRep (ctxOf s) x)) co b := by
  unfold Machine.noteRep
  cases x with
  | false => exact hs
  | true => exact hs.noteSeat (fun h => Bool.noConfusion (hq h)) _ _

end

end Sys2Proof.Machine

/-! ## Windows of the scan path, and lists of writes to their cells (R61, R265, R278, R279) -/

namespace Sys2Proof.Machine
open Sys2Proof.Claim

/-! ### Lists of cell writes (tile or granule, row, lane, value) -/

/-- The cells that a list writes lie in 64 × 64 tiles, its values are 32-bit images, and it gives each cell one value. -/
structure CellWrites (l : List (Nat × Nat × Nat × Nat)) : Prop where
  val : ∀ e ∈ l, e.2.2.2 < 2 ^ 32
  row : ∀ e ∈ l, e.2.1 < 64
  lane : ∀ e ∈ l, e.2.2.1 < 64
  same : ∀ e ∈ l, ∀ x ∈ l, x.1 = e.1 → x.2.1 = e.2.1 → x.2.2.1 = e.2.2.1 → x.2.2.2 = e.2.2.2

theorem htLane_lt (co : Core) (h r n : Nat) : htLane co h r n < 2 ^ 32 := (SMap.get 0 co.ht (htKey h r n)).isLt

section
variable {l : List (Nat × Nat × Nat × Nat)} (hl : CellWrites l)
include hl

/-- A written lane of a state tile. -/
theorem CellWrites.htLane {a b : Core} (hb : b.ht = SMap.setAll 0 a.ht (l.map (fun e => (htKey e.1 e.2.1 e.2.2.1, BitVec.ofNat 32 e.2.2.2))))
    {h r n v : Nat} (he : (h, r, n, v) ∈ l) : htLane b h r n = v := by
  have hr := hl.row _ he
  have hn := hl.lane _ he
  unfold Machine.htLane
  rw [hb, SMap.get_setAll_mem 0 _ a.ht (htKey h r n) (BitVec.ofNat 32 v) ⟨_, List.mem_map_of_mem he, rfl⟩ ?_]
  · exact (BitVec.toNat_ofNat ..).trans (Nat.mod_eq_of_lt (hl.val _ he))
  · intro p hp hk
    obtain ⟨x, hx, rfl⟩ := List.mem_map.mp hp
    have hxr := hl.row x hx
    have hxn := hl.lane x hx
    unfold htKey at hk
    dsimp only at hk hr hn ⊢
    rw [hl.same _ he x hx (by dsimp only; omega) (by dsimp only; omega) (by dsimp only; omega)]

/-- A written lane of a row-layout image, of images that lie four granules apart. -/
theorem CellWrites.rowLane {a b : Core} (hb : b.tileWord = l.foldl putLane a.tileWord) {g r n v : Nat} (he : (g, r, n, v) ∈ l)
    (hg : ∀ x ∈ l, x.1 % 4 = g % 4) : rowLane b g r n = v := by
  have hr := hl.row _ he
  have hn := hl.lane _ he
  rw [rowLane_eq, hb]
  refine laneAt_foldl_mem l a.tileWord _ v hl.val ⟨_, he, rfl⟩ (fun x hx hk => ?_)
  have hxr := hl.row x hx
  have hxn := hl.lane x hx
  have hxg := hg x hx
  unfold laneNo at hk
  dsimp only at hr hn
  exact hl.same _ he x hx (by dsimp only; omega) (by dsimp only; omega) (by dsimp only; omega)

/-- A lane of such an image that is not written. -/
theorem CellWrites.rowLane_kept {a b : Core} (hb : b.tileWord = l.foldl putLane a.tileWord) {g r n : Nat} (hr : r < 64) (hn : n < 64)
    (hg : ∀ x ∈ l, x.1 % 4 = g % 4) (he : ∀ x ∈ l, x.2.1 = r → x.2.2.1 = n → False) : Machine.rowLane b g r n = Machine.rowLane a g r n := by
  rw [rowLane_eq, rowLane_eq, hb]
  refine laneAt_foldl_other l a.tileWord _ hl.val (fun x hx hk => ?_)
  have hxr := hl.row x hx
  have hxn := hl.lane x hx
  have hxg := hg x hx
  unfold laneNo at hk
  exact he x hx (by omega) (by omega)

/-- A word of the tile store outside the images. -/
theorem CellWrites.word_kept {a b : Core} (hb : b.tileWord = l.foldl putLane a.tileWord) {w : Nat}
    (hw : ∀ x ∈ l, w < 512 * x.1 ∨ 512 * x.1 + 2048 ≤ w) : SMap.get 0 b.tile w = SMap.get 0 a.tile w := by
  refine (congrFun hb w).trans (foldl_putLane_word l a.tileWord w (fun x hx hk => ?_))
  have hxr := hl.row x hx
  have hxn := hl.lane x hx
  unfold laneNo at hk
  rcases hw x hx with h | h <;> omega

end

/-! ### Whole tiles -/

theorem mem_tileCells {r n : Nat} : (r, n) ∈ tileCells ↔ r < 64 ∧ n < 64 := by
  simp [tileCells]

/-- The writes of every cell of tile t. -/
def tileWrites (t : Nat) (v : Nat → Nat → Nat) : List (Nat × Nat × Nat × Nat) := tileCells.map (fun e => (t, e.1, e.2, v e.1 e.2))

theorem mem_tileWrites {t : Nat} {v : Nat → Nat → Nat} {e : Nat × Nat × Nat × Nat} :
    e ∈ tileWrites t v ↔ ∃ r < 64, ∃ n < 64, e = (t, r, n, v r n) := by
  unfold tileWrites
  constructor
  · intro h
    obtain ⟨⟨r, n⟩, hx, rfl⟩ := List.mem_map.mp h
    obtain ⟨hr, hn⟩ := mem_tileCells.mp hx
    exact ⟨r, hr, n, hn, rfl⟩
  · rintro ⟨r, hr, n, hn, rfl⟩
    exact List.mem_map.mpr ⟨(r, n), mem_tileCells.mpr ⟨hr, hn⟩, rfl⟩

theorem cellWrites_tileWrites (t : Nat) (v : Nat → Nat → Nat) (hv : ∀ r n, v r n < 2 ^ 32) : CellWrites (tileWrites t v) where
  val e he := by obtain ⟨r, hr, n, hn, rfl⟩ := mem_tileWrites.mp he; exact hv r n
  row e he := by obtain ⟨r, hr, n, hn, rfl⟩ := mem_tileWrites.mp he; exact hr
  lane e he := by obtain ⟨r, hr, n, hn, rfl⟩ := mem_tileWrites.mp he; exact hn
  same e he x hx _ hr hn := by
    obtain ⟨r, -, n, -, rfl⟩ := mem_tileWrites.mp he
    obtain ⟨r', -, n', -, rfl⟩ := mem_tileWrites.mp hx
    obtain rfl : r' = r := hr
    obtain rfl : n' = n := hn
    rfl

/-! ### Windows -/

/-- The rows and columns of a shape's window are rows and columns of a tile, each named once. -/
structure Shp.InTile (sh : Shp) : Prop where
  row_lt : ∀ i < sh.m, sh.row i < 64
  col_lt : ∀ j < sh.n, sh.col j < 64
  row_inj : ∀ i i', sh.row i = sh.row i' → i = i'
  col_inj : ∀ j j', sh.col j = sh.col j' → j = j'

/-- R61's conditions on a shape record. -/
theorem Shp.inTile_of_ok {sh : Shp} {b : Nat} (h : sh.ok sh.m sh.n b = true) : sh.InTile := by
  have inj {o st i i' : Nat} (hst : st ≠ 0) (h : o + i * st = o + i' * st) : i = i' :=
    Nat.eq_of_mul_eq_mul_right (Nat.pos_of_ne_zero hst) (Nat.add_left_cancel h)
  have lt {o st n i : Nat} (hn : o + (n - 1) * st < 64) (hi : i < n) : o + i * st < 64 :=
    Nat.lt_of_le_of_lt (Nat.add_le_add_left (Nat.mul_le_mul_right st (Nat.le_sub_one_of_lt hi)) o) hn
  unfold Shp.ok at h
  simp only [Bool.and_eq_true, bne_iff_ne, decide_eq_true_eq] at h
  obtain ⟨⟨⟨⟨⟨⟨⟨⟨⟨⟨⟨hrs, hcs⟩, -⟩, -⟩, -⟩, -⟩, -⟩, -⟩, -⟩, hrow⟩, hcol⟩, -⟩ := h
  exact ⟨fun _ => lt hrow, fun _ => lt hcol, fun _ _ => inj hrs, fun _ _ => inj hcs⟩

/-- The window of a scan form without causes (R265). -/
theorem inTile_of_scanShape {c : Ctx} {f : FScan} (h : scanShape c f = []) : (shpArg c f.shp).InTile := by
  refine Shp.inTile_of_ok (b := 16384) (Classical.byContradiction (fun hn => ?_))
  unfold scanShape shpCauses at h
  rw [if_neg hn] at h
  exact List.cons_ne_nil _ _ h

/-- A window's elements: row, column, element. -/
def winEls (sh : Shp) (x : Nat → Nat → SEl) : List (Nat × Nat × SEl) :=
  (List.range sh.m).flatMap (fun i => (List.range sh.n).map (fun j => (sh.row i, sh.col j, x i j)))

theorem mem_winEls {sh : Shp} {x : Nat → Nat → SEl} {e : Nat × Nat × SEl} :
    e ∈ winEls sh x ↔ ∃ i < sh.m, ∃ j < sh.n, e = (sh.row i, sh.col j, x i j) := by
  unfold winEls
  constructor
  · intro h
    obtain ⟨i, hi, h⟩ := List.mem_flatMap.mp h
    obtain ⟨j, hj, rfl⟩ := List.mem_map.mp h
    exact ⟨i, List.mem_range.mp hi, j, List.mem_range.mp hj, rfl⟩
  · rintro ⟨i, hi, j, hj, rfl⟩
    exact List.mem_flatMap.mpr ⟨i, List.mem_range.mpr hi, List.mem_map.mpr ⟨j, List.mem_range.mpr hj, rfl⟩⟩

/-- No combine of the window's elements replaced its result (R266). -/
def Shp.NoneRep (sh : Shp) (x : Nat → Nat → SEl) : Prop := ∀ i < sh.m, ∀ j < sh.n, (x i j).rep = false

theorem winEls_any_rep {sh : Shp} {x : Nat → Nat → SEl} (h : sh.NoneRep x) :
    (winEls sh x).any (fun e => e.2.2.rep) = false := by
  refine List.any_eq_false.mpr (fun e he => ?_)
  obtain ⟨i, hi, j, hj, rfl⟩ := mem_winEls.mp he
  exact Bool.eq_false_iff.mp (h i hi j hj)

/-- The writes of a window's elements: their a components to tile or granule a, their b components to b. -/
def winWrites (sh : Shp) (x : Nat → Nat → SEl) (a b : Nat) : List (Nat × Nat × Nat × Nat) :=
  (winEls sh x).flatMap (fun e => [(a, e.1, e.2.1, e.2.2.a), (b, e.1, e.2.1, e.2.2.b)])

section
variable {sh : Shp} {x : Nat → Nat → SEl} {a b : Nat}

theorem mem_winWrites {e : Nat × Nat × Nat × Nat} : e ∈ winWrites sh x a b ↔ ∃ i < sh.m, ∃ j < sh.n,
    e = (a, sh.row i, sh.col j, (x i j).a) ∨ e = (b, sh.row i, sh.col j, (x i j).b) := by
  unfold winWrites
  constructor
  · intro h
    obtain ⟨y, hy, h⟩ := List.mem_flatMap.mp h
    obtain ⟨i, hi, j, hj, rfl⟩ := mem_winEls.mp hy
    exact ⟨i, hi, j, hj, by simpa using h⟩
  · rintro ⟨i, hi, j, hj, h⟩
    exact List.mem_flatMap.mpr ⟨_, mem_winEls.mpr ⟨i, hi, j, hj, rfl⟩, by simpa using h⟩

theorem cellWrites_winWrites (hsh : sh.InTile) (hab : a ≠ b) (hx : ∀ i j, (x i j).Fits) : CellWrites (winWrites sh x a b) where
  val e he := by
    obtain ⟨i, hi, j, hj, rfl | rfl⟩ := mem_winWrites.mp he
    · exact (hx i j).1
    · exact (hx i j).2
  row e he := by
    obtain ⟨i, hi, j, hj, rfl | rfl⟩ := mem_winWrites.mp he <;> exact hsh.row_lt i hi
  lane e he := by
    obtain ⟨i, hi, j, hj, rfl | rfl⟩ := mem_winWrites.mp he <;> exact hsh.col_lt j hj
  same e he y hy ht hr hn := by
    obtain ⟨i, hi, j, hj, he⟩ := mem_winWrites.mp he
    obtain ⟨i', hi', j', hj', hy⟩ := mem_winWrites.mp hy
    have hi2 : i' = i := hsh.row_inj _ _ (by rcases he with rfl | rfl <;> rcases hy with rfl | rfl <;> exact hr)
    have hj2 : j' = j := hsh.col_inj _ _ (by rcases he with rfl | rfl <;> rcases hy with rfl | rfl <;> exact hn)
    subst hi2 hj2
    rcases he with rfl | rfl <;> rcases hy with rfl | rfl
    · rfl
    · exact absurd ht hab.symm
    · exact absurd ht hab
    · rfl

/-- A window's elements written to a pair image (R265). -/
theorem pairImage_winWrites {co co' : Core} {g : Nat} (hsh : sh.InTile) (hx : ∀ i j, (x i j).Fits)
    (hw : co'.tileWord = (winWrites sh x g (g + 4)).foldl putLane co.tileWord) :
    (∀ i < sh.m, ∀ j < sh.n, PairIs co' g (sh.row i) (sh.col j) (x i j)) ∧ ImagesKept co co' [g, g + 4] sh := by
  have hc := cellWrites_winWrites (a := g) (b := g + 4) hsh (by omega) hx
  have hmod : ∀ e ∈ winWrites sh x g (g + 4), e.1 % 4 = g % 4 := fun e he => by
    obtain ⟨i, -, j, -, rfl | rfl⟩ := mem_winWrites.mp he
    · rfl
    · exact Nat.add_mod_right g 4
  refine ⟨fun i hi j hj => ⟨?_, ?_⟩, fun w hw' => hc.word_kept hw (fun e he => ?_), fun g' hg' r hr q hq hout => ?_⟩
  · rw [hc.rowLane hw (mem_winWrites.mpr ⟨i, hi, j, hj, .inl rfl⟩) hmod, Nat.mod_eq_of_lt (hx i j).1]
  · rw [hc.rowLane hw (mem_winWrites.mpr ⟨i, hi, j, hj, .inr rfl⟩) (by simpa using hmod), Nat.mod_eq_of_lt (hx i j).2]
  · obtain ⟨i, -, j, -, rfl | rfl⟩ := mem_winWrites.mp he
    · exact hw' g (by simp)
    · exact hw' (g + 4) (by simp)
  · have hg4 : g' % 4 = g % 4 := by
      rcases List.mem_cons.mp hg' with rfl | h4
      · rfl
      · rw [List.mem_singleton.mp h4]
        exact Nat.add_mod_right g 4
    refine hc.rowLane_kept hw hr hq (fun e he => (hmod e he).trans hg4.symm) (fun e he h1 h2 => ?_)
    obtain ⟨i, hi, j, hj, h⟩ := mem_winWrites.mp he
    rcases hout i hi j hj with hne | hne
    · exact hne (by rcases h with rfl | rfl <;> exact h1.symm)
    · exact hne (by rcases h with rfl | rfl <;> exact h2.symm)

end

end Sys2Proof.Machine

/-! ## SCANC, QSET, STEP, STEPY, HLD, HST and HZERO (R272, R275, R278, R279) -/

namespace Sys2Proof.Machine
open Sys2Proof.Claim

/-! ### Forms of the scan path -/

theorem Does.scBanks {s : State} {quiet : Prop} {h : Hw} {co : Core} {b : Seat} (hs : Does s quiet h co b) (u : MUse) (occ rd wr : Nat)
    (sends : Bool) : Does s quiet (h.run (scForm.scBanks (ctxOf s) u occ rd wr sends)) co b := by
  unfold scForm.scBanks
  dsimp only
  split
  · exact hs.useBanks _
  · exact hs.when _ (hs.useBanks _)

/-- A form of the scan path whose uses raise no cause (R244 to R246). -/
theorem scForm_clean (i : Instr) (s : State) (hc : s.Clean .m) (hi : ∀ e, i ≠ .mnop e) {quiet : Prop} {co : Core} {b : Seat} (m : Ctx → Out)
    (u : MUse) (occ rd wr : Nat) (a : Act) (hm : m (ctxOf s) = scForm (ctxOf s) u occ rd wr a) (hu : u.causes = [])
    (hd : Does s quiet (s.hw.run a) co b)
    (hl : co.lost = s.myCore.lost ∧ co.frzTo = s.myCore.frzTo ∧ co.frzFrom = s.myCore.frzFrom) (hb : GoesOn s b) :
    ∃ t, slotOp i s m = .next t ∧ MatrixLeaves s t quiet co b := by
  have hf : m (ctxOf s) = Out.ok (Act.all [a, holdPath (ctxOf s) u.path occ,
      markRd (ctxOf s).core ((ctxOf s).t + rd) (u.rd.filter (fun i => decide (i < 276))), markWr (ctxOf s).core ((ctxOf s).t + wr) u.wr,
      scForm.scBanks (ctxOf s) u occ rd wr false]) := by
    rw [hm]
    unfold scForm Out.check
    rw [hu]; rfl
  refine matrix_clean i s hc hi m (by rw [hf]; rfl) (by rw [hf]; rfl) ?_ hl hb
  rw [hf]
  simp only [Out.ok, Hw.run_all_cons, Hw.run_all_nil]
  exact (((hd.holdPath _ _).markRd _ _).markWr _ _).scBanks _ _ _ _ _

/-- Two successive names of state tiles name two successive tiles (R63). -/
theorem htPhys_succ (c : Ctx) (n : Nat) : htPhys c (n + 1) = htPhys c n + 1 := by
  unfold htPhys phys physOf
  split
  · exact (Nat.add_assoc ..).symm
  · rfl

theorem pairEl_fits (co : Core) (g r n : Nat) : (pairEl co g r n).Fits := ⟨rowLane_lt .., rowLane_lt ..⟩

theorem slotEl_fits (co : Core) (h r n : Nat) : (slotEl co h r n).Fits := ⟨htLane_lt .., htLane_lt ..⟩

/-! ### SCANC (R275) -/

/-- SCANC's element at row i and column j of the window. -/
def scancEl (s : State) (f : FScan) (i j : Nat) : SEl :=
  combine (progOf (ctxOf s) f) (carryOf s f j)
    (pairEl s.myCore (tilePhys (ctxOf s) f.tp) ((shpArg (ctxOf s) f.shp).row i) ((shpArg (ctxOf s) f.shp).col j))

theorem scancEl_fits (s : State) (f : FScan) (i j : Nat) : (scancEl s f i j).Fits := combine_fits _ (slotEl_fits ..) (pairEl_fits ..)

theorem exec_scanc_writes (s : State) (f : FScan) (hc : s.Clean .m) (hu : (useScan (ctxOf s) f false false).causes = []) :
    ∃ t tl tc, exec (.scanc f) s = .next t ∧
      SMap.get 0 tl = (winWrites (shpArg (ctxOf s) f.shp) (scancEl s f) (tilePhys (ctxOf s) f.tp) (tilePhys (ctxOf s) f.tp + 4)).foldl putLane
        s.myCore.tileWord ∧
      MatrixLeaves s t ((shpArg (ctxOf s) f.shp).NoneRep (scancEl s f))
        { s.myCore with tile := tl, touched := tc } (s.me.warned 0) := by
  obtain ⟨tl, tc, hd, htl⟩ := (Does.refl s ((shpArg (ctxOf s) f.shp).NoneRep (scancEl s f))).writeLanes
    (winWrites (shpArg (ctxOf s) f.shp) (scancEl s f) (tilePhys (ctxOf s) f.tp) (tilePhys (ctxOf s) f.tp + 4))
  suffices h : ∃ t, exec (.scanc f) s = .next t ∧ MatrixLeaves s t _ { s.myCore with tile := tl, touched := tc } (s.me.warned 0) by
    obtain ⟨t, ht, hl⟩ := h
    exact ⟨t, tl, tc, ht, htl, hl⟩
  rw [exec_scanc, execScanc]
  refine scForm_clean (.scanc f) s hc (fun _ => Instr.noConfusion) _ (useScan (ctxOf s) f false false) 8 16 16 (Act.all [
      writeLanes (ctxOf s).core (winWrites (shpArg (ctxOf s) f.shp) (scancEl s f) (tilePhys (ctxOf s) f.tp) (tilePhys (ctxOf s) f.tp + 4)),
      noteRep (ctxOf s) ((winEls (shpArg (ctxOf s) f.shp) (scancEl s f)).any (fun e => e.2.2.rep))])
    ?_ hu ?_ ⟨rfl, rfl, rfl⟩ (goesOn_warned hc 0)
  · rw [hc.ctx_co]
    rfl
  · rw [Hw.run_all_cons, Hw.run_all_cons, Hw.run_all_nil]
    exact hd.noteRep _ winEls_any_rep

/-! ### QSET (R272) -/

theorem ofNat_two_words (hi lo : W64) : BitVec.ofNat 128 (lo.toNat + hi.toNat * 2 ^ 64) = (hi ++ lo : BitVec 128) := by
  apply BitVec.eq_of_toNat_eq
  rw [BitVec.toNat_ofNat, BitVec.toNat_append, ← Nat.shiftLeft_add_eq_or_of_lt lo.isLt, Nat.shiftLeft_eq]
  omega

theorem goesOn_withPrograms {s : State} {sl : Slot} (hc : s.Clean sl) (x : SMap (BitVec 128)) : GoesOn s { s.me.warned 0 with q := x } :=
  ⟨hc.brk, rfl, fun _ => rfl, fun _ hp => .inl hp⟩

theorem exec_qset_loads (s : State) (f : FScan) (hc : s.Clean .m) (hu : (useQset (ctxOf s) f).causes = []) :
    ∃ t, exec (.qset f) s = .next t ∧
      (t.hw.seat s.cur.seat).q = SMap.set 0 s.me.q f.q.toNat
        (SMap.get 0 s.myCore.tile (512 * tilePhys (ctxOf s) f.tp + 2 * scW16 f + 1) ++
          SMap.get 0 s.myCore.tile (512 * tilePhys (ctxOf s) f.tp + 2 * scW16 f)) ∧
      s.LeavesCore t s.myCore { stepped s 0 with q := (t.hw.seat s.cur.seat).q } [] := by
  rw [← ofNat_two_words]
  obtain ⟨t, ht, hl⟩ : ∃ t, exec (.qset f) s = .next t ∧ MatrixLeaves s t True s.myCore
      { s.me.warned 0 with q := SMap.set 0 s.me.q f.q.toNat (BitVec.ofNat 128
        ((SMap.get 0 s.myCore.tile (512 * tilePhys (ctxOf s) f.tp + 2 * scW16 f)).toNat +
          (SMap.get 0 s.myCore.tile (512 * tilePhys (ctxOf s) f.tp + 2 * scW16 f + 1)).toNat * 2 ^ 64)) } := by
    rw [exec_qset, execQset]
    refine scForm_clean (.qset f) s hc (fun _ => Instr.noConfusion) _ (useQset (ctxOf s) f) 1 1 0 _ rfl hu ?_
      ⟨rfl, rfl, rfl⟩ (goesOn_withPrograms hc _)
    rw [hc.ctx_co, Hw.run_all_cons, Hw.run_all_cons, Hw.run_all_nil]
    exact ((Does.refl s True).modSeat _).markWr _ _
  have hq := (hl.all trivial).seat
  unfold Seat.Rest at hq
  refine ⟨t, ht, by rw [hq], (hl.all trivial).seat_mono ?_⟩
  rw [hq]
  rfl

/-! ### STEP and STEPY (R278) -/

theorem stepped2_fits (s : State) (f : FScan) (i j : Nat) : (stepped2 s f i j).Fits :=
  combine_fits _ ⟨htLane_lt .., htLane_lt ..⟩ (pairEl_fits ..)

/-- The writes of STEP to the lanes of state tiles or images a and b. -/
def stepWrites (s : State) (f : FScan) (a b : Nat) : List (Nat × Nat × Nat × Nat) := winWrites (shpArg (ctxOf s) f.shp) (stepped2 s f) a b

/-- The state tiles after STEP. -/
def stepHt (s : State) (f : FScan) : SMap (BitVec 32) :=
  SMap.setAll 0 s.myCore.ht ((stepWrites s f (htPhys (ctxOf s) f.h.toNat) (htPhys (ctxOf s) (f.h.toNat + 1))).map
    (fun e => (htKey e.1 e.2.1 e.2.2.1, BitVec.ofNat 32 e.2.2.2)))

/-- What STEP and STEPY do before they book; only STEPY (y) writes the image. -/
theorem does_step (s : State) (f : FScan) (y : Bool) :
    ∃ tl tc, Does s ((shpArg (ctxOf s) f.shp).NoneRep (stepped2 s f))
      (s.hw.run (Act.all [
        writeHt (ctxOf s).core (stepWrites s f (htPhys (ctxOf s) f.h.toNat) (htPhys (ctxOf s) (f.h.toNat + 1))),
        Act.when y (writeLanes (ctxOf s).core (stepWrites s f (tilePhys (ctxOf s) f.tp) (tilePhys (ctxOf s) f.tp + 4))),
        noteRep (ctxOf s) ((winEls (shpArg (ctxOf s) f.shp) (stepped2 s f)).any (fun e => e.2.2.rep))]))
      { s.myCore with ht := stepHt s f, tile := tl, touched := tc } (s.me.warned 0) ∧
    if y then SMap.get 0 tl = (stepWrites s f (tilePhys (ctxOf s) f.tp) (tilePhys (ctxOf s) f.tp + 4)).foldl putLane s.myCore.tileWord
    else tl = s.myCore.tile := by
  have hh := (Does.refl s ((shpArg (ctxOf s) f.shp).NoneRep (stepped2 s f))).writeHt
    (stepWrites s f (htPhys (ctxOf s) f.h.toNat) (htPhys (ctxOf s) (f.h.toNat + 1)))
  simp only [Hw.run_all_cons, Hw.run_all_nil, Hw.run_when]
  cases y with
  | false => exact ⟨s.myCore.tile, s.myCore.touched, hh.noteRep _ winEls_any_rep, rfl⟩
  | true =>
    obtain ⟨tl, tc, hd, htl⟩ := hh.writeLanes (stepWrites s f (tilePhys (ctxOf s) f.tp) (tilePhys (ctxOf s) f.tp + 4))
    exact ⟨tl, tc, hd.noteRep _ winEls_any_rep, htl⟩

theorem step_leaves (i : Instr) (s : State) (f : FScan) (y : Bool) (hc : s.Clean .m) (hi : ∀ e, i ≠ .mnop e)
    (hu : (useStep (ctxOf s) f y).causes = []) :
    ∃ t tl tc, slotOp i s (fun c => stepOut c f y) = .next t ∧
      MatrixLeaves s t ((shpArg (ctxOf s) f.shp).NoneRep (stepped2 s f))
        { s.myCore with ht := stepHt s f, tile := tl, touched := tc } (s.me.warned 0) ∧
      if y then SMap.get 0 tl = (stepWrites s f (tilePhys (ctxOf s) f.tp) (tilePhys (ctxOf s) f.tp + 4)).foldl putLane s.myCore.tileWord
      else tl = s.myCore.tile := by
  obtain ⟨tl, tc, hd, htl⟩ := does_step s f y
  obtain ⟨t, ht, hl⟩ := scForm_clean i s hc hi (fun c => stepOut c f y) (useStep (ctxOf s) f y) 8 16 16 _
    (by unfold stepOut stepEls; rw [hc.ctx_co]; rfl) hu hd ⟨rfl, rfl, rfl⟩ (goesOn_warned hc 0)
  exact ⟨t, tl, tc, ht, hl, htl⟩

theorem statesStepped_of_ht {s t : State} {f : FScan} (hsh : (shpArg (ctxOf s) f.shp).InTile)
    (hht : (t.hw.core (coreOf s.cur.seat)).ht = stepHt s f) : StatesStepped s t f := by
  have hab : htPhys (ctxOf s) f.h.toNat ≠ htPhys (ctxOf s) (f.h.toNat + 1) := by
    rw [htPhys_succ]
    exact Nat.ne_of_lt (Nat.lt_succ_self _)
  have hcw := cellWrites_winWrites hsh hab (stepped2_fits s f)
  refine ⟨fun i hi j hj => ⟨?_, ?_⟩, fun k hk => ?_⟩
  · rw [hcw.htLane hht (mem_winWrites.mpr ⟨i, hi, j, hj, .inl rfl⟩), Nat.mod_eq_of_lt (stepped2_fits s f i j).1]
  · rw [hcw.htLane hht (mem_winWrites.mpr ⟨i, hi, j, hj, .inr rfl⟩), Nat.mod_eq_of_lt (stepped2_fits s f i j).2]
  · rw [hht]
    refine SMap.get_setAll_other 0 _ s.myCore.ht k (fun p hp hkey => ?_)
    obtain ⟨e, he, rfl⟩ := List.mem_map.mp hp
    obtain ⟨i, hi, j, hj, h⟩ := mem_winWrites.mp he
    have hmem (x : Nat × Nat × Nat) (hx : x ∈ [(htPhys (ctxOf s) f.h.toNat, (shpArg (ctxOf s) f.shp).row i, (shpArg (ctxOf s) f.shp).col j),
        (htPhys (ctxOf s) (f.h.toNat + 1), (shpArg (ctxOf s) f.shp).row i, (shpArg (ctxOf s) f.shp).col j)]) : k ≠ htKey x.1 x.2.1 x.2.2 :=
      hk x (List.mem_flatMap.mpr ⟨i, List.mem_range.mpr hi, List.mem_flatMap.mpr ⟨j, List.mem_range.mpr hj, hx⟩⟩)
    rcases h with rfl | rfl
    · exact hmem _ (List.mem_cons_self ..) hkey.symm
    · exact hmem _ (List.mem_cons_of_mem _ (List.mem_cons_self ..)) hkey.symm

/-! ### HLD, HST and HZERO (R279) -/

section
variable {s t : State} {co : Core} {x : Seat} {w : List (Port × Nat)}

theorem State.LeavesCore.own_ht (h : s.LeavesCore t co x w) : s.LeavesCore t { co with ht := (t.hw.core (coreOf s.cur.seat)).ht } x w :=
  h.core_mono (by rw [h.core.ht]; rfl)

theorem State.LeavesCore.own_tile (h : s.LeavesCore t co x w) :
    s.LeavesCore t { co with tile := (t.hw.core (coreOf s.cur.seat)).tile, touched := (t.hw.core (coreOf s.cur.seat)).touched } x w :=
  h.core_mono (by rw [h.core.tile, h.core.touched]; rfl)

end

/-- A form that fills state tile h. -/
theorem fillHt_leaves (i : Instr) (s : State) (hc : s.Clean .m) (hi : ∀ e, i ≠ .mnop e) (m : Ctx → Out) (u : MUse) (occ rd wr h : Nat)
    (v : Nat → Nat → Nat) (hm : m (ctxOf s) = scForm (ctxOf s) u occ rd wr (writeHt (ctxOf s).core (tileWrites h v))) (hu : u.causes = [])
    (hv : ∀ r n, v r n < 2 ^ 32) :
    ∃ t, slotOp i s m = .next t ∧ (∀ r < 64, ∀ n < 64, htLane (t.hw.core (coreOf s.cur.seat)) h r n = v r n) ∧
      (∀ k, k / 4096 ≠ h → SMap.get 0 (t.hw.core (coreOf s.cur.seat)).ht k = SMap.get 0 s.myCore.ht k) ∧
      s.LeavesCore t { s.myCore with ht := (t.hw.core (coreOf s.cur.seat)).ht } (stepped s 0) [] := by
  obtain ⟨t, ht, hl⟩ := scForm_clean i s hc hi m u occ rd wr _ hm hu ((Does.refl s True).writeHt (tileWrites h v)) ⟨rfl, rfl, rfl⟩ (goesOn_warned hc 0)
  have hht := hl.core.ht
  dsimp only at hht
  refine ⟨t, ht, fun r hr n hn => (cellWrites_tileWrites h v hv).htLane hht (mem_tileWrites.mpr ⟨r, hr, n, hn, rfl⟩), fun k hk => ?_,
    (hl.all trivial).own_ht⟩
  rw [hht]
  refine SMap.get_setAll_other 0 _ s.myCore.ht k (fun p hp hkey => hk ?_)
  obtain ⟨e, he, rfl⟩ := List.mem_map.mp hp
  obtain ⟨r, hr, n, hn, rfl⟩ := mem_tileWrites.mp he
  unfold htKey at hkey
  dsimp only at hkey
  omega

/-- HST (R279). -/
theorem exec_hst_stores (s : State) (f : FScan) (hc : s.Clean .m) (hu : (useHmove (ctxOf s) f false).causes = []) :
    let g := tilePhys (ctxOf s) f.tp
    ∃ t, exec (.hst f) s = .next t ∧
      (∀ r < 64, ∀ n < 64, rowLane (t.hw.core (coreOf s.cur.seat)) g r n = htLane s.myCore (htPhys (ctxOf s) f.h.toNat) r n) ∧
      (∀ w, w < 512 * g ∨ 512 * g + 2048 ≤ w → SMap.get 0 (t.hw.core (coreOf s.cur.seat)).tile w = SMap.get 0 s.myCore.tile w) ∧
      s.LeavesCore t { s.myCore with tile := (t.hw.core (coreOf s.cur.seat)).tile, touched := (t.hw.core (coreOf s.cur.seat)).touched }
        (stepped s 0) [] := by
  intro g
  obtain ⟨tl, tc, hd, htl⟩ := (Does.refl s True).writeLanes (tileWrites g (htLane s.myCore (htPhys (ctxOf s) f.h.toNat)))
  obtain ⟨t, ht, hl⟩ : ∃ t, exec (.hst f) s = .next t ∧ MatrixLeaves s t True { s.myCore with tile := tl, touched := tc } (s.me.warned 0) := by
    rw [exec_hst, execHst]
    refine scForm_clean (.hst f) s hc (fun _ => Instr.noConfusion) _ (useHmove (ctxOf s) f false) 32 32 34 _ ?_ hu hd ⟨rfl, rfl, rfl⟩
      (goesOn_warned hc 0)
    rw [hc.ctx_co]
    rfl
  have hcw := cellWrites_tileWrites g (htLane s.myCore (htPhys (ctxOf s) f.h.toNat)) (htLane_lt s.myCore _)
  have hgran : ∀ e ∈ tileWrites g (htLane s.myCore (htPhys (ctxOf s) f.h.toNat)), e.1 = g := fun e he => by
    obtain ⟨r, -, n, -, rfl⟩ := mem_tileWrites.mp he
    rfl
  have hword : (t.hw.core (coreOf s.cur.seat)).tileWord =
      (tileWrites g (htLane s.myCore (htPhys (ctxOf s) f.h.toNat))).foldl putLane s.myCore.tileWord := by
    unfold Core.tileWord
    rw [hl.core.tile]
    exact htl
  exact ⟨t, ht, fun r hr n hn => hcw.rowLane hword (mem_tileWrites.mpr ⟨r, hr, n, hn, rfl⟩) (fun e he => by rw [hgran e he]),
    fun w hw => hcw.word_kept hword (fun e he => by rw [hgran e he]; exact hw), (hl.all trivial).own_tile⟩

/-- Settles O38: the pair image and the state tiles by the lists of cells that each form writes, QSET by the seat's program. -/
theorem stateForms : Obligations.StateForms := by
  intro s f hc c sh g h co left
  refine ⟨fun hu => ?_, fun hu => ?_, fun hu => ?_, fun hu => ?_, fun hu => ?_, fun hu => exec_hst_stores s f hc hu, fun hu => ?_⟩
  · obtain ⟨t, tl, tc, ht, htl, hl⟩ := exec_scanc_writes s f hc hu
    have hsh := inTile_of_scanShape (c := c) (f := f) (by simp only [useScan, List.append_eq_nil_iff] at hu; exact hu.1.1.2)
    obtain ⟨hin, hout⟩ := pairImage_winWrites (co := s.myCore) (co' := co t) hsh (scancEl_fits s f) (by rw [Core.tileWord, hl.core.tile]; exact htl)
    exact ⟨t, ht, hin, hout, hl.core.ht, fun hq => (hl.all hq).own_states⟩
  · obtain ⟨t, ht, hq, hl⟩ := exec_qset_loads s f hc hu
    refine ⟨t, ht, ?_, fun n hn => ?_, hl⟩
    · rw [Seat.qr, hq]
      exact SMap.get_set_self ..
    · rw [Seat.qr, hq]
      exact SMap.get_set_ne _ _ _ hn
  · have hsh := inTile_of_scanShape (c := c) (f := f) (by simp only [useStep, List.append_eq_nil_iff] at hu; exact hu.1.2)
    obtain ⟨t, tl, tc, ht, hl, htl⟩ := step_leaves (.step f) s f false hc (fun _ => Instr.noConfusion) hu
    exact ⟨t, ht, statesStepped_of_ht hsh hl.core.ht, hl.core.tile.trans htl, fun hq => (hl.all hq).own_states⟩
  · have hsh := inTile_of_scanShape (c := c) (f := f) (by simp only [useStep, List.append_eq_nil_iff] at hu; exact hu.1.2)
    obtain ⟨t, tl, tc, ht, hl, htl⟩ := step_leaves (.stepy f) s f true hc (fun _ => Instr.noConfusion) hu
    obtain ⟨hin, hout⟩ := pairImage_winWrites (co := s.myCore) (co' := co t) hsh (stepped2_fits s f) (by rw [Core.tileWord, hl.core.tile]; exact htl)
    exact ⟨t, ht, statesStepped_of_ht hsh hl.core.ht, hin, hout, fun hq => (hl.all hq).own_states⟩
  · rw [exec_hld, execHld]
    refine fillHt_leaves (.hld f) s hc (fun _ => Instr.noConfusion) _ (useHmove c f true) 32 32 34 h (rowLane s.myCore g) ?_ hu
      (rowLane_lt s.myCore g)
    rw [hc.ctx_co]
    rfl
  · rw [exec_hzero, execHzero]
    exact fillHt_leaves (.hzero f) s hc (fun _ => Instr.noConfusion) _ (useHzero c f) 1 0 1 h (fun _ _ => if f.q = 0 then 0 else idImg)
      rfl hu (fun _ _ => by split <;> decide)

end Sys2Proof.Machine
